-- ==== Sys2Proof/Word.lean ====
section
/-! DEFINITION. The word types of the model: the widths the manual gives (R11, R19), nothing else. -/

namespace Sys2Proof

/-- One byte of memory (R11). -/
abbrev Byte := BitVec 8

/-- A 32-bit lane value (R19). -/
abbrev W32 := BitVec 32

/-- A 64-bit scalar register, address or code word (R19, R34). -/
abbrev W64 := BitVec 64

/-- A mask of the 64 lanes of a warp, lane 0 in bit 0 (R181). -/
abbrev Lanes := BitVec 64

/-- The 64 data bytes of one sector, byte 0 in bits [7:0] (R267, R270). -/
abbrev SectorData := BitVec 512

end Sys2Proof
end

