-- ==== Sys2Proof/Config.lean ====
section
/-! DEFINITION. The constants of the module and its free values: what the manual leaves open has no body here, so
nothing can be proved of it. -/

namespace Sys2Proof.Config

/-- A fresh 32-bit value that the manual does not state (R37, R79, R103), by a counter of State. -/
opaque freeWord : Nat → W32

/-- A tile element and a predicate's lanes of lanes that were never live and have not written them as helpers (R103), by a counter. -/
opaque helperWord : Nat → W32

opaque helperMask : Nat → Lanes

/-- A fresh 64-bit value that the manual does not state, by a counter of State. -/
opaque freeLong : Nat → W64

/-- A kernel's data segment as assembled (R28), by the name of its code object: the launch record says neither where the module finds
it nor how long it is. -/
opaque dataSegment : BitVec 128 → List Byte

/-- A fresh 64-byte value that the manual does not state (R280), by a counter of State. -/
opaque freeSector : Nat → SectorData

/-- The correctly rounded FEXP2 or FLOG2 of an operand whose rounding the 256-bit enclosure does not decide (R101);
the operation, the format and the operand select it. -/
opaque hardFloat : Nat → Nat → Nat → Nat

/-- The scratchpad bank of a byte offset (R116): the manual gives the banks' number and size, not their interleaving. -/
opaque bankOf : Nat → Nat

/-- The selvage link on which a message for another module of the coherence domain leaves: the route is the link
layer's (R270). -/
opaque linkTo : Nat → Nat

/-- Which module numbers name another module of the coherence domain (R333). -/
opaque inDomain : Nat → Bool

/-- A word of a black-box or repair record whose contents the manual names without their places or coding (R321, R325): a
number for the word and its contents. For black-box records the number is the type, for ADDR `0x100` more. -/
opaque recordDetail : Nat → List Nat → W64

/-- The SRC field of a black-box record that no numbered agent causes, by the record's type. -/
opaque recordSource : Nat → BitVec 13

/-- A word of a saved area whose contents the manual names without their coding (R191, R240), by the area and its contents. -/
opaque saveWord : Nat → List Nat → W64

/-- Which sector a full L2 evicts (R2, R272), by a counter of State. -/
opaque victimOf : Nat → Nat

/-- The chip identity that the factory section records, 0 standing for 1 (R14, R321). -/
opaque chipNumber : BitVec 32

/-- The DRAM row of a sector (R320), by its number: the manual leaves rows to the DRAM dies. -/
opaque dramRow : Nat → Nat

/-- A doubleword of the PCIe configuration space as the host reads it (R336), by its offset: the manual names the space and not what
it holds. -/
opaque configSpace : Nat → W64

/-- The SHA-512 digest of a repair-map section (R326), by its records. -/
opaque sectionDigest : List (Nat × BitVec 128) → BitVec 512

/-- The block-transfer engine that takes a core's EBLK commands, modulo 4: the manual does not assign them (R171). -/
opaque blockEngineOf : Nat → Nat

end Sys2Proof.Config
end

