-- ==== Sys2Proof/Fields.lean ====
section
/-! DEFINITION. The operand groups of encoded instructions (R41 to R43 and the entries), the header word (R36), and
the data that the events of the table carry. -/

namespace Sys2Proof

/-! ### Operand groups of encoded instructions -/

/-- Fields of the VM memory form (R42): data register, offset register, scalar base, size code, modifier. -/
structure VmOp where
  d : BitVec 8
  a : BitVec 8
  base : BitVec 6
  size : BitVec 2
  m : BitVec 2
deriving DecidableEq, Repr, Inhabited

/-- The memory extension of a joined class-E bundle (R43). -/
structure MemX where
  order : BitVec 2
  scope : BitVec 3
  off : BitVec 13
deriving DecidableEq, Repr, Inhabited

/-- Three vector-register fields and the modifier (forms V3, VI and VS of R42). -/
structure V3Op where
  d : BitVec 8
  a : BitVec 8
  b : BitVec 8
  m : BitVec 2
deriving DecidableEq, Repr, Inhabited

/-- A vector destination and one source (V3 with vb = 0). -/
structure V2Op where
  d : BitVec 8
  a : BitVec 8
  m : BitVec 2
deriving DecidableEq, Repr, Inhabited

/-- Form VP of R42: a condition, a predicate destination and two operands. -/
structure VpOp where
  cond : BitVec 4
  pd : BitVec 4
  a : BitVec 8
  b : BitVec 8
  m : BitVec 2
deriving DecidableEq, Repr, Inhabited

/-- Form VQ of R42: predicate logic; `na` and `nb` invert the sources. -/
structure VqOp where
  pd : BitVec 4
  pa : BitVec 4
  pb : BitVec 4
  na : Bool
  nb : Bool
deriving DecidableEq, Repr, Inhabited

/-- The extension shared by CVT (R95) and FCVT (R102); FCVT has no `sat`. -/
structure CvtX where
  dt : BitVec 4
  st : BitVec 4
  elem : BitVec 4
  sat : Bool
  rtz : Bool
deriving DecidableEq, Repr, Inhabited

/-- Fields of MMA and MSS (R159). -/
structure MmOp where
  acc : BitVec 2
  fa : BitVec 3
  fb : BitVec 3
  fmt : BitVec 3
  kc : BitVec 6
  za : Bool
  fuse : Bool
deriving DecidableEq, Repr, Inhabited

/-- Fields of ACCRD and ACCWR (R164). -/
structure AccOp where
  v : BitVec 8
  acc : BitVec 2
  col : BitVec 6
  nm1 : BitVec 6
deriving DecidableEq, Repr, Inhabited

/-- Extension of the compare-and-swap instructions (R127). -/
structure CasX where
  base : BitVec 6
  size : BitVec 2
  order : BitVec 2
  scope : BitVec 3
deriving DecidableEq, Repr, Inhabited

/-- The layout the engine commands share (R171): status register, completion flag, three scalar indices. -/
structure EngOp where
  sd : BitVec 6
  cf : BitVec 4
  x : BitVec 8
  y : BitVec 8
  z : BitVec 8
deriving DecidableEq, Repr, Inhabited

/-! ### Data carried by events -/

/-- A token message (R270). `data` is present exactly when DATA = 1. -/
structure Msg where
  type : BitVec 8
  reqid : BitVec 16
  sector : Nat
  dst : BitVec 13
  src : BitVec 13
  count : BitVec 11
  data : Option SectorData
  tc : BitVec 2
  dirty : Bool
  owner : Bool
  serial : BitVec 3
  poison : Bool
deriving DecidableEq, Repr, Inhabited

/-- A collective packet (R287): its header fields and its payload bytes. -/
structure Packet where
  dstc : W64
  cid : BitVec 16
  version : BitVec 32
  chix : BitVec 12
  ops : BitVec 64
  srcmod : BitVec 3
  bytes : BitVec 21
  contrib : BitVec 8
  type : BitVec 4
  op : BitVec 4
  nrem : BitVec 4
  payload : List Byte
deriving DecidableEq, Repr, Inhabited

/-- A message of an agreement round (R290): sender, receiver, pair, version and proposed mask. -/
structure RoundMsg where
  src : BitVec 3
  dst : BitVec 3
  pair : BitVec 4
  version : BitVec 32
  mask : BitVec 8
deriving DecidableEq, Repr, Inhabited

/-- A posted write that reaches a home (R124, R125, R213): its steps in lane order, each a byte offset in the sector and
the bytes to store or combine, and the identity its arrival is counted under. -/
structure PostedWrite where
  sector : Nat
  steps : List (Nat × List Byte)
  red : Option (BitVec 2)
  srcId : W64
  round : BitVec 32
  tc : BitVec 2
deriving DecidableEq, Repr, Inhabited

/-- What a hart does to device memory (R221): plain accesses, atomics, reservations and fences. Sizes are log2 bytes. -/
inductive HartOp where
  | load (rd : BitVec 5) (pa : Nat) (size : BitVec 2) (signed : Bool)
  | store (rs : BitVec 5) (pa : Nat) (size : BitVec 2)
  | amo (op : BitVec 4) (rd rs : BitVec 5) (pa : Nat) (dword aq rl : Bool)
  | lr (rd : BitVec 5) (pa : Nat) (dword aq rl : Bool)
  | sc (rd rs : BitVec 5) (pa : Nat) (dword aq rl : Bool)
  | fence (predR predW succR succW : Bool)
  | fenceTso
deriving DecidableEq, Repr, Inhabited

/-- What bring-up finds outside the model's logic (R9, R320, R322, R342): the results of the self-test, which sections of the repair
map verify, the links that train, the module number on the connector pins (R335), and whether the OS image verifies. -/
structure BringUp where
  pass : BitVec 24
  /-- Logical cores whose self-test fails. -/
  failing : List Nat
  /-- Sub-arrays whose self-test fails: core, array, sub-array (R312, R326). -/
  failingArrays : List (Nat × Nat × BitVec 2) := []
  /-- The signatures of the two repair-map sections verify (R322). -/
  factoryGood : Bool
  fieldGood : Bool
  /-- The selvage links that train. -/
  links : BitVec 24
  modid : BitVec 3
  osSignatureGood : Bool
deriving DecidableEq, Repr, Inhabited

/-- The sensors of PLDM for Platform Monitoring (R339). -/
inductive Sensor where
  | power | coreClock | junction (die : Nat) | inlet
deriving DecidableEq, Repr, Inhabited

/-- A block header's fields (R36). -/
structure Header where
  len : BitVec 6
  wait : BitVec 12
  flagA : BitVec 4
  flagB : BitVec 4
  rcoff : BitVec 16
  live : BitVec 8
  pf : BitVec 4
  loop : Bool
  rcpt : Bool
  rbar : Bool
deriving DecidableEq, Repr, Inhabited

/-- What a firmware update writes to flash (R339, R342). -/
structure FirmwareImage where
  firmwareGood : Bool
  osGood : Bool
  dllc : Bool
deriving DecidableEq, Repr, Inhabited

/-- Which agent, message, link or access an event concerns, and what arrives with it. An event of the table has no
operands in an encoding: the step that runs it reads these fields, and each event's meaning says which of them it reads.
-/
structure EventArgs where
  /-- A resident block, warp or context slot, or an index into the list the event takes its subject from. -/
  k : Nat := 0
  /-- A warp slot. -/
  w : Nat := 0
  /-- An issue unit of warp `w`. -/
  u : Nat := 0
  /-- An outstanding access. -/
  id : Nat := 0
  core : Nat := 0
  lane : Nat := 0
  link : Nat := 0
  home : Nat := 0
  hart : Nat := 0
  sector : Nat := 0
  node : Nat := 0
  agent : BitVec 13 := 0
  ctx : BitVec 12 := 0
  type : BitVec 8 := 0
  serial : BitVec 3 := 0
  val0 : W64 := 0
  val1 : W64 := 0
  srcId : W64 := 0
  round : BitVec 32 := 0
  count : Nat := 0
  mask : BitVec 64 := 0
  data : SectorData := 0
  flag : Bool := false
  failing : Option (BitVec 2) := none
  bring : BringUp := default
  sensor : Sensor := .power
  image : FirmwareImage := default
  packet : Packet := default
  roundMsg : RoundMsg := default
  hartOp : HartOp := .fenceTso
  write : PostedWrite := default
deriving DecidableEq, Repr, Inhabited

end Sys2Proof
end

