-- ==== Sys2Proof/Machine/Bits.lean ====
section
/-! DEFINITION. Bit-field, sign-extension, byte-order and lane-mask helpers. Everything is structural recursion on a
count, so that Lean's kernel can evaluate it. -/

namespace Sys2Proof.Machine

/-- Bits [lo + n − 1 : lo] of a number. -/
def bitsOf (w lo n : Nat) : Nat := w / 2 ^ lo % 2 ^ n

/-- Bit `k` of a number. -/
def bitOf (w k : Nat) : Bool := w / 2 ^ k % 2 == 1

/-- `w` with bits [lo + n − 1 : lo] replaced by the low `n` bits of `v`. -/
def setBits (w lo n v : Nat) : Nat :=
  w % 2 ^ lo + (v % 2 ^ n) * 2 ^ lo + w / 2 ^ (lo + n) * 2 ^ (lo + n)

/-- The two's-complement reading of the low `n` bits (R56). -/
def signed (n w : Nat) : Int :=
  let u := w % 2 ^ n
  if n ≠ 0 ∧ 2 ^ (n - 1) ≤ u then (u : Int) - (2 ^ n : Nat) else (u : Int)

/-- An integer modulo 2^n. -/
def wrap (n : Nat) (x : Int) : Nat := (x % (2 ^ n : Nat)).toNat

/-- `true` as 1. -/
def boolNat (b : Bool) : Nat := if b then 1 else 0

/-- Count of set bits among the low `n` bits. -/
def popcount : Nat → Nat → Nat
  | 0, _ => 0
  | n + 1, w => w % 2 + popcount n (w / 2)

/-- Leading zeros of `w` in an `n`-bit word. -/
def leadingZeros : Nat → Nat → Nat
  | 0, _ => 0
  | n + 1, w => if bitOf w n then 0 else 1 + leadingZeros n w

/-- The low `n` bits in reverse order. -/
def reverseBits : Nat → Nat → Nat
  | 0, _ => 0
  | n + 1, w => (w % 2) * 2 ^ n + reverseBits n (w / 2)

/-- The positions of the set bits among the low `n`, from `k` up. -/
def bitPositions : Nat → Nat → Nat → List Nat
  | 0, _, _ => []
  | n + 1, k, w => if w % 2 == 1 then k :: bitPositions n (k + 1) (w / 2) else bitPositions n (k + 1) (w / 2)

/-- The lanes of a mask in rising order. -/
def lanesOf (m : Lanes) : List Nat := bitPositions 64 0 m.toNat

/-- A lane mask holds a lane. -/
def hasLane (m : Lanes) (l : Nat) : Bool := m.getLsbD l

/-- The mask of one lane; no lane at or above 64. -/
def laneBit (l : Nat) : Lanes := BitVec.ofNat 64 (2 ^ l)

/-- The mask of a list of lanes. -/
def maskOf : List Nat → Lanes
  | [] => 0
  | l :: ls => laneBit l ||| maskOf ls

/-- The lanes of a mask for which a test holds. -/
def filterLanes (m : Lanes) (p : Nat → Bool) : Lanes := maskOf ((lanesOf m).filter p)

/-- The lowest lane of a mask; 64 for the empty mask. -/
def lowestLane (m : Lanes) : Nat := (lanesOf m).headD 64

/-- The lanes of ply `p`: 8p to 8p + 7 (R181). -/
def plyMask (p : Nat) : Lanes := BitVec.ofNat 64 (255 * 2 ^ (8 * p))

/-- The lanes of plies `p` to `p + n − 1`. -/
def plyRangeMask (p n : Nat) : Lanes := BitVec.ofNat 64 ((2 ^ (8 * n) - 1) * 2 ^ (8 * p))

/-- The lanes of quad `q`: 4q to 4q + 3. -/
def quadMask (q : Nat) : Lanes := BitVec.ofNat 64 (15 * 2 ^ (4 * q))

/-- The quads, of sixteen, that hold a lane of the mask, as a mask. -/
def quadsOf (m : Lanes) : Lanes :=
  ((List.range 16).filter (fun q => m &&& quadMask q != 0)).foldl (fun a q => a ||| quadMask q) 0

/-- The plies, of eight, that hold a lane of the mask, in rising order. -/
def pliesOf (m : Lanes) : List Nat := (List.range 8).filter (fun p => (m &&& plyMask p) != 0)

/-- Little-endian number of a byte list (R11). -/
def leValue : List Byte → Nat
  | [] => 0
  | b :: bs => b.toNat + 256 * leValue bs

/-- The low `n` bytes of a number, little-endian (R11). -/
def leSplit : Nat → Nat → List Byte
  | 0, _ => []
  | n + 1, w => BitVec.ofNat 8 w :: leSplit n (w / 256)

/-- Round up to a multiple of `k`. -/
def roundUp (n k : Nat) : Nat := (n + k - 1) / k * k

/-- The integer square root, bit `k` and below still open. -/
def sqrtBits : Nat → Nat → Nat → Nat
  | 0, r, _ => r
  | k + 1, r, w =>
    let t := r + 2 ^ k
    if t * t ≤ w then sqrtBits k t w else sqrtBits k r w

/-- The integer square root of `w < 2^(2·bits)`. -/
def isqrt (bits w : Nat) : Nat := sqrtBits bits 0 w

/-- Replace entry `k` of a list; no change when there is none. -/
def setAt {α : Type} : List α → Nat → α → List α
  | [], _, _ => []
  | _ :: xs, 0, y => y :: xs
  | x :: xs, k + 1, y => x :: setAt xs k y

/-- Apply a function to entry `k` of a list. -/
def modAt {α : Type} : List α → Nat → (α → α) → List α
  | [], _, _ => []
  | x :: xs, 0, f => f x :: xs
  | x :: xs, k + 1, f => x :: modAt xs k f

/-- A list without entry `k`. -/
def dropAt {α : Type} : List α → Nat → List α
  | [], _ => []
  | _ :: xs, 0 => xs
  | x :: xs, k + 1 => x :: dropAt xs k

/-- The index of the first entry that passes a test. -/
def indexOf {α : Type} (p : α → Bool) : List α → Option Nat
  | [] => none
  | x :: xs => if p x then some 0 else (indexOf p xs).map (· + 1)

end Sys2Proof.Machine
end

