-- ==== Sys2Proof/Syntax.lean ====
section
/-! DEFINITION. The operations and events of spec/opcode_table.json, one constructor of `Instr` for each row.
Fields of an encoded instruction are kept as the bits the word holds. An event has no operand of its own: which agent,
message, link or access it concerns is the data of the step that runs it, and stands in `EventArgs` (Fields.lean). Meaning
stands in the machine alone. The rule beside a constructor is the one the table names for the row. -/

namespace Sys2Proof

/-- The operations and events of the module: the encoded instructions first, then the events. -/
inductive Instr where
  | gxLaunch (d a b : BitVec 5)  -- R232
  | gxReplay (d a : BitVec 5)  -- R256
  | illegalInstruction (cause : Nat)  -- R52
  | snop (i : BitVec 18)  -- R50
  | sadd (d a b : BitVec 6)  -- R81
  | ssub (d a b : BitVec 6)  -- R81
  | smul (d a b : BitVec 6)  -- R81
  | smulh (d a b : BitVec 6)  -- R81
  | sand (d a b : BitVec 6)  -- R81
  | sor (d a b : BitVec 6)  -- R81
  | sxor (d a b : BitVec 6)  -- R81
  | sshl (d a b : BitVec 6)  -- R81
  | sshr (d a b : BitVec 6)  -- R81
  | ssar (d a b : BitVec 6)  -- R81
  | smin (d a b : BitVec 6)  -- R81
  | smax (d a b : BitVec 6)  -- R81
  | sslt (d a b : BitVec 6)  -- R81
  | sminn (d a b : BitVec 6)  -- R81
  | smaxn (d a b : BitVec 6)  -- R81
  | saddSi (d a i : BitVec 6)  -- R81
  | sandSi (d a i : BitVec 6)  -- R81
  | sorSi (d a i : BitVec 6)  -- R81
  | sxorSi (d a i : BitVec 6)  -- R81
  | sshlSi (d a i : BitVec 6)  -- R81
  | sshrSi (d a i : BitVec 6)  -- R81
  | ssarSi (d a i : BitVec 6)  -- R81
  | ssltSi (d a i : BitVec 6)  -- R81
  | sli (d : BitVec 6) (i : BitVec 12)  -- R82
  | slsh (d : BitVec 6) (i : BitVec 12)  -- R82
  | sgets (d : BitVec 6) (sel : BitVec 12)  -- R83
  | sld (d a i : BitVec 6)  -- R120
  | sst (d a i : BitVec 6)  -- R120
  | ssltn (d a b : BitVec 6)  -- R81
  | swaitc (path : BitVec 3) (sn : BitVec 6) (z : Bool)  -- R133
  | sfenceRel (scope : BitVec 3)  -- R130
  | sfenceAcq (scope : BitVec 3)  -- R130
  | sbra (off : BitVec 18)  -- R142
  | scall (off : BitVec 18)  -- R142
  | sret  -- R142
  | sbrx (a : BitVec 6)  -- R143
  | sexit  -- R144
  | sregang  -- R145
  | sbar (a : BitVec 6) (scope : BitVec 3)  -- R148
  | sbara (a : BitVec 6) (scope : BitVec 3)  -- R148
  | sfork (d a b : BitVec 6)  -- R149
  | sjoin  -- R151
  | sgwalk (d a : BitVec 6)  -- R150
  | strap (code : BitVec 12)  -- R155
  | ssysNclr (a : BitVec 6)  -- R155
  | ssysTret  -- R156
  | ssysTrd (a w : BitVec 6)  -- R155
  | ssysTwr (a w : BitVec 6)  -- R155
  | ssysCtxid (a : BitVec 6)  -- R155
  | smfence (d : BitVec 6) (flag : BitVec 4) (ck : Bool) (ctr : BitVec 5)  -- R168
  | smwait (a : BitVec 6)  -- R169
  | smonarm (a : BitVec 6)  -- R134
  | smonwait (d a : BitVec 6)  -- R135
  | snlook (d a : BitVec 6)  -- R179
  | snlookHold (d a : BitVec 6)  -- R179
  | snlookRelease (d a : BitVec 6)  -- R179
  | snnew (d a b : BitVec 6)  -- R179
  | sndel (d a : BitVec 6)  -- R179
  | sncas (d a b : BitVec 6)  -- R179
  | vnop (i : BitVec 26)  -- R50
  | vhint (k : BitVec 4) (i : BitVec 26)  -- R50
  | vadd (o : V3Op)  -- R85
  | vsub (o : V3Op)  -- R85
  | vmul (o : V3Op)  -- R85
  | vmulh (o : V3Op)  -- R85
  | vmin (o : V3Op)  -- R85
  | vmax (o : V3Op)  -- R85
  | vabs (o : V3Op)  -- R85
  | vneg (o : V3Op)  -- R85
  | vmad (o : V3Op)  -- R85
  | vsad (o : V3Op)  -- R85
  | vand (o : V3Op)  -- R85
  | vor (o : V3Op)  -- R85
  | vxor (o : V3Op)  -- R85
  | vnot (d a : BitVec 8)  -- R85
  | vandn (o : V3Op)  -- R85
  | vshl (o : V3Op)  -- R85
  | vshr (o : V3Op)  -- R85
  | vsar (o : V3Op)  -- R85
  | vrot (o : V3Op)  -- R85
  | vclz (d a : BitVec 8)  -- R85
  | vpopc (d a : BitVec 8)  -- R85
  | vbrev (d a : BitVec 8)  -- R85
  | vbfx (d a : BitVec 8) (pos lenm1 : BitVec 5) (u : Bool)  -- R87
  | vbfi (d a : BitVec 8) (pos lenm1 : BitVec 5)  -- R87
  | vaddVi (o : V3Op)  -- R85
  | vmulVi (o : V3Op)  -- R85
  | vandVi (o : V3Op)  -- R85
  | vorVi (o : V3Op)  -- R85
  | vxorVi (o : V3Op)  -- R85
  | vshlVi (o : V3Op)  -- R85
  | vshrVi (o : V3Op)  -- R85
  | vsarVi (o : V3Op)  -- R85
  | vminVi (o : V3Op)  -- R85
  | vmaxVi (o : V3Op)  -- R85
  | vli (d i : BitVec 8) (m : BitVec 2)  -- R85
  | vaddVs (o : V3Op)  -- R85
  | vsubVs (o : V3Op)  -- R85
  | vmulVs (o : V3Op)  -- R85
  | vandVs (o : V3Op)  -- R85
  | vorVs (o : V3Op)  -- R85
  | vxorVs (o : V3Op)  -- R85
  | vshlVs (o : V3Op)  -- R85
  | vshrVs (o : V3Op)  -- R85
  | vsarVs (o : V3Op)  -- R85
  | vminVs (o : V3Op)  -- R85
  | vmaxVs (o : V3Op)  -- R85
  | vbcast (d s : BitVec 8)  -- R85
  | vbcasth (d s : BitVec 8)  -- R85
  | vcmp (o : VpOp)  -- R90
  | vcmpVi (o : VpOp)  -- R90
  | vcmpVs (o : VpOp)  -- R90
  | vfcmp (o : VpOp)  -- R91
  | vpand (o : VqOp)  -- R92
  | vpor (o : VqOp)  -- R92
  | vpxor (o : VqOp)  -- R92
  | vpnot (pd pa : BitVec 4) (na : Bool)  -- R92
  | vptst (pd : BitVec 4) (a : BitVec 8)  -- R93
  | vptov (d : BitVec 8) (p : BitVec 4)  -- R93
  | vsel (d a b : BitVec 8) (p : BitVec 4) (inv : Bool)  -- R93
  | vmov (d a : BitVec 8)  -- R93
  | vcvt (d a : BitVec 8) (x : CvtX)  -- R95
  | vlea (o : V3Op)  -- R89
  | vpack (d a : BitVec 8) (t : BitVec 4) (off : BitVec 6)  -- R96
  | vunpk (d a : BitVec 8) (t : BitVec 4) (off : BitVec 6)  -- R96
  | vsxt (d a w : BitVec 8)  -- R88
  | vzxt (d a w : BitVec 8)  -- R88
  | vgets (d sel : BitVec 8)  -- R94
  | vfadd (o : V3Op)  -- R99
  | vfsub (o : V3Op)  -- R99
  | vfmul (o : V3Op)  -- R99
  | vfma (o : V3Op)  -- R99
  | vfmin (o : V3Op)  -- R100
  | vfmax (o : V3Op)  -- R100
  | vfabs (o : V2Op)  -- R100
  | vfneg (o : V2Op)  -- R100
  | vfrcp (o : V2Op)  -- R101
  | vfrsq (o : V2Op)  -- R101
  | vfsqrt (o : V2Op)  -- R101
  | vfexp2 (o : V2Op)  -- R101
  | vflog2 (o : V2Op)  -- R101
  | vfcvt (d a : BitVec 8) (x : CvtX)  -- R102
  | vqxch (d a b : BitVec 8) (width : Option (BitVec 4))  -- R107
  | vshfl (d a b : BitVec 8) (width : Option (BitVec 4))  -- R107
  | vshflVi (d a b : BitVec 8) (width : Option (BitVec 4))  -- R107
  | vshflVs (d a b : BitVec 8) (width : Option (BitVec 4))  -- R107
  | vshflup (d a b : BitVec 8) (width : Option (BitVec 4))  -- R107
  | vshfldn (d a b : BitVec 8) (width : Option (BitVec 4))  -- R107
  | vshflx (d a b : BitVec 8) (width : Option (BitVec 4))  -- R107
  | vvote (cond pd p : BitVec 4) (inv : Bool) (width : Option (BitVec 4))  -- R109
  | vballot (d : BitVec 8) (width p : BitVec 4) (inv : Bool)  -- R110
  | vwred (d a : BitVec 8) (width op : BitVec 4) (scan : Bool)  -- R111
  | vld (o : VmOp) (x : Option MemX)  -- R118
  | vst (o : VmOp) (x : Option MemX)  -- R118
  | vldu (o : VmOp) (x : Option MemX)  -- R121
  | vstu (o : VmOp) (x : Option MemX)  -- R121
  | vlds (o : VmOp) (x : Option MemX)  -- R118
  | vsts (o : VmOp) (x : Option MemX)  -- R119
  | vldx (o : VmOp) (x : Option MemX)  -- R118
  | vstx (o : VmOp) (x : Option MemX)  -- R119
  | vldf (o : VmOp) (x : Option MemX)  -- R128
  | vste (o : VmOp) (x : Option MemX)  -- R128
  | vldc (o : VmOp) (count : BitVec 12) (off : BitVec 6)  -- R122
  | vstn (o : VmOp) (x : Option MemX)  -- R124
  | vred (o : VmOp) (x : Option MemX)  -- R124
  | vpfl (o : VmOp) (x : Option MemX)  -- R123
  | vaadd (o : VmOp) (x : Option MemX)  -- R126
  | vamin (o : VmOp) (x : Option MemX)  -- R126
  | vamax (o : VmOp) (x : Option MemX)  -- R126
  | vaand (o : VmOp) (x : Option MemX)  -- R126
  | vaor (o : VmOp) (x : Option MemX)  -- R126
  | vaxor (o : VmOp) (x : Option MemX)  -- R126
  | vaxch (o : VmOp) (x : Option MemX)  -- R126
  | vacas (d a b : BitVec 8) (x : CasX)  -- R127
  | vbadd (o : VmOp) (x : Option MemX)  -- R126
  | vbmin (o : VmOp) (x : Option MemX)  -- R126
  | vbmax (o : VmOp) (x : Option MemX)  -- R126
  | vband (o : VmOp) (x : Option MemX)  -- R126
  | vbor (o : VmOp) (x : Option MemX)  -- R126
  | vbxor (o : VmOp) (x : Option MemX)  -- R126
  | vbxch (o : VmOp) (x : Option MemX)  -- R126
  | vbcas (d a b : BitVec 8) (x : CasX)  -- R127
  | vmma (o : MmOp)  -- R161
  | vmss (o : MmOp)  -- R161
  | vaccrd (o : AccOp)  -- R164
  | vaccwr (o : AccOp)  -- R164
  | vaccz (acc : BitVec 2)  -- R164
  | vaccq (d a : BitVec 8) (acc : BitVec 2) (col : BitVec 6) (it u : Bool)  -- R165
  | vfmtld (fmt : BitVec 3) (a b : BitVec 8)  -- R167
  | vecpy (o : EngOp) (fromSp toSp : Bool) (fe : BitVec 2)  -- R174
  | vefill (o : EngOp) (fromSp : Bool) (fifo : BitVec 3)  -- R174
  | vered (o : EngOp) (op type : BitVec 4)  -- R175
  | vepkt (o : EngOp) (t : Bool) (ctr : BitVec 5)  -- R176
  | veblkGet (o : EngOp)  -- R177
  | veblkPut (o : EngOp)  -- R177
  | veblkFlush (o : EngOp)  -- R177
  /- Events: no encoding of their own. -/
  | auxPowerGood  -- R7
  | mainPowerGood  -- R9
  | mainPowerLoss  -- R10
  | auxPowerLoss  -- R10
  | residentOsReady  -- R7
  | warmResetApply  -- R8
  | fatalMachineCheck  -- R302
  | hostctlWrst  -- R336
  | readBbhead  -- R340
  | readBlackBoxRecord  -- R340
  | readRepairMapRecord  -- R340
  | readSectorMetadata  -- R340
  | writeInjectorWords  -- R340
  | requestWarmReset  -- R340
  | readModstat  -- R340
  | pldmSensorRead  -- R339
  | pldmFirmwareUpdate  -- R339
  | spdmMeasurement  -- R326
  | cxlMemWrite  -- R337
  | cxlMemRead  -- R337
  | clockAdjust  -- R343
  | registerWrite  -- R12
  | faultEntryFree  -- R254
  | fbstatDroppedClear  -- R255
  | interruptClaim  -- R255
  | namePortLook  -- R266
  | namePortLookHold  -- R266
  | namePortRelease  -- R266
  | namePortNew  -- R266
  | namePortDelete  -- R266
  | namePortCas  -- R266
  | injectorWrite  -- R328
  | injectorRelease  -- R328
  | linkTransmit  -- R13
  | linkResend  -- R13
  | linkLaneSwap  -- R320
  | linkRetrain  -- R325
  | patrolScrub  -- R300
  | blockDispatch  -- R234
  | preemptVictim  -- R238
  | preemptComplete  -- R238
  | gridCompletion  -- R236
  | donationStart  -- R241
  | donationEnd  -- R241
  | contextRemoval  -- R244
  | graphNodeStart  -- R243
  | graphNodeComplete  -- R243
  | headerWaitEnd  -- R37
  | ageingCounterSaturate  -- R189
  | stackRotation  -- R189
  | convergenceTrap  -- R141
  | regcacheFill  -- R192
  | loadDataReturn  -- R117
  | storePerformed  -- R118
  | postedWriteAck  -- R125
  | scratchpadRemoteReply  -- R132
  | feWaitComplete  -- R128
  | monwaitTimeout  -- R135
  | fenceComplete  -- R130
  | releaseQueryReply  -- R213
  | releaseQueryResend  -- R213
  | homeArrivalQuery  -- R214
  | barrierArrival  -- R148
  | checkpoint  -- R306
  | mmaStart  -- R161
  | mmaComplete  -- R161
  | batchComplete  -- R168
  | selfTestProduct  -- R311
  | auditReplay  -- R315
  | engineHandover  -- R171
  | engineSegmentStart  -- R172
  | engineCommandComplete  -- R172
  | engineChunkBoundary  -- R293
  | epktLocalCompletion  -- R292
  | packetReceive  -- R288
  | prop  -- R290
  | ack  -- R290
  | nak  -- R290
  | release  -- R290
  | commit  -- R290
  | done  -- R290
  | rds  -- R272
  | rdx  -- R272
  | tok  -- R271
  | tkd  -- R271
  | wbk  -- R274
  | prq  -- R277
  | pdq  -- R278
  | pac  -- R278
  | pda  -- R278
  | pnd  -- R277
  | cnq  -- R317
  | cnr  -- R317
  | rcr  -- R318
  | transientTimerExpiry  -- R275
  | eviction  -- R272
  | homePostedWrite  -- R274
  | persistentRequest5us  -- R317
  | censusStart  -- R316
  | censusRound2  -- R317
  | discardEntryExpire  -- R319
  | censusDeferredStart  -- R319
  | blockStateError  -- R310
  | flashWriteComplete  -- R265
  | nameOpComplete  -- R178
  | remoteBankAccess  -- R118
  | hartMemoryAccess  -- R221
  | perstChange  -- R335
deriving DecidableEq, Repr, Inhabited

end Sys2Proof
end

