-- ==== Sys2Proof/Machine/Legal.lean ====
section
/-! DEFINITION. The field checks of the encoded instructions: no field holds a value its entry reserves (cause 3 of
R52) and no field names a register that does not exist (cause 9). An event has no fields. -/

namespace Sys2Proof

/-- The outcome of the field checks of one encoded instruction: the lowest failing cause of R52, 3 before 9. -/
def causeOf (reserved noReg : Bool) : Option Nat :=
  if reserved then some 3 else if noReg then some 9 else none

/-- Type codes 0 to 6 of R53 are the float formats. -/
def isFloatCode (t : BitVec 4) : Bool := t.toNat ≤ 6

/-- Type codes 8 to 15 of R53 are the integer types. -/
def isIntCode (t : BitVec 4) : Bool := 8 ≤ t.toNat

/-- Width in bits of a type code (R53). -/
def typeBits (t : BitVec 4) : Nat :=
  match t.toNat with
  | 0 => 8 | 1 => 8 | 2 => 6 | 3 => 4 | 4 => 16 | 5 => 16 | 6 => 32 | 7 => 2
  | 8 => 8 | 9 => 16 | 10 => 32 | 11 => 64 | 12 => 8 | 13 => 16 | 14 => 32 | _ => 64

/-- Elements per lane (R59); 1 for the 32-bit and the 64-bit types (R95). -/
def elemsPerLane (t : BitVec 4) : Nat :=
  match t.toNat with
  | 0 => 4 | 1 => 4 | 2 => 5 | 3 => 8 | 4 => 2 | 5 => 2 | 6 => 1 | 7 => 16
  | 8 => 4 | 9 => 2 | 10 => 1 | 11 => 1 | 12 => 4 | 13 => 2 | 14 => 1 | _ => 1

/-- The ELEM limit of R95 and R102: ELEM ≥ ⌈max(epl) ÷ min(epl)⌉ is reserved. -/
def elemReserved (x : CvtX) : Bool :=
  let a := elemsPerLane x.st
  let b := elemsPerLane x.dt
  let n := min a b
  decide ((max a b + n - 1) / n ≤ x.elem.toNat)

/-- A 64-bit type at v255 has no second register (R95). -/
def pairPastEnd (t : BitVec 4) (r : BitVec 8) : Bool := typeBits t == 64 && r == 255

/-- Order 11 and scopes 5 to 7 are illegal values of the memory extension (R43). -/
def memXReserved : Option MemX → Bool
  | none => false
  | some x => x.order == 3 || decide (5 ≤ x.scope.toNat)

/-- `.rel` on a load is reserved (R118). -/
def relOrder : Option MemX → Bool
  | none => false
  | some x => x.order == 2

/-- `.acq` on a store is reserved (R118, R124). -/
def acqOrder : Option MemX → Bool
  | none => false
  | some x => x.order == 1

/-- A 64-bit access needs an even data register (R42). -/
def oddPair (o : VmOp) : Bool := o.size == 3 && o.d.getLsbD 0

/-- Width codes 9 to 15 are illegal (R43). -/
def widthReserved : Option (BitVec 4) → Bool
  | none => false
  | some k => decide (9 ≤ k.toNat)

/-- A vector load's modifier: m[1] = 0, and zero-extension only below 32 bits (R113). -/
def loadMReserved (o : VmOp) : Bool := o.m.getLsbD 1 || (o.m.getLsbD 0 && o.size.getLsbD 1)

def wfLoad (o : VmOp) (x : Option MemX) : Option Nat :=
  causeOf (loadMReserved o || memXReserved x || relOrder x) (oddPair o)

def wfStore (o : VmOp) (x : Option MemX) : Option Nat :=
  causeOf (o.m != 0 || memXReserved x || acqOrder x) (oddPair o)

/-- STS and STX: m = 11 is reserved (R119). -/
def wfSpStore (o : VmOp) (x : Option MemX) : Option Nat :=
  causeOf (o.m == 3 || memXReserved x || acqOrder x) (oddPair o)

/-- Atomics take sizes 32 and 64 only (R126); `mm` says whether m[0] selects unsigned. -/
def wfAtomic (mm : Bool) (o : VmOp) (x : Option MemX) : Option Nat :=
  causeOf (!o.size.getLsbD 1 || o.m.getLsbD 1 || (!mm && o.m.getLsbD 0) || memXReserved x) (oddPair o)

/-- LDF and STE: size 10 and m = 00 (R128). -/
def wfFe (load : Bool) (o : VmOp) (x : Option MemX) : Option Nat :=
  causeOf (o.size != 2 || o.m != 0 || memXReserved x || (if load then relOrder x else acqOrder x)) false

def wfCas (d b : BitVec 8) (x : CasX) : Option Nat :=
  causeOf (x.size == 3 || x.order == 3 || decide (5 ≤ x.scope.toNat))
    ((x.size == 1 && (d.getLsbD 0 || b.getLsbD 0)) || (x.size == 2 && (d.toNat % 4 != 0 || b.toNat % 4 != 0)))

/-- Predicate index 15 names no predicate (R44). -/
def noPred (p : BitVec 4) : Bool := p == 15

/-- Scalar indices above 63 name no register (R44). -/
def noScalar (r : BitVec 8) : Bool := decide (64 ≤ r.toNat)

def wfCmp (o : VpOp) (vs : Bool) : Option Nat :=
  causeOf (o.m.getLsbD 1 || decide (8 ≤ o.cond.toNat) ||
      (o.m.getLsbD 0 && (decide (o.cond.toNat < 2) || decide (6 ≤ o.cond.toNat))))
    (noPred o.pd || (vs && noScalar o.b))

def wfVq (o : VqOp) : Option Nat := causeOf false (noPred o.pd || noPred o.pa || noPred o.pb)

def wfCvt (d a : BitVec 8) (x : CvtX) : Option Nat :=
  causeOf ((isFloatCode x.dt && isFloatCode x.st) || elemReserved x || (x.sat && !isIntCode x.dt) ||
      (x.rtz && !(isFloatCode x.dt || isFloatCode x.st)))
    (pairPastEnd x.st a || pairPastEnd x.dt d)

def wfFcvt (x : CvtX) : Option Nat :=
  causeOf (!isFloatCode x.dt || !isFloatCode x.st || x.sat || elemReserved x) false

/-- PACK and UNPK take types of width 16 or less (R96); the pair must not start at v255. -/
def wfPack (t : BitVec 4) (pair : BitVec 8) : Option Nat := causeOf (decide (16 < typeBits t)) (pair == 255)

/-- The shared checks of the engine commands (R171): flags 12 to 14, scalar indices above 63. -/
def wfEng (o : EngOp) (reserved : Bool) : Option Nat :=
  causeOf (reserved || (decide (12 ≤ o.cf.toNat) && o.cf != 15)) (noScalar o.x || noScalar o.y || noScalar o.z)

/-- The operation and type pairs ERED and collectives allow (R175). -/
def redTypeOk (op type : BitVec 4) : Bool :=
  if op.toNat ≤ 2 then type == 10 || type == 14
  else if op.toNat ≤ 5 then type == 6 || type == 4 || type == 5
  else false

/-- GETS selectors that R83 assigns. -/
def scalarSelOk (sel : BitVec 12) : Bool := decide (sel.toNat ≤ 8) || sel == 32

/-- The lowest cause of R52 that the fields of an encoded instruction raise; for an event, 3 when a number lies
outside the range of its units. -/
def Instr.cause : Instr → Option Nat
  | .sgets _ sel => causeOf (!scalarSelOk sel) false
  | .swaitc path sn z => causeOf (decide (6 ≤ path.toNat) || (z && sn != 0)) false
  | .sfenceRel scope => causeOf (decide (5 ≤ scope.toNat)) false
  | .sfenceAcq scope => causeOf (decide (5 ≤ scope.toNat)) false
  | .sbar _ scope => causeOf (scope != 1 && scope != 2) false
  | .sbara _ scope => causeOf (scope != 1 && scope != 2) false
  | .ssysTrd _ w => causeOf (decide (8 ≤ w.toNat)) false
  | .ssysTwr _ w => causeOf (decide (8 ≤ w.toNat)) false
  | .smfence _ flag ck ctr => causeOf ((decide (12 ≤ flag.toNat) && flag != 15) || (!ck && ctr != 0)) false
  | .snlook d _ => causeOf false (decide (61 < d.toNat))
  | .snlookHold d _ => causeOf false (decide (61 < d.toNat))
  | .snlookRelease d _ => causeOf false (decide (61 < d.toNat))
  | .vhint k _ => causeOf (k == 15) false
  | .vmulh o => causeOf (o.m.getLsbD 1) false
  | .vmin o => causeOf (o.m.getLsbD 1) false
  | .vmax o => causeOf (o.m.getLsbD 1) false
  | .vneg o => causeOf (o.m.getLsbD 0) false
  | .vand o => causeOf (o.m != 0) false
  | .vor o => causeOf (o.m != 0) false
  | .vxor o => causeOf (o.m != 0) false
  | .vandn o => causeOf (o.m != 0) false
  | .vshl o => causeOf (o.m != 0) false
  | .vshr o => causeOf (o.m != 0) false
  | .vsar o => causeOf (o.m != 0) false
  | .vrot o => causeOf (o.m != 0) false
  | .vbfx _ _ pos lenm1 _ => causeOf (decide (32 < pos.toNat + lenm1.toNat + 1)) false
  | .vbfi _ _ pos lenm1 => causeOf (decide (32 < pos.toNat + lenm1.toNat + 1)) false
  | .vandVi o => causeOf (o.m != 0) false
  | .vorVi o => causeOf (o.m != 0) false
  | .vxorVi o => causeOf (o.m != 0) false
  | .vshlVi o => causeOf (o.m != 0) false
  | .vshrVi o => causeOf (o.m != 0) false
  | .vsarVi o => causeOf (o.m != 0) false
  | .vminVi o => causeOf (o.m.getLsbD 1) false
  | .vmaxVi o => causeOf (o.m.getLsbD 1) false
  | .vli _ _ m => causeOf (m.getLsbD 1) false
  | .vaddVs o => causeOf false (noScalar o.b)
  | .vsubVs o => causeOf false (noScalar o.b)
  | .vmulVs o => causeOf false (noScalar o.b)
  | .vandVs o => causeOf (o.m != 0) (noScalar o.b)
  | .vorVs o => causeOf (o.m != 0) (noScalar o.b)
  | .vxorVs o => causeOf (o.m != 0) (noScalar o.b)
  | .vshlVs o => causeOf (o.m != 0) (noScalar o.b)
  | .vshrVs o => causeOf (o.m != 0) (noScalar o.b)
  | .vsarVs o => causeOf (o.m != 0) (noScalar o.b)
  | .vminVs o => causeOf (o.m.getLsbD 1) (noScalar o.b)
  | .vmaxVs o => causeOf (o.m.getLsbD 1) (noScalar o.b)
  | .vbcast _ s => causeOf false (noScalar s)
  | .vbcasth _ s => causeOf false (noScalar s)
  | .vcmp o => wfCmp o false
  | .vcmpVi o => wfCmp o false
  | .vcmpVs o => wfCmp o true
  | .vfcmp o => causeOf (o.m != 0 || decide (8 ≤ o.cond.toNat)) (noPred o.pd)
  | .vpand o => wfVq o
  | .vpor o => wfVq o
  | .vpxor o => wfVq o
  | .vpnot pd pa _ => causeOf false (noPred pd || noPred pa)
  | .vptst pd _ => causeOf false (noPred pd)
  | .vptov _ p => causeOf false (noPred p)
  | .vsel _ _ _ p _ => causeOf false (noPred p)
  | .vcvt d a x => wfCvt d a x
  | .vpack d _ t _ => wfPack t d
  | .vunpk _ a t _ => wfPack t a
  | .vsxt _ _ w => causeOf (w == 0 || decide (32 < w.toNat)) false
  | .vzxt _ _ w => causeOf (w == 0 || decide (32 < w.toNat)) false
  | .vgets _ sel => causeOf (decide (8 ≤ sel.toNat)) false
  | .vfmin o => causeOf (o.m == 1) false
  | .vfmax o => causeOf (o.m == 1) false
  | .vfabs o => causeOf (o.m == 1) false
  | .vfneg o => causeOf (o.m == 1) false
  | .vfrcp o => causeOf (o.m == 1) false
  | .vfrsq o => causeOf (o.m == 1) false
  | .vfexp2 o => causeOf (o.m == 1) false
  | .vflog2 o => causeOf (o.m == 1) false
  | .vfcvt _ _ x => wfFcvt x
  | .vqxch _ _ b width => causeOf (decide (7 ≤ b.toNat) || widthReserved width) false
  | .vshfl _ _ _ width => causeOf (widthReserved width) false
  | .vshflVi _ _ b width => causeOf (decide (64 ≤ b.toNat) || widthReserved width) false
  | .vshflVs _ _ b width => causeOf (widthReserved width) (noScalar b)
  | .vshflup _ _ b width => causeOf (decide (64 ≤ b.toNat) || widthReserved width) false
  | .vshfldn _ _ b width => causeOf (decide (64 ≤ b.toNat) || widthReserved width) false
  | .vshflx _ _ b width => causeOf (decide (64 ≤ b.toNat) || widthReserved width) false
  | .vvote cond pd p _ width => causeOf (decide (4 ≤ cond.toNat) || widthReserved width) (noPred pd || noPred p)
  | .vballot d width p _ => causeOf (widthReserved (some width)) (noPred p || d.getLsbD 0)
  | .vwred _ _ width op _ => causeOf (widthReserved (some width) || decide (13 ≤ op.toNat)) false
  | .vld o x => wfLoad o x
  | .vst o x => wfStore o x
  | .vldu o x => wfLoad o x
  | .vstu o x => wfStore o x
  | .vlds o x => wfLoad o x
  | .vsts o x => wfSpStore o x
  | .vldx o x => wfLoad o x
  | .vstx o x => wfSpStore o x
  | .vldf o x => wfFe true o x
  | .vste o x => wfFe false o x
  | .vldc o count _ => causeOf (count == 0 || loadMReserved o) (oddPair o)
  | .vstn o x => causeOf (o.m != 0 || !o.size.getLsbD 1 || memXReserved x || acqOrder x) (oddPair o)
  | .vred o x => causeOf (!o.size.getLsbD 1 || (o.m == 3 && o.size == 3) || memXReserved x || acqOrder x) (oddPair o)
  | .vpfl o x => causeOf (o.d != 0 || o.m == 3 || memXReserved x) false
  | .vaadd o x => wfAtomic false o x
  | .vamin o x => wfAtomic true o x
  | .vamax o x => wfAtomic true o x
  | .vaand o x => wfAtomic false o x
  | .vaor o x => wfAtomic false o x
  | .vaxor o x => wfAtomic false o x
  | .vaxch o x => wfAtomic false o x
  | .vacas d _ b x => wfCas d b x
  | .vbadd o x => wfAtomic false o x
  | .vbmin o x => wfAtomic true o x
  | .vbmax o x => wfAtomic true o x
  | .vband o x => wfAtomic false o x
  | .vbor o x => wfAtomic false o x
  | .vbxor o x => wfAtomic false o x
  | .vbxch o x => wfAtomic false o x
  | .vbcas d _ b x => wfCas d b x
  | .vmma o => causeOf (o.kc == 0 || decide (32 < o.kc.toNat)) false
  | .vmss o => causeOf (o.kc == 0 || decide (32 < o.kc.toNat) || o.fuse) false
  | .vaccrd o => causeOf (decide (64 < o.col.toNat + o.nm1.toNat + 1)) (decide (255 < o.v.toNat + o.nm1.toNat))
  | .vaccwr o => causeOf (decide (64 < o.col.toNat + o.nm1.toNat + 1)) (decide (255 < o.v.toNat + o.nm1.toNat))
  | .vaccq _ _ _ col _ _ => causeOf (decide (60 < col.toNat)) false
  | .vfmtld _ a b => causeOf false (noScalar a || noScalar b)
  | .vecpy o _ _ fe => wfEng o (fe == 3)
  | .vefill o _ _ => wfEng o (o.x != 0)
  | .vered o op type => wfEng o (!redTypeOk op type)
  | .vepkt o t ctr => wfEng o (o.z != 0 || (!t && (o.x != 0 || ctr != 0)))
  | .veblkGet o => wfEng o false
  | .veblkPut o => wfEng o false
  | .veblkFlush o => wfEng o (o.x != 0 || o.y != 0 || o.z != 0)
  | .illegalInstruction cause => causeOf (decide (cause = 0) || decide (9 < cause)) false
  | .gxLaunch _ _ _ | .gxReplay _ _ | .snop _ | .sadd _ _ _ | .ssub _ _ _
  | .smul _ _ _ | .smulh _ _ _ | .sand _ _ _ | .sor _ _ _ | .sxor _ _ _
  | .sshl _ _ _ | .sshr _ _ _ | .ssar _ _ _ | .smin _ _ _ | .smax _ _ _
  | .sslt _ _ _ | .sminn _ _ _ | .smaxn _ _ _ | .saddSi _ _ _ | .sandSi _ _ _
  | .sorSi _ _ _ | .sxorSi _ _ _ | .sshlSi _ _ _ | .sshrSi _ _ _ | .ssarSi _ _ _
  | .ssltSi _ _ _ | .sli _ _ | .slsh _ _ | .sld _ _ _ | .sst _ _ _
  | .ssltn _ _ _ | .sbra _ | .scall _ | .sret | .sbrx _
  | .sexit | .sregang | .sfork _ _ _ | .sjoin | .sgwalk _ _
  | .strap _ | .ssysNclr _ | .ssysTret | .ssysCtxid _ | .smwait _
  | .smonarm _ | .smonwait _ _ | .snnew _ _ _ | .sndel _ _ | .sncas _ _ _
  | .vnop _ | .vadd _ | .vsub _ | .vmul _ | .vabs _
  | .vmad _ | .vsad _ | .vnot _ _ | .vclz _ _ | .vpopc _ _
  | .vbrev _ _ | .vaddVi _ | .vmulVi _ | .vmov _ _ | .vlea _
  | .vfadd _ | .vfsub _ | .vfmul _ | .vfma _ | .vfsqrt _
  | .vaccz _ | .auxPowerGood | .mainPowerGood | .mainPowerLoss | .auxPowerLoss
  | .residentOsReady | .warmResetApply | .fatalMachineCheck | .hostctlWrst | .readBbhead
  | .readBlackBoxRecord | .readRepairMapRecord | .readSectorMetadata | .writeInjectorWords | .requestWarmReset
  | .readModstat | .pldmSensorRead | .pldmFirmwareUpdate | .spdmMeasurement | .cxlMemWrite
  | .cxlMemRead | .clockAdjust | .registerWrite | .faultEntryFree | .fbstatDroppedClear
  | .interruptClaim | .namePortLook | .namePortLookHold | .namePortRelease | .namePortNew
  | .namePortDelete | .namePortCas | .injectorWrite | .injectorRelease | .linkTransmit
  | .linkResend | .linkLaneSwap | .linkRetrain | .patrolScrub | .blockDispatch
  | .preemptVictim | .preemptComplete | .gridCompletion | .donationStart | .donationEnd
  | .contextRemoval | .graphNodeStart | .graphNodeComplete | .headerWaitEnd | .ageingCounterSaturate
  | .stackRotation | .convergenceTrap | .regcacheFill | .loadDataReturn | .storePerformed
  | .postedWriteAck | .scratchpadRemoteReply | .feWaitComplete | .monwaitTimeout | .fenceComplete
  | .releaseQueryReply | .releaseQueryResend | .homeArrivalQuery | .barrierArrival | .checkpoint
  | .mmaStart | .mmaComplete | .batchComplete | .selfTestProduct | .auditReplay
  | .engineHandover | .engineSegmentStart | .engineCommandComplete | .engineChunkBoundary | .epktLocalCompletion
  | .packetReceive | .prop | .ack | .nak | .release
  | .commit | .done | .rds | .rdx | .tok
  | .tkd | .wbk | .prq | .pdq | .pac
  | .pda | .pnd | .cnq | .cnr | .rcr
  | .transientTimerExpiry | .eviction | .homePostedWrite | .persistentRequest5us | .censusStart
  | .censusRound2 | .discardEntryExpire | .censusDeferredStart | .blockStateError | .flashWriteComplete
  | .nameOpComplete | .remoteBankAccess | .hartMemoryAccess | .perstChange => none

end Sys2Proof
end

