-- ==== Sys2Proof/Machine/Num.lean ====
section
/-! DEFINITION. The sixteen element types (R53 to R59), exact values, rounding (R60) and the conversions (R61 to R65).
A float value is exact: a sign and a natural number times a power of two. Nothing rounds but `roundTo`. -/

namespace Sys2Proof.Machine

/-! ### NSTAT flags (R66) -/

/-- The six sticky flags of NSTAT as one mask: INV 0, OVF 1, SAT 2, TRES 3, IOVF 4, SCNAN 5. -/
abbrev NumFlags := BitVec 6

def nfInv : NumFlags := 1
def nfOvf : NumFlags := 2
def nfSat : NumFlags := 4
def nfTres : NumFlags := 8
def nfIovf : NumFlags := 16
def nfScnan : NumFlags := 32

/-- The flag when the condition holds. -/
def flagIf (c : Bool) (f : NumFlags) : NumFlags := if c then f else 0

/-! ### Float formats (R54) -/

/-- How a format spends its highest exponent. -/
inductive Specials where
  /-- Infinities and NaNs as in IEEE 754 (F8B, BF16, FP16, FP32). -/
  | ieee
  /-- No infinity, one NaN magnitude, all ones (F8A). -/
  | oneNan
  /-- Neither (F6, F4). -/
  | finite
deriving DecidableEq, Repr, Inhabited

/-- A row of the table of R54: exponent bits, significand bits, bias, special values. -/
structure FloatFmt where
  e : Nat
  m : Nat
  bias : Nat
  specials : Specials
deriving DecidableEq, Repr, Inhabited

def fmtF8A : FloatFmt := ⟨4, 3, 7, .oneNan⟩
def fmtF8B : FloatFmt := ⟨5, 2, 15, .ieee⟩
def fmtF6 : FloatFmt := ⟨3, 2, 3, .finite⟩
def fmtF4 : FloatFmt := ⟨2, 1, 1, .finite⟩
def fmtBF16 : FloatFmt := ⟨8, 7, 127, .ieee⟩
def fmtFP16 : FloatFmt := ⟨5, 10, 15, .ieee⟩
def fmtFP32 : FloatFmt := ⟨8, 23, 127, .ieee⟩

/-- The format of a float type code (R53); FP32 for a code that is no float. -/
def fmtOf (t : BitVec 4) : FloatFmt :=
  match t.toNat with
  | 0 => fmtF8A | 1 => fmtF8B | 2 => fmtF6 | 3 => fmtF4 | 4 => fmtBF16 | 5 => fmtFP16 | _ => fmtFP32

/-- Width of a format in bits. -/
def FloatFmt.width (f : FloatFmt) : Nat := 1 + f.e + f.m

/-- An exact float value: not a number, an infinity, or (−1)^neg × mant × 2^exp. -/
inductive FVal where
  | nan
  | inf (neg : Bool)
  | fin (neg : Bool) (mant : Nat) (exp : Int)
deriving DecidableEq, Repr, Inhabited

def FVal.isNan : FVal → Bool
  | .nan => true
  | _ => false

def FVal.isInf : FVal → Bool
  | .inf _ => true
  | _ => false

def FVal.isZero : FVal → Bool
  | .fin _ 0 _ => true
  | _ => false

/-- The sign of a value; `false` for a NaN. -/
def FVal.sign : FVal → Bool
  | .nan => false
  | .inf n => n
  | .fin n _ _ => n

def FVal.neg : FVal → FVal
  | .nan => .nan
  | .inf n => .inf (!n)
  | .fin n m e => .fin (!n) m e

/-- The exact value of an encoding (R54, R55). -/
def FloatFmt.decode (f : FloatFmt) (w : Nat) : FVal :=
  let s := bitOf w (f.e + f.m)
  let ex := bitsOf w f.m f.e
  let m := bitsOf w 0 f.m
  let top := 2 ^ f.e - 1
  let special := match f.specials with
    | .ieee => ex == top
    | .oneNan => ex == top && m == 2 ^ f.m - 1
    | .finite => false
  if special then (if f.specials == .ieee && m == 0 then .inf s else .nan)
  else if ex == 0 then .fin s m (1 - (f.bias : Int) - f.m)
  else .fin s (2 ^ f.m + m) ((ex : Int) - f.bias - f.m)

/-- The canonical NaN (R54); +0 for a format with none (R61). -/
def FloatFmt.canonicalNan (f : FloatFmt) : Nat :=
  match f.specials with
  | .ieee => (2 ^ f.e - 1) * 2 ^ f.m + 2 ^ (f.m - 1)
  | .oneNan => 2 ^ (f.e + f.m) - 1
  | .finite => 0

/-- The largest finite magnitude's encoding without its sign (R54). -/
def FloatFmt.largest (f : FloatFmt) : Nat :=
  match f.specials with
  | .ieee => (2 ^ f.e - 1) * 2 ^ f.m - 1
  | .oneNan => 2 ^ (f.e + f.m) - 2
  | .finite => 2 ^ (f.e + f.m) - 1

/-- Infinity's encoding without its sign (formats with infinities). -/
def FloatFmt.infinity (f : FloatFmt) : Nat := (2 ^ f.e - 1) * 2 ^ f.m

/-- A magnitude with its sign bit. -/
def FloatFmt.withSign (f : FloatFmt) (neg : Bool) (mag : Nat) : Nat := mag + boolNat neg * 2 ^ (f.e + f.m)

/-- `n` times 2^e as a natural number when it is one: e is at least 0. -/
def shiftUp (n : Nat) (e : Int) : Nat := n * 2 ^ e.toNat

/-- Round a positive magnitude mant × 2^exp, plus something below one unit of `mant` when `sticky`, to a multiple of
2^q: the multiple's count (R60, both modes). -/
def roundAt (rtz sticky : Bool) (mant : Nat) (exp q : Int) : Nat :=
  if q ≤ exp then shiftUp mant (exp - q)
  else
    let k := (q - exp).toNat
    let n := mant / 2 ^ k
    let r := 2 * (mant % 2 ^ k)
    let up := !rtz && (decide (2 ^ k < r) || (r == 2 ^ k && (sticky || n % 2 == 1)))
    n + boolNat up

/-- A magnitude over the largest finite value (R60). -/
def FloatFmt.overflow (f : FloatFmt) (rtz neg : Bool) : Nat :=
  f.withSign neg (if f.specials == .ieee && !rtz then f.infinity else f.largest)

/-- One rounding of an exact nonzero magnitude into a format, with OVF (R60). The exponent range is unbounded until
the rounded magnitude is compared with the largest finite value. -/
def FloatFmt.roundMag (f : FloatFmt) (rtz neg sticky : Bool) (mant : Nat) (exp : Int) : Nat × NumFlags :=
  let top : Int := exp + (Nat.log2 mant : Int)
  let qmin : Int := 1 - (f.bias : Int) - f.m
  if mant = 0 then (f.withSign neg 0, 0)
  else if top + 2 ≤ qmin then (f.withSign neg 0, 0)
  else
    let q := max (top - f.m) qmin
    let n0 := roundAt rtz sticky mant exp q
    let n := if n0 = 2 ^ (f.m + 1) then 2 ^ f.m else n0
    let q1 := if n0 = 2 ^ (f.m + 1) then q + 1 else q
    if n = 0 then (f.withSign neg 0, 0)
    else if n < 2 ^ f.m then (f.withSign neg n, 0)
    else
      let ex : Int := q1 + f.m + f.bias
      let mag := ex.toNat * 2 ^ f.m + (n - 2 ^ f.m)
      if f.largest < mag then (f.overflow rtz neg, nfOvf) else (f.withSign neg mag, 0)

/-- One rounding of a value under R60, special values under R55, for a format of arithmetic. -/
def FloatFmt.round (f : FloatFmt) (rtz : Bool) : FVal → Nat × NumFlags
  | .nan => (f.canonicalNan, 0)
  | .inf n => (f.withSign n f.infinity, 0)
  | .fin n m e => f.roundMag rtz n false m e

/-- A value into a format as a conversion does it (R61): NaN and infinities as the table gives them. -/
def FloatFmt.convert (f : FloatFmt) (rtz : Bool) : FVal → Nat × NumFlags
  | .nan => (f.canonicalNan, flagIf (f.specials == .finite) nfInv)
  | .inf n => if f.specials == .ieee then (f.withSign n f.infinity, 0) else (f.withSign n f.largest, nfOvf)
  | .fin n m e => f.roundMag rtz n false m e

/-! ### Integers -/

/-- The least value of an integer type of `w` bits (R56). -/
def intLo (isSigned : Bool) (w : Nat) : Int := if isSigned then -((2 ^ (w - 1) : Nat) : Int) else 0

/-- The greatest value of an integer type of `w` bits (R56). -/
def intHi (isSigned : Bool) (w : Nat) : Int := if isSigned then ((2 ^ (w - 1) : Nat) : Int) - 1 else ((2 ^ w : Nat) : Int) - 1

/-- An exact integer fitted to a width (R64, R80): clamped with SAT, or modulo 2^w. -/
def fitInt (sat isSigned : Bool) (w : Nat) (x : Int) : Nat × NumFlags :=
  if sat && decide (x < intLo isSigned w) then (wrap w (intLo isSigned w), nfSat)
  else if sat && decide (intHi isSigned w < x) then (wrap w (intHi isSigned w), nfSat)
  else (wrap w x, 0)

/-- Codes 8 to 11 are signed, 12 to 15 unsigned (R53). -/
def isSignedCode (t : BitVec 4) : Bool := t.toNat < 12

/-- The value of a T2 code, and TRES for the reserved one (R57). -/
def decodeT2 (c : Nat) : Int × NumFlags :=
  match c % 4 with
  | 0 => (0, 0)
  | 1 => (1, 0)
  | 3 => (-1, 0)
  | _ => (0, nfTres)

/-- The T2 code of a sign (R57, R65). -/
def encodeT2 (x : Int) : Nat := if x = 0 then 0 else if x < 0 then 3 else 1

/-- The value of an integer or T2 element. -/
def intElement (t : BitVec 4) (w : Nat) : Int × NumFlags :=
  if t.toNat = 7 then decodeT2 w
  else if isSignedCode t then (signed (typeBits t) w, 0) else (((w % 2 ^ typeBits t : Nat) : Int), 0)

/-- A float value rounded to an integer (R62 step 1). -/
def roundToInt (rtz : Bool) (neg : Bool) (mant : Nat) (exp : Int) : Int :=
  let top : Int := exp + (Nat.log2 mant : Int)
  let n := if mant = 0 ∨ top < -1 then 0 else roundAt rtz false mant exp 0
  if neg then -(n : Int) else (n : Int)

/-- A float value to an integer type (R62). -/
def floatToInt (rtz sat isSigned : Bool) (w : Nat) : FVal → Nat × NumFlags
  | .nan => (0, nfInv)
  | .inf neg => if sat then (wrap w (if neg then intLo isSigned w else intHi isSigned w), nfSat) else (0, nfInv)
  | .fin neg m e => fitInt sat isSigned w (roundToInt rtz neg m e)

/-- A value to T2 (R65). -/
def floatToT2 : FVal → Nat × NumFlags
  | .nan => (0, nfInv)
  | .inf neg => (if neg then 3 else 1, 0)
  | .fin _ 0 _ => (0, 0)
  | .fin neg _ _ => (if neg then 3 else 1, 0)

/-- An exact integer as a float value; zero is +0. -/
def FVal.ofInt (x : Int) : FVal := .fin (decide (x < 0)) x.natAbs 0

/-- One element converted (R61 to R65). A copy of a float type gives the canonical NaN for a NaN (R102). -/
def convertElement (dt st : BitVec 4) (sat rtz : Bool) (w : Nat) : Nat × NumFlags :=
  if isFloatCode st then
    let v := (fmtOf st).decode w
    if isFloatCode dt then
      if dt = st then (if v.isNan then (fmtOf dt).canonicalNan else w % 2 ^ typeBits dt, 0) else (fmtOf dt).convert rtz v
    else if dt.toNat = 7 then floatToT2 v
    else floatToInt rtz sat (isSignedCode dt) (typeBits dt) v
  else
    let (x, fl) := intElement st w
    let (y, fl') :=
      if isFloatCode dt then (fmtOf dt).convert rtz (FVal.ofInt x)
      else if dt.toNat = 7 then (encodeT2 x, 0)
      else fitInt sat (isSignedCode dt) (typeBits dt) x
    (y, fl ||| fl')

end Sys2Proof.Machine
end

