-- ==== Sys2Proof/Machine/NumOps.lean ====
section
/-! DEFINITION. Floating-point arithmetic (R98 to R101): exact results, rounded once. FEXP2 and FLOG2 are rounded from
an enclosure of 256 fraction bits. -/

namespace Sys2Proof.Machine

/-! ### Exact sums and products -/

/-- An exact value with the NSTAT flags its forming sets. -/
abbrev Flagged := FVal × NumFlags

/-- A signed exact integer times 2^e as a value; an exact zero takes the given sign. -/
def FVal.ofScaled (zeroNeg : Bool) (x : Int) (e : Int) : FVal :=
  if x = 0 then .fin zeroNeg 0 e else .fin (decide (x < 0)) x.natAbs e

/-- The signed mantissa of a finite value, brought to exponent `e` at or below its own. -/
def scaledMant (neg : Bool) (m : Nat) (exp e : Int) : Int :=
  let n := shiftUp m (exp - e)
  if neg then -(n : Int) else (n : Int)

/-- The exact sum of two finite values: an exact zero is −0 only when both addends are −0 (R99). -/
def finAdd (na : Bool) (ma : Nat) (ea : Int) (nb : Bool) (mb : Nat) (eb : Int) : FVal :=
  if ma = 0 ∧ mb = 0 then .fin (na && nb) 0 0
  else if ma = 0 then .fin nb mb eb
  else if mb = 0 then .fin na ma ea
  else
    let e := min ea eb
    FVal.ofScaled false (scaledMant na ma ea e + scaledMant nb mb eb e) e

/-- a + b (R99): INV when infinities of opposite signs meet. -/
def fAdd : FVal → FVal → Flagged
  | .nan, _ => (.nan, 0)
  | _, .nan => (.nan, 0)
  | .inf a, .inf b => if a = b then (.inf a, 0) else (.nan, nfInv)
  | .inf a, .fin _ _ _ => (.inf a, 0)
  | .fin _ _ _, .inf b => (.inf b, 0)
  | .fin na ma ea, .fin nb mb eb => (finAdd na ma ea nb mb eb, 0)

/-- a − b (R99). A NaN b keeps no sign to invert. -/
def fSub (a b : FVal) : Flagged := fAdd a b.neg

/-- a × b exactly (R99): INV for 0 × ∞. -/
def fMul : FVal → FVal → Flagged
  | .nan, _ => (.nan, 0)
  | _, .nan => (.nan, 0)
  | .inf a, .inf b => (.inf (a != b), 0)
  | .inf a, .fin n m _ => if m = 0 then (.nan, nfInv) else (.inf (a != n), 0)
  | .fin n m _, .inf b => if m = 0 then (.nan, nfInv) else (.inf (n != b), 0)
  | .fin na ma ea, .fin nb mb eb => (.fin (na != nb) (ma * mb) (ea + eb), 0)

/-- c + a × b exactly (R99). Any NaN input gives a NaN and no flag. -/
def fMulAdd (c a b : FVal) : Flagged :=
  if c.isNan || a.isNan || b.isNan then (.nan, 0)
  else
    let (p, f) := fMul a b
    let (r, g) := fAdd c p
    (r, f ||| g)

/-- An exact value rounded, its flags joined with the rounding's. -/
def roundFlagged (f : FloatFmt) (rtz : Bool) (x : Flagged) : Nat × NumFlags :=
  let (w, g) := f.round rtz x.1
  (w, x.2 ||| g)

/-! ### Order (R91, R100) -/

/-- a < b for values that are not NaN; zeros are equal. -/
def fLt : FVal → FVal → Bool
  | .nan, _ => false
  | _, .nan => false
  | .inf a, .inf b => a && !b
  | .inf a, .fin _ _ _ => a
  | .fin _ _ _, .inf b => !b
  | .fin na ma ea, .fin nb mb eb =>
    let e := min ea eb
    decide (scaledMant na ma ea e < scaledMant nb mb eb e)

/-- a = b for values that are not NaN; +0 equals −0. -/
def fEq (a b : FVal) : Bool := !a.isNan && !b.isNan && !fLt a b && !fLt b a

/-- a orders before b in FMIN and FMAX: −0 is below +0 (R100). -/
def fBelow (a b : FVal) : Bool := fLt a b || (a.isZero && b.isZero && a.sign && !b.sign)

/-- FMIN (`least`) or FMAX of two encodings (R100). -/
def fMinMax (f : FloatFmt) (least : Bool) (x y : Nat) : Nat :=
  let a := f.decode x
  let b := f.decode y
  if a.isNan && b.isNan then f.canonicalNan
  else if a.isNan then y
  else if b.isNan then x
  else if fBelow a b == least then x else y

/-- FABS or FNEG of an encoding (R100). -/
def fSignOp (f : FloatFmt) (abs : Bool) (x : Nat) : Nat :=
  if (f.decode x).isNan then f.canonicalNan
  else f.withSign (!abs && !bitOf x (f.e + f.m)) (x % 2 ^ (f.e + f.m))

/-! ### Quotients and roots (R101) -/

/-- 1 ÷ a. -/
def fRcp (f : FloatFmt) : FVal → Nat × NumFlags
  | .nan => (f.canonicalNan, 0)
  | .inf n => (f.withSign n 0, 0)
  | .fin n m e =>
    if m = 0 then (f.withSign n f.infinity, 0)
    else f.roundMag false n (2 ^ 96 % m != 0) (2 ^ 96 / m) (-e - 96)

/-- The mantissa and even exponent of a positive value. -/
def evenExp (m : Nat) (e : Int) : Nat × Int := if e % 2 = 0 then (m, e) else (2 * m, e - 1)

/-- √a under either rounding. -/
def fSqrt (f : FloatFmt) (rtz : Bool) : FVal → Nat × NumFlags
  | .nan => (f.canonicalNan, 0)
  | .inf n => if n then (f.canonicalNan, nfInv) else (f.infinity, 0)
  | .fin n m e =>
    if m = 0 then (f.withSign n 0, 0)
    else if n then (f.canonicalNan, nfInv)
    else
      let (m2, e2) := evenExp m e
      let x := m2 * 2 ^ 64
      let r := isqrt 48 x
      f.roundMag rtz false (r * r != x) r (e2 / 2 - 32)

/-- 1 ÷ √a. -/
def fRsq (f : FloatFmt) : FVal → Nat × NumFlags
  | .nan => (f.canonicalNan, 0)
  | .inf n => if n then (f.canonicalNan, nfInv) else (0, 0)
  | .fin n m e =>
    if m = 0 then (f.withSign n f.infinity, 0)
    else if n then (f.canonicalNan, nfInv)
    else
      let (m2, e2) := evenExp m e
      let r := isqrt 81 (2 ^ 160 / m2)
      f.roundMag false false (r * r * m2 != 2 ^ 160) r (-(e2 / 2) - 80)

/-! ### Enclosures of 2^x and log₂ x

Numbers in [0, 4) are held as multiples of 2^−256, a lower and an upper bound. -/

/-- A lower and an upper bound, as counts of 2^−256. -/
abbrev Encl := Nat × Nat

def enclOne : Nat := 2 ^ 256

/-- The product of two enclosures. -/
def enclMul (a b : Encl) : Encl := (a.1 * b.1 / enclOne, a.2 * b.2 / enclOne + 1)

/-- Σ z^(2k+1) ÷ (2k+1), summed for `n` terms from `k`, `p` enclosing z^(2k+1) and `zz` z²; z ≤ 1/3. -/
def atanhTerms : Nat → Nat → Encl → Encl → Encl
  | 0, _, _, _ => (0, 1)
  | n + 1, k, p, zz =>
    let rest := atanhTerms n (k + 1) (enclMul p zz) zz
    (p.1 / (2 * k + 1) + rest.1, p.2 / (2 * k + 1) + 1 + rest.2)

/-- Twice the inverse hyperbolic tangent of num ÷ den ≤ 1/3: the natural logarithm of (den + num) ÷ (den − num). -/
def enclLnRatio (num den : Nat) : Encl :=
  let z : Encl := (num * enclOne / den, num * enclOne / den + 1)
  let a := atanhTerms 84 0 z (enclMul z z)
  (2 * a.1, 2 * a.2)

/-- The natural logarithm of 2. -/
def enclLn2 : Encl := enclLnRatio 1 3

/-- Σ x^k ÷ k! from term `k` for `n` terms, `p` enclosing the term x^k ÷ k!; x < 1. -/
def expTerms : Nat → Nat → Encl → Encl → Encl
  | 0, _, p, _ => (0, 2 * p.2 + 1)
  | n + 1, k, p, x =>
    let q := enclMul p x
    let rest := expTerms n (k + 1) (q.1 / (k + 1), q.2 / (k + 1) + 1) x
    (p.1 + rest.1, p.2 + rest.2)

/-- 2^(num ÷ 2^k) for num < 2^k. -/
def enclExp2 (num k : Nat) : Encl :=
  let y : Encl := (num * enclOne / 2 ^ k, num * enclOne / 2 ^ k + 1)
  expTerms 64 0 (enclOne, enclOne) (enclMul y enclLn2)

/-- Round an enclosed positive magnitude times 2^e: the common rounding of both ends, else the free value. -/
def roundEncl (op : Nat) (f : FloatFmt) (neg : Bool) (w : Nat) (x : Encl) (e : Int) : Nat × NumFlags :=
  let a := f.roundMag false neg true x.1 (e - 256)
  let b := f.roundMag false neg true x.2 (e - 256)
  if a = b then a else (Config.hardFloat op f.width w % 2 ^ f.width, 0)

/-- FEXP2 of an encoding (R101). -/
def fExp2 (f : FloatFmt) (w : Nat) : Nat × NumFlags :=
  match f.decode w with
  | .nan => (f.canonicalNan, 0)
  | .inf n => if n then (0, 0) else (f.infinity, 0)
  | .fin n m e =>
    if m = 0 then f.roundMag false false false 1 0
    else if 16 ≤ e + (Nat.log2 m : Int) then (if n then (0, 0) else (f.infinity, nfOvf))
    else if 0 ≤ e then f.roundMag false false false 1 (if n then -(shiftUp m e : Int) else shiftUp m e)
    else
      let k := (-e).toNat
      let up := m / 2 ^ k
      let r := m % 2 ^ k
      if r = 0 then f.roundMag false false false 1 (if n then -(up : Int) else up)
      else if n then roundEncl 0 f false w (enclExp2 (2 ^ k - r) k) (-(up : Int) - 1)
      else roundEncl 0 f false w (enclExp2 r k) up

/-- FLOG2 of an encoding (R101): a = 2^g × c with 1 ≤ c < 2, the logarithm g + log₂ c. -/
def fLog2 (f : FloatFmt) (w : Nat) : Nat × NumFlags :=
  match f.decode w with
  | .nan => (f.canonicalNan, 0)
  | .inf n => if n then (f.canonicalNan, nfInv) else (f.infinity, 0)
  | .fin n m e =>
    if m = 0 then (f.withSign true f.infinity, 0)
    else if n then (f.canonicalNan, nfInv)
    else
      let t := Nat.log2 m
      let g : Int := e + t
      let one := 2 ^ t
      if m = one then f.round false (FVal.ofInt g)
      else
        let ln := enclLnRatio (m - one) (m + one)
        let lo := ln.1 * enclOne / enclLn2.2
        let hi := ln.2 * enclOne / enclLn2.1 + 1
        if 0 ≤ g then roundEncl 1 f false w (g.toNat * enclOne + lo, g.toNat * enclOne + hi) 0
        else roundEncl 1 f true w ((-g).toNat * enclOne - hi, (-g).toNat * enclOne - lo) 0

/-! ### Lane forms: one FP32, or two packed FP16 or BF16 values (R98) -/

/-- The format that m selects and how many elements a lane holds. -/
def laneFmt (m : BitVec 2) : FloatFmt :=
  match m.toNat with
  | 2 => fmtFP16
  | 3 => fmtBF16
  | _ => fmtFP32

/-- A function of one element applied to each element of a lane. -/
def laneMap1 (m : BitVec 2) (op : FloatFmt → Nat → Nat × NumFlags) (a : Nat) : Nat × NumFlags :=
  if m.getLsbD 1 then
    let (x, f) := op (laneFmt m) (a % 2 ^ 16)
    let (y, g) := op (laneFmt m) (a / 2 ^ 16 % 2 ^ 16)
    (x + y * 2 ^ 16, f ||| g)
  else op fmtFP32 a

/-- A function of three elements applied to each element of a lane. -/
def laneMap3 (m : BitVec 2) (op : FloatFmt → Nat → Nat → Nat → Nat × NumFlags) (a b c : Nat) : Nat × NumFlags :=
  if m.getLsbD 1 then
    let (x, f) := op (laneFmt m) (a % 2 ^ 16) (b % 2 ^ 16) (c % 2 ^ 16)
    let (y, g) := op (laneFmt m) (a / 2 ^ 16 % 2 ^ 16) (b / 2 ^ 16 % 2 ^ 16) (c / 2 ^ 16 % 2 ^ 16)
    (x + y * 2 ^ 16, f ||| g)
  else op fmtFP32 a b c

/-- m = 01 selects `.rtz` (R98). -/
def laneRtz (m : BitVec 2) : Bool := m == 1

end Sys2Proof.Machine
end

