-- ==== Sys2Proof/WellFormed.lean ====
section
/-! DEFINITION. Which instructions are well formed: those whose fields pass every check of their entry. -/

namespace Sys2Proof

/-- An instruction is well formed when its fields raise no decode cause. -/
abbrev Instr.WellFormed (i : Instr) : Prop := i.cause = none

end Sys2Proof
end

