-- ==== Sys2Proof/Bundle.lean ====
section
/-! DEFINITION. What the decoder yields: a bundle of two slots under a guard (R38, R40), or the named reason why a
word is no instruction (R52). -/

namespace Sys2Proof

/-- Why a word is rejected; the cause numbers are those of R52. -/
inductive DecodeError where
  | guardFifteen
  | illegalOpcode
  | reserved
  | joinMismatch
  | scopeOnJoined
  | framing
  | badHeader
  | placement
  | noRegister
  | notHartCustom
deriving DecidableEq, Repr, Inhabited

/-- The cause number of R52 that the illegal-instruction trap reports; 0 for a hart word outside custom-0. -/
def DecodeError.code : DecodeError → Nat
  | .guardFifteen => 1
  | .illegalOpcode => 2
  | .reserved => 3
  | .joinMismatch => 4
  | .scopeOnJoined => 5
  | .framing => 6
  | .badHeader => 7
  | .placement => 8
  | .noRegister => 9
  | .notHartCustom => 0

/-- A decoded bundle word (R38). `scalar` is absent exactly in a joined bundle (R43). -/
structure Bundle where
  gsense : Bool
  gpred : BitVec 4
  gscope : Bool
  scalar : Option Instr
  vector : Instr
deriving DecidableEq, Repr, Inhabited

/-- One slot before the checks of R52: the instruction its fields spell, and which rules its bits break. -/
structure SlotDecode where
  instr : Instr
  illegal : Bool
  reserved : Bool
  join : Bool
deriving DecidableEq, Repr, Inhabited

end Sys2Proof
end

