-- ==== Sys2Proof/Decode.lean ====
section
/-! DEFINITION. The decoder and, after it, the encoder, both from the encoding tables of R36 to R48 and the entries.
Fields are cut from the word as a natural number; a word that is no instruction is rejected by name. -/

namespace Sys2Proof

/-! ### Field access -/

/-- The `n` bits of `w` from bit `lo` upward. -/
def fld (w lo n : Nat) : BitVec n := BitVec.ofNat n (w / 2 ^ lo)

/-- Bit `lo` of `w`. -/
def flag (w lo : Nat) : Bool := w / 2 ^ lo % 2 == 1

/-- The natural number of bits [lo + n - 1 : lo]. -/
def fnum (w lo n : Nat) : Nat := w / 2 ^ lo % 2 ^ n

/-- A slot whose fields spell `i` and break no rule by themselves. -/
def slotOk (i : Instr) : SlotDecode := ⟨i, false, false, false⟩

/-- A slot whose fields spell `i`; `unused` says whether a bit the instruction does not use is set (R44). -/
def slotIf (unused : Bool) (i : Instr) : SlotDecode := ⟨i, false, unused, false⟩

/-- A reserved opcode (R49). -/
def slotReserved : SlotDecode := ⟨.snop 0, false, true, false⟩

/-- An opcode that no part will assign (R49). -/
def slotIllegal : SlotDecode := ⟨.snop 0, true, false, false⟩

/-! ### The scalar slot (R41, R46) -/

/-- Reads the scalar slot from its opcode and its operand bits, numbered from bit 34 of the bundle. -/
def decodeScalar (sop x : Nat) : SlotDecode :=
  let d := fld x 12 6
  let a := fld x 6 6
  let b := fld x 0 6
  match sop with
  | 0x00 => slotOk (.snop (fld x 0 18))
  | 0x01 => slotOk (.sadd d a b)
  | 0x02 => slotOk (.ssub d a b)
  | 0x03 => slotOk (.smul d a b)
  | 0x04 => slotOk (.smulh d a b)
  | 0x05 => slotOk (.sand d a b)
  | 0x06 => slotOk (.sor d a b)
  | 0x07 => slotOk (.sxor d a b)
  | 0x08 => slotOk (.sshl d a b)
  | 0x09 => slotOk (.sshr d a b)
  | 0x0A => slotOk (.ssar d a b)
  | 0x0B => slotOk (.smin d a b)
  | 0x0C => slotOk (.smax d a b)
  | 0x0D => slotOk (.sslt d a b)
  | 0x0E => slotOk (.sminn d a b)
  | 0x0F => slotOk (.smaxn d a b)
  | 0x10 => slotOk (.saddSi d a b)
  | 0x11 => slotOk (.sandSi d a b)
  | 0x12 => slotOk (.sorSi d a b)
  | 0x13 => slotOk (.sxorSi d a b)
  | 0x14 => slotOk (.sshlSi d a b)
  | 0x15 => slotOk (.sshrSi d a b)
  | 0x16 => slotOk (.ssarSi d a b)
  | 0x17 => slotOk (.ssltSi d a b)
  | 0x18 => slotOk (.sli d (fld x 0 12))
  | 0x19 => slotOk (.slsh d (fld x 0 12))
  | 0x1A => slotOk (.sgets d (fld x 0 12))
  | 0x1B => slotOk (.sld d a b)
  | 0x1C => slotOk (.sst d a b)
  | 0x1D => slotOk (.ssltn d a b)
  | 0x1E => slotIf (fnum x 0 8 != 0) (.swaitc (fld x 15 3) (fld x 9 6) (flag x 8))
  | 0x1F =>
    if fnum x 16 2 == 2 then slotIf (fnum x 0 13 != 0) (.sfenceRel (fld x 13 3))
    else if fnum x 16 2 == 1 then slotIf (fnum x 0 13 != 0) (.sfenceAcq (fld x 13 3))
    else slotReserved
  | 0x20 => slotOk (.sbra (fld x 0 18))
  | 0x21 => slotOk (.scall (fld x 0 18))
  | 0x22 => slotIf (fnum x 0 18 != 0) .sret
  | 0x23 => slotIf (d != 0 || b != 0) (.sbrx a)
  | 0x24 => slotIf (fnum x 0 18 != 0) .sexit
  | 0x25 => slotIf (fnum x 0 18 != 0) .sregang
  | 0x26 => slotIf (fnum x 0 9 != 0) (.sbar d (fld x 9 3))
  | 0x27 => slotIf (fnum x 0 9 != 0) (.sbara d (fld x 9 3))
  | 0x28 => slotOk (.sfork d a b)
  | 0x29 => slotIf (fnum x 0 18 != 0) .sjoin
  | 0x2A => slotIf (b != 0) (.sgwalk d a)
  | 0x2B => slotIf (d != 0) (.strap (fld x 0 12))
  | 0x2C =>
    match fnum x 12 6 with
    | 0 => slotIf (b != 0) (.ssysNclr a)
    | 1 => slotIf (fnum x 0 12 != 0) .ssysTret
    | 2 => slotOk (.ssysTrd a b)
    | 3 => slotOk (.ssysTwr a b)
    | 4 => slotIf (b != 0) (.ssysCtxid a)
    | _ => slotReserved
  | 0x2D => slotIf (fnum x 0 2 != 0) (.smfence d (fld x 8 4) (flag x 7) (fld x 2 5))
  | 0x2E => slotIf (d != 0 || b != 0) (.smwait a)
  | 0x2F => slotIf (fnum x 0 12 != 0) (.smonarm d)
  | 0x30 => slotIf (b != 0) (.smonwait d a)
  | 0x31 =>
    match fnum x 4 2 with
    | 0 => slotIf (fnum x 0 4 != 0) (.snlook d a)
    | 1 => slotIf (fnum x 0 4 != 0) (.snlookHold d a)
    | 2 => slotIf (fnum x 0 4 != 0) (.snlookRelease d a)
    | _ => slotReserved
  | 0x32 => slotOk (.snnew d a b)
  | 0x33 => slotIf (b != 0) (.sndel d a)
  | 0x34 => slotOk (.sncas d a b)
  | 0x3E => slotIllegal
  | _ => slotReserved

/-! ### The vector slot (R42, R43, R47, R48) -/

/-- The VM operand fields (R42). -/
def vmOpOf (v : Nat) : VmOp := ⟨fld v 18 8, fld v 10 8, fld v 4 6, fld v 2 2, fld v 0 2⟩

/-- The memory extension (R43). -/
def memXOf (x : Nat) : MemX := ⟨fld x 16 2, fld x 13 3, fld x 0 13⟩

/-- The conversion extension (R95, R102). -/
def cvtXOf (x : Nat) : CvtX := ⟨fld x 14 4, fld x 10 4, fld x 6 4, flag x 5, flag x 4⟩

/-- The compare-and-swap extension (R127). -/
def casXOf (x : Nat) : CasX := ⟨fld x 12 6, fld x 10 2, fld x 8 2, fld x 5 3⟩

/-- The engine command layout (R171); P and Q follow per command. -/
def engOpOf (v x : Nat) : EngOp := ⟨fld x 12 6, fld x 8 4, fld v 18 8, fld v 10 8, fld v 2 8⟩

/-- A class-N instruction: XV is a join mismatch (R43). -/
def classN (x : Option Nat) (s : SlotDecode) : SlotDecode := { s with join := x.isSome }

/-- A class-J instruction: absent XV is a join mismatch (R43). `vecUnused` is judged on the vector slot alone. -/
def classJ (x : Option Nat) (vecUnused : Bool) (f : Nat → SlotDecode) : SlotDecode :=
  match x with
  | none => ⟨.vnop 0, false, vecUnused, true⟩
  | some e => { f e with reserved := vecUnused || (f e).reserved }

/-- A class-E memory instruction (R43). -/
def classMem (x : Option Nat) (f : Option MemX → Instr) : SlotDecode := slotOk (f (x.map memXOf))

/-- A class-E cross-lane instruction: extension bits [47:34] must be 0 (R43). -/
def classWidth (x : Option Nat) (unused : Bool) (f : Option (BitVec 4) → Instr) : SlotDecode :=
  match x with
  | none => slotIf unused (f none)
  | some e => slotIf (unused || fnum e 0 14 != 0) (f (some (fld e 14 4)))

/-- Reads the vector slot from its opcode, its 26 operand bits and, in a joined bundle, the extension. -/
def decodeVector (vop v : Nat) (x : Option Nat) : SlotDecode :=
  let d := fld v 18 8
  let a := fld v 10 8
  let b := fld v 2 8
  let m := fld v 0 2
  let v3 : V3Op := ⟨d, a, b, m⟩
  let vp : VpOp := ⟨fld v 22 4, fld v 18 4, a, b, m⟩
  let vq : VqOp := ⟨fld v 18 4, fld v 10 4, fld v 2 4, flag v 1, flag v 0⟩
  let vqBad : Bool := fnum v 22 4 != 0 || fnum v 14 4 != 0 || fnum v 6 4 != 0
  let bm : Bool := b != 0 || m != 0
  match vop with
  | 0x00 => classN x (slotOk (.vnop (fld v 0 26)))
  | 0x01 => classN x (slotOk (.vadd v3))
  | 0x02 => classN x (slotOk (.vsub v3))
  | 0x03 => classN x (slotOk (.vmul v3))
  | 0x04 => classN x (slotOk (.vmulh v3))
  | 0x05 => classN x (slotOk (.vmin v3))
  | 0x06 => classN x (slotOk (.vmax v3))
  | 0x07 => classN x (slotOk (.vabs v3))
  | 0x08 => classN x (slotOk (.vneg v3))
  | 0x09 => classN x (slotOk (.vmad v3))
  | 0x0A => classN x (slotOk (.vsad v3))
  | 0x10 => classN x (slotOk (.vand v3))
  | 0x11 => classN x (slotOk (.vor v3))
  | 0x12 => classN x (slotOk (.vxor v3))
  | 0x13 => classN x (slotIf bm (.vnot d a))
  | 0x14 => classN x (slotOk (.vandn v3))
  | 0x15 => classN x (slotOk (.vshl v3))
  | 0x16 => classN x (slotOk (.vshr v3))
  | 0x17 => classN x (slotOk (.vsar v3))
  | 0x18 => classN x (slotOk (.vrot v3))
  | 0x19 => classN x (slotIf bm (.vclz d a))
  | 0x1A => classN x (slotIf bm (.vpopc d a))
  | 0x1B => classN x (slotIf bm (.vbrev d a))
  | 0x1C => classJ x bm (fun e => slotIf (fnum e 0 7 != 0) (.vbfx d a (fld e 13 5) (fld e 8 5) (flag e 7)))
  | 0x1D => classJ x bm (fun e => slotIf (fnum e 0 8 != 0) (.vbfi d a (fld e 13 5) (fld e 8 5)))
  | 0x20 => classN x (slotOk (.vaddVi v3))
  | 0x21 => classN x (slotOk (.vmulVi v3))
  | 0x22 => classN x (slotOk (.vandVi v3))
  | 0x23 => classN x (slotOk (.vorVi v3))
  | 0x24 => classN x (slotOk (.vxorVi v3))
  | 0x25 => classN x (slotOk (.vshlVi v3))
  | 0x26 => classN x (slotOk (.vshrVi v3))
  | 0x27 => classN x (slotOk (.vsarVi v3))
  | 0x28 => classN x (slotOk (.vminVi v3))
  | 0x29 => classN x (slotOk (.vmaxVi v3))
  | 0x2A => classN x (slotIf (a != 0) (.vli d b m))
  | 0x30 => classN x (slotOk (.vaddVs v3))
  | 0x31 => classN x (slotOk (.vsubVs v3))
  | 0x32 => classN x (slotOk (.vmulVs v3))
  | 0x33 => classN x (slotOk (.vandVs v3))
  | 0x34 => classN x (slotOk (.vorVs v3))
  | 0x35 => classN x (slotOk (.vxorVs v3))
  | 0x36 => classN x (slotOk (.vshlVs v3))
  | 0x37 => classN x (slotOk (.vshrVs v3))
  | 0x38 => classN x (slotOk (.vsarVs v3))
  | 0x39 => classN x (slotOk (.vminVs v3))
  | 0x3A => classN x (slotOk (.vmaxVs v3))
  | 0x3B => classN x (slotIf (a != 0 || m != 0) (.vbcast d b))
  | 0x3C => classN x (slotIf (a != 0 || m != 0) (.vbcasth d b))
  | 0x40 => classN x (slotOk (.vcmp vp))
  | 0x41 => classN x (slotOk (.vcmpVi vp))
  | 0x42 => classN x (slotOk (.vcmpVs vp))
  | 0x43 => classN x (slotOk (.vfcmp vp))
  | 0x44 => classN x (slotIf vqBad (.vpand vq))
  | 0x45 => classN x (slotIf vqBad (.vpor vq))
  | 0x46 => classN x (slotIf vqBad (.vpxor vq))
  | 0x47 => classN x (slotIf (vqBad || fnum v 2 4 != 0 || flag v 0) (.vpnot (fld v 18 4) (fld v 10 4) (flag v 1)))
  | 0x48 => classN x (slotIf (fnum v 22 4 != 0 || bm) (.vptst (fld v 18 4) a))
  | 0x49 => classN x (slotIf (fnum v 14 4 != 0 || bm) (.vptov d (fld v 10 4)))
  | 0x4A => classJ x (m != 0) (fun e => slotIf (fnum e 0 13 != 0) (.vsel d a b (fld e 14 4) (flag e 13)))
  | 0x4B => classN x (slotIf bm (.vmov d a))
  | 0x50 => classJ x bm (fun e => slotIf (fnum e 0 4 != 0) (.vcvt d a (cvtXOf e)))
  | 0x51 => classN x (slotOk (.vlea v3))
  | 0x52 => classJ x bm (fun e => slotIf (fnum e 0 8 != 0) (.vpack d a (fld e 14 4) (fld e 8 6)))
  | 0x53 => classJ x bm (fun e => slotIf (fnum e 0 8 != 0) (.vunpk d a (fld e 14 4) (fld e 8 6)))
  | 0x54 => classN x (slotIf (m != 0) (.vsxt d a b))
  | 0x55 => classN x (slotIf (m != 0) (.vzxt d a b))
  | 0x56 => classN x (slotIf (a != 0 || m != 0) (.vgets d b))
  | 0x60 => classN x (slotOk (.vfadd v3))
  | 0x61 => classN x (slotOk (.vfsub v3))
  | 0x62 => classN x (slotOk (.vfmul v3))
  | 0x63 => classN x (slotOk (.vfma v3))
  | 0x64 => classN x (slotOk (.vfmin v3))
  | 0x65 => classN x (slotOk (.vfmax v3))
  | 0x66 => classN x (slotIf (b != 0) (.vfabs ⟨d, a, m⟩))
  | 0x67 => classN x (slotIf (b != 0) (.vfneg ⟨d, a, m⟩))
  | 0x68 => classN x (slotIf (b != 0) (.vfrcp ⟨d, a, m⟩))
  | 0x69 => classN x (slotIf (b != 0) (.vfrsq ⟨d, a, m⟩))
  | 0x6A => classN x (slotIf (b != 0) (.vfsqrt ⟨d, a, m⟩))
  | 0x6B => classN x (slotIf (b != 0) (.vfexp2 ⟨d, a, m⟩))
  | 0x6C => classN x (slotIf (b != 0) (.vflog2 ⟨d, a, m⟩))
  | 0x6D => classJ x bm (fun e => slotIf (fnum e 0 4 != 0) (.vfcvt d a (cvtXOf e)))
  | 0x70 => classWidth x (m != 0) (fun w => .vqxch d a b w)
  | 0x71 => classWidth x (m != 0) (fun w => .vshfl d a b w)
  | 0x72 => classWidth x (m != 0) (fun w => .vshflVi d a b w)
  | 0x73 => classWidth x (m != 0) (fun w => .vshflVs d a b w)
  | 0x74 => classWidth x (m != 0) (fun w => .vshflup d a b w)
  | 0x75 => classWidth x (m != 0) (fun w => .vshfldn d a b w)
  | 0x76 => classWidth x (m != 0) (fun w => .vshflx d a b w)
  | 0x77 =>
    classWidth x (fnum v 14 4 != 0 || b != 0 || flag v 0)
      (fun w => .vvote (fld v 22 4) (fld v 18 4) (fld v 10 4) (flag v 1) w)
  | 0x78 => classJ x (a != 0 || bm) (fun e => slotIf (fnum e 0 9 != 0) (.vballot d (fld e 14 4) (fld e 10 4) (flag e 9)))
  | 0x79 => classJ x bm (fun e => slotIf (fnum e 0 9 != 0) (.vwred d a (fld e 14 4) (fld e 10 4) (flag e 9)))
  | 0x80 => classMem x (fun y => .vld (vmOpOf v) y)
  | 0x81 => classMem x (fun y => .vst (vmOpOf v) y)
  | 0x82 => classMem x (fun y => .vldu (vmOpOf v) y)
  | 0x83 => classMem x (fun y => .vstu (vmOpOf v) y)
  | 0x84 => classMem x (fun y => .vlds (vmOpOf v) y)
  | 0x85 => classMem x (fun y => .vsts (vmOpOf v) y)
  | 0x86 => classMem x (fun y => .vldx (vmOpOf v) y)
  | 0x87 => classMem x (fun y => .vstx (vmOpOf v) y)
  | 0x88 => classMem x (fun y => .vldf (vmOpOf v) y)
  | 0x89 => classMem x (fun y => .vste (vmOpOf v) y)
  | 0x8A => classJ x (loadMReserved (vmOpOf v)) (fun e => slotOk (.vldc (vmOpOf v) (fld e 6 12) (fld e 0 6)))
  | 0x8B => classMem x (fun y => .vstn (vmOpOf v) y)
  | 0x8C => classMem x (fun y => .vred (vmOpOf v) y)
  | 0x8D => classMem x (fun y => .vpfl (vmOpOf v) y)
  | 0x90 => classMem x (fun y => .vaadd (vmOpOf v) y)
  | 0x91 => classMem x (fun y => .vamin (vmOpOf v) y)
  | 0x92 => classMem x (fun y => .vamax (vmOpOf v) y)
  | 0x93 => classMem x (fun y => .vaand (vmOpOf v) y)
  | 0x94 => classMem x (fun y => .vaor (vmOpOf v) y)
  | 0x95 => classMem x (fun y => .vaxor (vmOpOf v) y)
  | 0x96 => classMem x (fun y => .vaxch (vmOpOf v) y)
  | 0x97 => classJ x (m != 0) (fun e => slotIf (fnum e 0 5 != 0) (.vacas d a b (casXOf e)))
  | 0x98 => classMem x (fun y => .vbadd (vmOpOf v) y)
  | 0x99 => classMem x (fun y => .vbmin (vmOpOf v) y)
  | 0x9A => classMem x (fun y => .vbmax (vmOpOf v) y)
  | 0x9B => classMem x (fun y => .vband (vmOpOf v) y)
  | 0x9C => classMem x (fun y => .vbor (vmOpOf v) y)
  | 0x9D => classMem x (fun y => .vbxor (vmOpOf v) y)
  | 0x9E => classMem x (fun y => .vbxch (vmOpOf v) y)
  | 0x9F => classJ x (m != 0) (fun e => slotIf (fnum e 0 5 != 0) (.vbcas d a b (casXOf e)))
  | 0xA0 =>
    classJ x (fnum v 0 15 != 0) (fun e => slotIf (fnum e 0 10 != 0)
      (.vmma ⟨fld v 24 2, fld v 21 3, fld v 18 3, fld v 15 3, fld e 12 6, flag e 11, flag e 10⟩))
  | 0xA1 =>
    classJ x (fnum v 0 15 != 0) (fun e => slotIf (fnum e 0 10 != 0)
      (.vmss ⟨fld v 24 2, fld v 21 3, fld v 18 3, fld v 15 3, fld e 12 6, flag e 11, flag e 10⟩))
  | 0xA2 =>
    classJ x (fnum v 0 16 != 0) (fun e => slotIf (fnum e 0 6 != 0) (.vaccrd ⟨d, fld v 16 2, fld e 12 6, fld e 6 6⟩))
  | 0xA3 =>
    classJ x (fnum v 0 16 != 0) (fun e => slotIf (fnum e 0 6 != 0) (.vaccwr ⟨d, fld v 16 2, fld e 12 6, fld e 6 6⟩))
  | 0xA4 => classJ x (fnum v 0 16 != 0 || d != 0) (fun e => slotIf (fnum e 0 18 != 0) (.vaccz (fld v 16 2)))
  | 0xA5 =>
    classJ x (fnum v 10 6 != 0 || m != 0) (fun e => slotIf (fnum e 0 10 != 0)
      (.vaccq d b (fld v 16 2) (fld e 12 6) (flag e 11) (flag e 10)))
  | 0xA6 => classJ x (fnum v 18 5 != 0 || m != 0) (fun e => slotIf (fnum e 0 18 != 0) (.vfmtld (fld v 23 3) a b))
  | 0xB0 =>
    classJ x (m != 0) (fun e => slotIf (fnum e 0 4 != 0)
      (.vecpy (engOpOf v e) (flag e 7) (flag e 6) (fld e 4 2)))
  | 0xB1 => classJ x (m != 0 || d != 0) (fun e => slotIf (fnum e 0 4 != 0) (.vefill (engOpOf v e) (flag e 7) (fld e 4 3)))
  | 0xB2 => classJ x (m != 0) (fun e => slotOk (.vered (engOpOf v e) (fld e 4 4) (fld e 0 4)))
  | 0xB3 =>
    classJ x (m != 0 || b != 0) (fun e => slotIf (fnum e 0 2 != 0)
      (.vepkt (engOpOf v e) (flag e 7) (fld e 2 5)))
  | 0xB4 =>
    classJ x (m != 0) (fun e =>
      match fnum e 6 2 with
      | 0 => slotIf (fnum e 0 6 != 0) (.veblkGet (engOpOf v e))
      | 1 => slotIf (fnum e 0 6 != 0) (.veblkPut (engOpOf v e))
      | 2 => slotIf (fnum e 0 6 != 0) (.veblkFlush (engOpOf v e))
      | _ => slotReserved)
  | 0xFF => slotIllegal
  | k =>
    if 0xF0 ≤ k then classN x (slotOk (.vhint (BitVec.ofNat 4 (k - 0xF0)) (fld v 0 26)))
    else slotReserved

/-! ### The bundle word and the header word (R34, R36, R38, R52) -/

/-- A word whose bits [63:59] are all ones is a header (R34). -/
def isHeaderWord (w : Nat) : Bool := fnum w 59 5 == 31

/-- Reads a header word (R36); bits [1:0] are ignored. -/
def decodeHeader (w : Nat) : Header :=
  ⟨fld w 53 6, fld w 41 12, fld w 37 4, fld w 33 4, fld w 17 16, fld w 9 8, fld w 5 4, flag w 4, flag w 3, flag w 2⟩

/-- A header that R37 step 1 refuses: a length of 0, or a flag value from 12 to 14. -/
def Header.bad (h : Header) : Bool :=
  h.len == 0 || (decide (12 ≤ h.flagA.toNat) && h.flagA != 15) || (decide (12 ≤ h.flagB.toNat) && h.flagB != 15)

/-- REGANG, BAR, BARA and JOIN take no guard but p0 with sense 1 (R145, R147, R151, R187). -/
def needsPlainGuard : Instr → Bool
  | .sregang => true
  | .sbar _ _ => true
  | .sbara _ _ => true
  | .sjoin => true
  | _ => false

/-- The lowest cause of R52 that the two decoded slots raise; `joined` says that SOP is 0x3F. -/
def bundleError (gsense : Bool) (gpred : BitVec 4) (gscope joined : Bool) (s v : SlotDecode) : Option DecodeError :=
  if gpred == 15 then some (if gsense then .framing else .guardFifteen)
  else if s.illegal || v.illegal then some .illegalOpcode
  else if s.reserved || v.reserved || s.instr.cause == some 3 || v.instr.cause == some 3 ||
      (gscope && needsPlainGuard s.instr && !(gpred == 0 && gsense)) then some .reserved
  else if v.join then some .joinMismatch
  else if joined && gscope then some .scopeOnJoined
  else if s.instr.cause == some 9 || v.instr.cause == some 9 then some .noRegister
  else none

/-- Reads a bundle word (R38, R40 step 1). -/
def decodeBundle (w : Nat) : Except DecodeError Bundle :=
  let gsense := flag w 63
  let gpred := fld w 59 4
  let gscope := flag w 58
  let sop := fnum w 52 6
  let sx := fnum w 34 18
  let joined := sop == 0x3F
  let s := if joined then slotOk (.snop 0) else decodeScalar sop sx
  let v := decodeVector (fnum w 26 8) (fnum w 0 26) (if joined then some sx else none)
  match bundleError gsense gpred gscope joined s v with
  | some e => .error e
  | none => .ok ⟨gsense, gpred, gscope, if joined then none else some s.instr, v.instr⟩

/-- A code word: a header or a bundle (R34). -/
inductive CodeWord where
  | header (h : Header)
  | bundle (b : Bundle)
deriving DecidableEq, Repr

/-- Reads any code word. A header whose fields R37 refuses is still framed as a header. -/
def decodeWord (w : Nat) : Except DecodeError CodeWord :=
  if isHeaderWord w then .ok (.header (decodeHeader w))
  else (decodeBundle w).map .bundle

/-- The little-endian number of a list of bytes (R11). -/
def leNat : List Byte → Nat
  | [] => 0
  | b :: bs => b.toNat + 256 * leNat bs

/-- The `n` low bytes of a number, lowest first (R11). -/
def leBytes : Nat → Nat → List Byte
  | 0, _ => []
  | n + 1, v => BitVec.ofNat 8 v :: leBytes n (v / 256)

/-- Decodes the 8 bytes at the head of a byte stream and returns the rest of it. -/
def decodeBytes (bs : List Byte) : Except DecodeError (CodeWord × List Byte) :=
  if bs.length < 8 then .error .framing
  else (decodeWord (leNat (bs.take 8))).map (fun c => (c, bs.drop 8))

/-- The two hart instructions of the custom-0 opcode (R232, R256). -/
def decodeHart (w : Nat) : Except DecodeError Instr :=
  if fnum w 0 7 != 0x0B || fnum w 25 7 != 0 then .error .notHartCustom
  else match fnum w 12 3 with
    | 0 => .ok (.gxLaunch (fld w 7 5) (fld w 15 5) (fld w 20 5))
    | 1 => if fnum w 20 5 == 0 then .ok (.gxReplay (fld w 7 5) (fld w 15 5)) else .error .notHartCustom
    | _ => .error .notHartCustom

/-- The bundle that carries a scalar slot of the opcode table: guard p0, sense 1, scope 0, and VNOP beside it. -/
def tableBundle (w : Nat) : Nat := 2 ^ 63 + (w % 2 ^ 24) * 2 ^ 34

/-- What the decoder reads from an opcode-table row whose bits are `w`: a 32-bit row is a hart instruction, a 24-bit
row the scalar slot of a bundle; anything else is a whole code word. -/
def decodeTableWord (nbits w : Nat) : Option Instr :=
  if nbits == 32 then
    match decodeHart (leNat (leBytes 4 w)) with
    | .ok i => some i
    | .error _ => none
  else
    let word := if nbits == 24 then tableBundle w else w
    match decodeBytes (leBytes 8 word) with
    | .ok (.bundle b, _) => some (if nbits == 24 then b.scalar.getD b.vector else b.vector)
    | .ok (.header _, _) => none
    | .error _ => none

/-! ### The encoder -/

/-- A scalar slot from its opcode and its three 6-bit fields. -/
def encS (sop d a b : Nat) : Option Nat := some (sop * 2 ^ 18 + d * 2 ^ 12 + a * 2 ^ 6 + b)

/-- The 24 bits [57:34] of a scalar-slot instruction, SOP above SOPND (R38, R41); none for any other. -/
def encodeScalar : Instr → Option Nat
  | .snop i => some i.toNat
  | .sadd d a b => encS 0x01 d.toNat a.toNat b.toNat
  | .ssub d a b => encS 0x02 d.toNat a.toNat b.toNat
  | .smul d a b => encS 0x03 d.toNat a.toNat b.toNat
  | .smulh d a b => encS 0x04 d.toNat a.toNat b.toNat
  | .sand d a b => encS 0x05 d.toNat a.toNat b.toNat
  | .sor d a b => encS 0x06 d.toNat a.toNat b.toNat
  | .sxor d a b => encS 0x07 d.toNat a.toNat b.toNat
  | .sshl d a b => encS 0x08 d.toNat a.toNat b.toNat
  | .sshr d a b => encS 0x09 d.toNat a.toNat b.toNat
  | .ssar d a b => encS 0x0A d.toNat a.toNat b.toNat
  | .smin d a b => encS 0x0B d.toNat a.toNat b.toNat
  | .smax d a b => encS 0x0C d.toNat a.toNat b.toNat
  | .sslt d a b => encS 0x0D d.toNat a.toNat b.toNat
  | .sminn d a b => encS 0x0E d.toNat a.toNat b.toNat
  | .smaxn d a b => encS 0x0F d.toNat a.toNat b.toNat
  | .saddSi d a b => encS 0x10 d.toNat a.toNat b.toNat
  | .sandSi d a b => encS 0x11 d.toNat a.toNat b.toNat
  | .sorSi d a b => encS 0x12 d.toNat a.toNat b.toNat
  | .sxorSi d a b => encS 0x13 d.toNat a.toNat b.toNat
  | .sshlSi d a b => encS 0x14 d.toNat a.toNat b.toNat
  | .sshrSi d a b => encS 0x15 d.toNat a.toNat b.toNat
  | .ssarSi d a b => encS 0x16 d.toNat a.toNat b.toNat
  | .ssltSi d a b => encS 0x17 d.toNat a.toNat b.toNat
  | .sld d a b => encS 0x1B d.toNat a.toNat b.toNat
  | .sst d a b => encS 0x1C d.toNat a.toNat b.toNat
  | .ssltn d a b => encS 0x1D d.toNat a.toNat b.toNat
  | .sfork d a b => encS 0x28 d.toNat a.toNat b.toNat
  | .snnew d a b => encS 0x32 d.toNat a.toNat b.toNat
  | .sncas d a b => encS 0x34 d.toNat a.toNat b.toNat
  | .sli d i => some (0x18 * 2 ^ 18 + d.toNat * 2 ^ 12 + i.toNat)
  | .slsh d i => some (0x19 * 2 ^ 18 + d.toNat * 2 ^ 12 + i.toNat)
  | .sgets d i => some (0x1A * 2 ^ 18 + d.toNat * 2 ^ 12 + i.toNat)
  | .swaitc p n z => some (0x1E * 2 ^ 18 + p.toNat * 2 ^ 15 + n.toNat * 2 ^ 9 + z.toNat * 2 ^ 8)
  | .sfenceRel s => some (0x1F * 2 ^ 18 + 2 * 2 ^ 16 + s.toNat * 2 ^ 13)
  | .sfenceAcq s => some (0x1F * 2 ^ 18 + 1 * 2 ^ 16 + s.toNat * 2 ^ 13)
  | .sbra o => some (0x20 * 2 ^ 18 + o.toNat)
  | .scall o => some (0x21 * 2 ^ 18 + o.toNat)
  | .sret => some (0x22 * 2 ^ 18)
  | .sexit => some (0x24 * 2 ^ 18)
  | .sregang => some (0x25 * 2 ^ 18)
  | .sjoin => some (0x29 * 2 ^ 18)
  | .sbrx a => encS 0x23 0 a.toNat 0
  | .sbar a s => some (0x26 * 2 ^ 18 + a.toNat * 2 ^ 12 + s.toNat * 2 ^ 9)
  | .sbara a s => some (0x27 * 2 ^ 18 + a.toNat * 2 ^ 12 + s.toNat * 2 ^ 9)
  | .sgwalk d a => encS 0x2A d.toNat a.toNat 0
  | .strap c => some (0x2B * 2 ^ 18 + c.toNat)
  | .ssysNclr a => encS 0x2C 0 a.toNat 0
  | .ssysTret => encS 0x2C 1 0 0
  | .ssysTrd a w => encS 0x2C 2 a.toNat w.toNat
  | .ssysTwr a w => encS 0x2C 3 a.toNat w.toNat
  | .ssysCtxid a => encS 0x2C 4 a.toNat 0
  | .smfence d f k c => some (0x2D * 2 ^ 18 + d.toNat * 2 ^ 12 + f.toNat * 2 ^ 8 + k.toNat * 2 ^ 7 + c.toNat * 2 ^ 2)
  | .smwait a => encS 0x2E 0 a.toNat 0
  | .smonarm a => encS 0x2F a.toNat 0 0
  | .smonwait d a => encS 0x30 d.toNat a.toNat 0
  | .snlook d a => encS 0x31 d.toNat a.toNat 0
  | .snlookHold d a => encS 0x31 d.toNat a.toNat 0x10
  | .snlookRelease d a => encS 0x31 d.toNat a.toNat 0x20
  | .sndel d a => encS 0x33 d.toNat a.toNat 0
  | _ => none

/-- A vector slot: opcode, operand fields d, a, b and modifier, and the extension if the bundle is joined. -/
def encV (vop d a b m : Nat) (x : Option Nat) : Option (Nat × Option Nat) :=
  some (vop * 2 ^ 26 + d * 2 ^ 18 + a * 2 ^ 10 + b * 2 ^ 2 + m, x)

def encV3 (vop : Nat) (o : V3Op) : Option (Nat × Option Nat) :=
  encV vop o.d.toNat o.a.toNat o.b.toNat o.m.toNat none

def encV2 (vop : Nat) (o : V2Op) : Option (Nat × Option Nat) := encV vop o.d.toNat o.a.toNat 0 o.m.toNat none

def encVp (vop : Nat) (o : VpOp) : Option (Nat × Option Nat) :=
  encV vop (o.cond.toNat * 16 + o.pd.toNat) o.a.toNat o.b.toNat o.m.toNat none

def encVq (vop : Nat) (o : VqOp) : Option (Nat × Option Nat) :=
  encV vop o.pd.toNat o.pa.toNat o.pb.toNat (o.na.toNat * 2 + o.nb.toNat) none

def encVm (vop : Nat) (o : VmOp) (x : Option Nat) : Option (Nat × Option Nat) :=
  encV vop o.d.toNat o.a.toNat (o.base.toNat * 4 + o.size.toNat) o.m.toNat x

def encMemX (x : MemX) : Nat := x.order.toNat * 2 ^ 16 + x.scope.toNat * 2 ^ 13 + x.off.toNat

def encCvtX (x : CvtX) : Nat :=
  x.dt.toNat * 2 ^ 14 + x.st.toNat * 2 ^ 10 + x.elem.toNat * 2 ^ 6 + x.sat.toNat * 2 ^ 5 + x.rtz.toNat * 2 ^ 4

def encCasX (x : CasX) : Nat :=
  x.base.toNat * 2 ^ 12 + x.size.toNat * 2 ^ 10 + x.order.toNat * 2 ^ 8 + x.scope.toNat * 2 ^ 5

def encMm (vop : Nat) (o : MmOp) : Option (Nat × Option Nat) :=
  some (vop * 2 ^ 26 + o.acc.toNat * 2 ^ 24 + o.fa.toNat * 2 ^ 21 + o.fb.toNat * 2 ^ 18 + o.fmt.toNat * 2 ^ 15,
    some (o.kc.toNat * 2 ^ 12 + o.za.toNat * 2 ^ 11 + o.fuse.toNat * 2 ^ 10))

def encAcc (vop : Nat) (o : AccOp) : Option (Nat × Option Nat) :=
  some (vop * 2 ^ 26 + o.v.toNat * 2 ^ 18 + o.acc.toNat * 2 ^ 16,
    some (o.col.toNat * 2 ^ 12 + o.nm1.toNat * 2 ^ 6))

def encEng (vop : Nat) (o : EngOp) (pq : Nat) : Option (Nat × Option Nat) :=
  encV vop o.x.toNat o.y.toNat o.z.toNat 0 (some (o.sd.toNat * 2 ^ 12 + o.cf.toNat * 2 ^ 8 + pq))

def encWidth (w : Option (BitVec 4)) : Option Nat := w.map (fun k => k.toNat * 2 ^ 14)

/-- The 34 bits [33:0] of a vector-slot instruction and its extension; none for any other. -/
def encodeVector : Instr → Option (Nat × Option Nat)
  | .vnop i => some (i.toNat, none)
  | .vhint k i => some ((0xF0 + k.toNat) * 2 ^ 26 + i.toNat, none)
  | .vadd o => encV3 0x01 o
  | .vsub o => encV3 0x02 o
  | .vmul o => encV3 0x03 o
  | .vmulh o => encV3 0x04 o
  | .vmin o => encV3 0x05 o
  | .vmax o => encV3 0x06 o
  | .vabs o => encV3 0x07 o
  | .vneg o => encV3 0x08 o
  | .vmad o => encV3 0x09 o
  | .vsad o => encV3 0x0A o
  | .vand o => encV3 0x10 o
  | .vor o => encV3 0x11 o
  | .vxor o => encV3 0x12 o
  | .vnot d a => encV 0x13 d.toNat a.toNat 0 0 none
  | .vandn o => encV3 0x14 o
  | .vshl o => encV3 0x15 o
  | .vshr o => encV3 0x16 o
  | .vsar o => encV3 0x17 o
  | .vrot o => encV3 0x18 o
  | .vclz d a => encV 0x19 d.toNat a.toNat 0 0 none
  | .vpopc d a => encV 0x1A d.toNat a.toNat 0 0 none
  | .vbrev d a => encV 0x1B d.toNat a.toNat 0 0 none
  | .vaddVi o => encV3 0x20 o
  | .vmulVi o => encV3 0x21 o
  | .vandVi o => encV3 0x22 o
  | .vorVi o => encV3 0x23 o
  | .vxorVi o => encV3 0x24 o
  | .vshlVi o => encV3 0x25 o
  | .vshrVi o => encV3 0x26 o
  | .vsarVi o => encV3 0x27 o
  | .vminVi o => encV3 0x28 o
  | .vmaxVi o => encV3 0x29 o
  | .vaddVs o => encV3 0x30 o
  | .vsubVs o => encV3 0x31 o
  | .vmulVs o => encV3 0x32 o
  | .vandVs o => encV3 0x33 o
  | .vorVs o => encV3 0x34 o
  | .vxorVs o => encV3 0x35 o
  | .vshlVs o => encV3 0x36 o
  | .vshrVs o => encV3 0x37 o
  | .vsarVs o => encV3 0x38 o
  | .vminVs o => encV3 0x39 o
  | .vmaxVs o => encV3 0x3A o
  | .vcmp o => encVp 0x40 o
  | .vcmpVi o => encVp 0x41 o
  | .vcmpVs o => encVp 0x42 o
  | .vfcmp o => encVp 0x43 o
  | .vpand o => encVq 0x44 o
  | .vpor o => encVq 0x45 o
  | .vpxor o => encVq 0x46 o
  | .vmov d a => encV 0x4B d.toNat a.toNat 0 0 none
  | .vlea o => encV3 0x51 o
  | .vfadd o => encV3 0x60 o
  | .vfsub o => encV3 0x61 o
  | .vfmul o => encV3 0x62 o
  | .vfma o => encV3 0x63 o
  | .vfmin o => encV3 0x64 o
  | .vfmax o => encV3 0x65 o
  | .vfabs o => encV2 0x66 o
  | .vfneg o => encV2 0x67 o
  | .vfrcp o => encV2 0x68 o
  | .vfrsq o => encV2 0x69 o
  | .vfsqrt o => encV2 0x6A o
  | .vfexp2 o => encV2 0x6B o
  | .vflog2 o => encV2 0x6C o
  | .vqxch d a b w => encV 0x70 d.toNat a.toNat b.toNat 0 (encWidth w)
  | .vshfl d a b w => encV 0x71 d.toNat a.toNat b.toNat 0 (encWidth w)
  | .vshflVi d a b w => encV 0x72 d.toNat a.toNat b.toNat 0 (encWidth w)
  | .vshflVs d a b w => encV 0x73 d.toNat a.toNat b.toNat 0 (encWidth w)
  | .vshflup d a b w => encV 0x74 d.toNat a.toNat b.toNat 0 (encWidth w)
  | .vshfldn d a b w => encV 0x75 d.toNat a.toNat b.toNat 0 (encWidth w)
  | .vshflx d a b w => encV 0x76 d.toNat a.toNat b.toNat 0 (encWidth w)
  | .vld o x => encVm 0x80 o (x.map encMemX)
  | .vst o x => encVm 0x81 o (x.map encMemX)
  | .vldu o x => encVm 0x82 o (x.map encMemX)
  | .vstu o x => encVm 0x83 o (x.map encMemX)
  | .vlds o x => encVm 0x84 o (x.map encMemX)
  | .vsts o x => encVm 0x85 o (x.map encMemX)
  | .vldx o x => encVm 0x86 o (x.map encMemX)
  | .vstx o x => encVm 0x87 o (x.map encMemX)
  | .vldf o x => encVm 0x88 o (x.map encMemX)
  | .vste o x => encVm 0x89 o (x.map encMemX)
  | .vstn o x => encVm 0x8B o (x.map encMemX)
  | .vred o x => encVm 0x8C o (x.map encMemX)
  | .vpfl o x => encVm 0x8D o (x.map encMemX)
  | .vaadd o x => encVm 0x90 o (x.map encMemX)
  | .vamin o x => encVm 0x91 o (x.map encMemX)
  | .vamax o x => encVm 0x92 o (x.map encMemX)
  | .vaand o x => encVm 0x93 o (x.map encMemX)
  | .vaor o x => encVm 0x94 o (x.map encMemX)
  | .vaxor o x => encVm 0x95 o (x.map encMemX)
  | .vaxch o x => encVm 0x96 o (x.map encMemX)
  | .vbadd o x => encVm 0x98 o (x.map encMemX)
  | .vbmin o x => encVm 0x99 o (x.map encMemX)
  | .vbmax o x => encVm 0x9A o (x.map encMemX)
  | .vband o x => encVm 0x9B o (x.map encMemX)
  | .vbor o x => encVm 0x9C o (x.map encMemX)
  | .vbxor o x => encVm 0x9D o (x.map encMemX)
  | .vbxch o x => encVm 0x9E o (x.map encMemX)
  | .vbfx d a p l u => encV 0x1C d.toNat a.toNat 0 0 (some (p.toNat * 2 ^ 13 + l.toNat * 2 ^ 8 + u.toNat * 2 ^ 7))
  | .vbfi d a p l => encV 0x1D d.toNat a.toNat 0 0 (some (p.toNat * 2 ^ 13 + l.toNat * 2 ^ 8))
  | .vli d i m => encV 0x2A d.toNat 0 i.toNat m.toNat none
  | .vbcast d s => encV 0x3B d.toNat 0 s.toNat 0 none
  | .vbcasth d s => encV 0x3C d.toNat 0 s.toNat 0 none
  | .vpnot pd pa na => encV 0x47 pd.toNat pa.toNat 0 (na.toNat * 2) none
  | .vptst pd a => encV 0x48 pd.toNat a.toNat 0 0 none
  | .vptov d p => encV 0x49 d.toNat p.toNat 0 0 none
  | .vsel d a b p n => encV 0x4A d.toNat a.toNat b.toNat 0 (some (p.toNat * 2 ^ 14 + n.toNat * 2 ^ 13))
  | .vcvt d a x => encV 0x50 d.toNat a.toNat 0 0 (some (encCvtX x))
  | .vfcvt d a x => encV 0x6D d.toNat a.toNat 0 0 (some (encCvtX x))
  | .vpack d a t o => encV 0x52 d.toNat a.toNat 0 0 (some (t.toNat * 2 ^ 14 + o.toNat * 2 ^ 8))
  | .vunpk d a t o => encV 0x53 d.toNat a.toNat 0 0 (some (t.toNat * 2 ^ 14 + o.toNat * 2 ^ 8))
  | .vsxt d a w => encV 0x54 d.toNat a.toNat w.toNat 0 none
  | .vzxt d a w => encV 0x55 d.toNat a.toNat w.toNat 0 none
  | .vgets d s => encV 0x56 d.toNat 0 s.toNat 0 none
  | .vvote c pd p n w => encV 0x77 (c.toNat * 16 + pd.toNat) p.toNat 0 (n.toNat * 2) (encWidth w)
  | .vballot d w p n => encV 0x78 d.toNat 0 0 0 (some (w.toNat * 2 ^ 14 + p.toNat * 2 ^ 10 + n.toNat * 2 ^ 9))
  | .vwred d a w p n => encV 0x79 d.toNat a.toNat 0 0 (some (w.toNat * 2 ^ 14 + p.toNat * 2 ^ 10 + n.toNat * 2 ^ 9))
  | .vldc o c f => encVm 0x8A o (some (c.toNat * 2 ^ 6 + f.toNat))
  | .vacas d a b x => encV 0x97 d.toNat a.toNat b.toNat 0 (some (encCasX x))
  | .vbcas d a b x => encV 0x9F d.toNat a.toNat b.toNat 0 (some (encCasX x))
  | .vmma o => encMm 0xA0 o
  | .vmss o => encMm 0xA1 o
  | .vaccrd o => encAcc 0xA2 o
  | .vaccwr o => encAcc 0xA3 o
  | .vaccz c => some (0xA4 * 2 ^ 26 + c.toNat * 2 ^ 16, some 0)
  | .vaccq d a c k i u =>
    some (0xA5 * 2 ^ 26 + d.toNat * 2 ^ 18 + c.toNat * 2 ^ 16 + a.toNat * 2 ^ 2,
      some (k.toNat * 2 ^ 12 + i.toNat * 2 ^ 11 + u.toNat * 2 ^ 10))
  | .vfmtld f a b =>
    some (0xA6 * 2 ^ 26 + f.toNat * 2 ^ 23 + a.toNat * 2 ^ 10 + b.toNat * 2 ^ 2, some 0)
  | .vecpy o s t f => encEng 0xB0 o (s.toNat * 2 ^ 7 + t.toNat * 2 ^ 6 + f.toNat * 2 ^ 4)
  | .vefill o s f => encEng 0xB1 o (s.toNat * 2 ^ 7 + f.toNat * 2 ^ 4)
  | .vered o p t => encEng 0xB2 o (p.toNat * 2 ^ 4 + t.toNat)
  | .vepkt o t c => encEng 0xB3 o (t.toNat * 2 ^ 7 + c.toNat * 2 ^ 2)
  | .veblkGet o => encEng 0xB4 o 0
  | .veblkPut o => encEng 0xB4 o (1 * 2 ^ 6)
  | .veblkFlush o => encEng 0xB4 o (2 * 2 ^ 6)
  | _ => none

/-- The header word (R36). -/
def encodeHeader (h : Header) : Nat :=
  31 * 2 ^ 59 + h.len.toNat * 2 ^ 53 + h.wait.toNat * 2 ^ 41 + h.flagA.toNat * 2 ^ 37 + h.flagB.toNat * 2 ^ 33 +
    h.rcoff.toNat * 2 ^ 17 + h.live.toNat * 2 ^ 9 + h.pf.toNat * 2 ^ 5 + h.loop.toNat * 2 ^ 4 + h.rcpt.toNat * 2 ^ 3 +
    h.rbar.toNat * 2 ^ 2

/-- The bundle word of two slots under a guard (R38); none if a slot holds an instruction of the other slot, or if the
vector slot is joined and a scalar operation stands beside it. -/
def encodeBundle (b : Bundle) : Option Nat :=
  let g := b.gsense.toNat * 2 ^ 63 + b.gpred.toNat * 2 ^ 59 + b.gscope.toNat * 2 ^ 58
  match encodeVector b.vector with
  | none => none
  | some (v, none) =>
    match b.scalar with
    | none => none
    | some s => (encodeScalar s).map (fun x => g + x * 2 ^ 34 + v)
  | some (v, some e) =>
    match b.scalar with
    | none => some (g + 0x3F * 2 ^ 52 + e * 2 ^ 34 + v)
    | some _ => none

/-- The two hart instructions (R232, R256). -/
def encodeHart : Instr → Option Nat
  | .gxLaunch d a b => some (b.toNat * 2 ^ 20 + a.toNat * 2 ^ 15 + d.toNat * 2 ^ 7 + 0x0B)
  | .gxReplay d a => some (a.toNat * 2 ^ 15 + 2 ^ 12 + d.toNat * 2 ^ 7 + 0x0B)
  | _ => none

/-- The words of an instruction on a line of its own: a scalar or vector instruction as a bundle under p0 with a
no-operation beside it, in scope both for a scalar one (R23), a hart instruction as its 32-bit word; an event has no
words. -/
def encode (i : Instr) : Option Nat :=
  match encodeHart i with
  | some w => some w
  | none =>
    match encodeScalar i with
    | some _ => encodeBundle ⟨true, 0, true, some i, .vnop 0⟩
    | none =>
      match encodeVector i with
      | some (_, none) => encodeBundle ⟨true, 0, false, some (.snop 0), i⟩
      | some (_, some _) => encodeBundle ⟨true, 0, false, none, i⟩
      | none => none

end Sys2Proof
end

