-- ==== Sys2Proof/Machine/Sparse.lean ====
section
/-! DEFINITION. Sparse storage: a list of key and value pairs with strictly rising keys in which no entry holds the
default value, so that equal stores are equal lists. Memory bytes, registers and tiles are all kept so. -/

namespace Sys2Proof.Machine

/-- A sparse store from numbers to values. -/
abbrev Sparse (α : Type) := List (Nat × α)

/-- The value at a key, the default where none is listed. -/
def Sparse.get {α : Type} (dflt : α) : Sparse α → Nat → α
  | [], _ => dflt
  | (k, v) :: xs, key => if key = k then v else Sparse.get dflt xs key

/-- A listed value put at its place; the caller has excluded the default value. -/
def Sparse.insert {α : Type} (key : Nat) (v : α) : Sparse α → Sparse α
  | [] => [(key, v)]
  | (k, w) :: xs => if key < k then (key, v) :: (k, w) :: xs else if key = k then (key, v) :: xs else (k, w) :: Sparse.insert key v xs

/-- The store without a key: every entry at it goes, so that a read after it finds the default in any list. -/
def Sparse.erase {α : Type} (key : Nat) : Sparse α → Sparse α
  | [] => []
  | (k, w) :: xs => if key = k then Sparse.erase key xs else (k, w) :: Sparse.erase key xs

/-- The store with the value at a key set; writing the default removes the entry. -/
def Sparse.set {α : Type} [DecidableEq α] (dflt : α) (m : Sparse α) (key : Nat) (v : α) : Sparse α :=
  if v = dflt then Sparse.erase key m else Sparse.insert key v m

/-- Keys rise strictly and stay above `lo`, and no entry holds the default. -/
def Sparse.okFrom {α : Type} [DecidableEq α] (dflt : α) : Nat → Sparse α → Bool
  | _, [] => true
  | lo, (k, v) :: xs => decide (lo ≤ k) && decide (v ≠ dflt) && Sparse.okFrom dflt (k + 1) xs

/-- The canonical form. -/
def Sparse.wf {α : Type} [DecidableEq α] (dflt : α) (m : Sparse α) : Bool := Sparse.okFrom dflt 0 m

/-- A run of values set from a key upward. -/
def Sparse.setRun {α : Type} [DecidableEq α] (dflt : α) : Sparse α → Nat → List α → Sparse α
  | m, _, [] => m
  | m, key, v :: vs => Sparse.setRun dflt (Sparse.set dflt m key v) (key + 1) vs

/-- A run of `n` values read from a key upward. -/
def Sparse.getRun {α : Type} (dflt : α) (m : Sparse α) : Nat → Nat → List α
  | _, 0 => []
  | key, n + 1 => Sparse.get dflt m key :: Sparse.getRun dflt m (key + 1) n

end Sys2Proof.Machine
end

