-- ==== Sys2Proof/Machine/WarpState.lean ====
section
/-! DEFINITION. What a warp holds (R181): its register state, its issuing units, split table and stacks, and its
outstanding accesses, counters, monitor, batches and release round. Plain data. -/

namespace Sys2Proof.Machine

/-- Where a unit stands: the header address of its block, the bundle it issues next (0: at the header, before the first
bundle), the header's fields, and the block instance whose flags it tracks (R193; 0: none). -/
structure BlockPos where
  hdr : Nat
  idx : Nat
  head : Header
  inst : Nat
deriving DecidableEq, Repr, Inhabited

/-- The transfers of R142, with JOIN and TRET. -/
inductive XferKind where
  | branch | call | ret | exit | regang | join | tret
deriving DecidableEq, Repr, Inhabited

/-- A decided transfer (R138): its taken lanes and where they go; for RET each lane's popped address. `checked` asks for
BRX's target checks when it takes effect (R143). -/
structure Transfer where
  kind : XferKind
  taken : Lanes
  dest : Nat
  rets : List (Nat × Nat)
  checked : Bool
deriving DecidableEq, Repr, Inhabited

/-- A trap frame (R154), with what the frame keeps beside its words: the block position of FPC and the awaiting
transfer. -/
structure TrapFrame where
  fpc : W64
  vec : BitVec 8
  cause : BitVec 8
  slotVec : Bool
  skips : Bool
  code : BitVec 12
  fmask : W64
  faddr : W64
  fres : W64
  fact : Lanes
  kept : Option Transfer
  pos : BlockPos
  /-- Further block instances that the trapped unit stands in, after a merge within the block (R193). -/
  alsoIn : List Nat := []
  /-- The unit was waiting at a header (R141): return enters that header again. -/
  atHeader : Bool
deriving DecidableEq, Repr, Inhabited

/-- Why a unit does not issue (R190), with what ends it. A pending register, a result latency, a register-cache miss and
a busy pipe are read from other fields. -/
inductive Hold where
  | none
  /-- R37: at a header, waiting for the flags of its WAIT mask. -/
  | headerWait
  /-- R140: waiting at a reconvergence header. -/
  | reconv
  /-- R105: parked at a cross-lane bundle. -/
  | cross
  /-- R145. -/
  | regang
  /-- R141: the whole-warp wait of BAR, BARA and JOIN. -/
  | wholeWarp
  /-- R156. -/
  | tret
  /-- R114, R253: parked on check 5; `vec` names the slot. -/
  | fault (vec : Bool)
  /-- R130: a release at a scope before its access. -/
  | fenceRel (scope : BitVec 3)
  /-- R130: an acquire at a scope. -/
  | fenceAcq (scope : BitVec 3)
  /-- R213: `fence.rel.s` waits for the query of the round it closed. -/
  | fenceQuery (round : BitVec 32)
  /-- R133. -/
  | waitc (path threshold : Nat)
  /-- R132: an issue that would raise a path counter above 63. -/
  | pathFull (path : Nat)
  /-- R169. -/
  | mwait (batch : Nat)
  /-- R166. -/
  | tile (acc : Nat)
  /-- R135, with the time-out's end. -/
  | monwait (deadline : Option Nat)
  /-- R128: the selected lanes of an LDF or STE that have not completed. -/
  | fullEmpty
  /-- R148: the owning block, the barrier's offset, the phase awaited and the scope. -/
  | barrier (blk off : Nat) (ph : BitVec 16) (scope : BitVec 3)
  /-- R148: a BAR's arrival is on its way to the bank. -/
  | arriving
  /-- R151: standing at JOIN. -/
  | atJoin
  /-- R149, R233: FORK or GWALK waits for children or for room in a queue. -/
  | children
  /-- Accesses of the warp must return first (R303). -/
  | loads
  /-- A translation or name entry whose token the walk does not hold yet (R250). -/
  | walk
  /-- A trap has ended the unit's context (R153). -/
  | ended
deriving DecidableEq, Repr, Inhabited

/-- The snapshot of a launch record (R230). -/
structure LaunchRec where
  code : Nat
  codeName : BitVec 128
  handlerName : BitVec 128 := 0
  handler : Option Nat
  gridM1 : BitVec 32
  cluM1 : BitVec 2
  warpM1 : BitVec 4
  plyM1 : BitVec 3
  liveM1 : BitVec 6
  prio : BitVec 2
  place : BitVec 8
  spAlloc : Nat
  fifos : BitVec 8
  ctrs : BitVec 32
  poolBase : W64
  poolSize : W64
  done : W64
deriving DecidableEq, Repr, Inhabited

/-- A sector that a scalar slot has read. -/
structure SectorRead where
  sec : Nat
  data : SectorData
  poison : Bool
  ros : Bool
deriving DecidableEq, Repr, Inhabited

/-- A FORK whose lookup has found a launch record's name (R149, R179): the counter value whose hold it has, the body it found, and the
record once it is read. -/
structure ForkWait where
  name : W64
  w0 : W64
  w1 : W64
  launch : Option LaunchRec
deriving DecidableEq, Repr, Inhabited

/-- An issuing unit (R183), or a reconvergence-stack entry (`sec` true, in the warp's `stack`). -/
structure IUnit where
  /-- A ply's secondary slot, against a fragment. -/
  sec : Bool := false
  /-- The ply of a secondary slot or stack entry. -/
  ply : Nat := 0
  lanes : Lanes := 0
  pos : BlockPos := default
  /-- Further instances of its block that the unit stands in, after a merge within the block (R193). -/
  alsoIn : List Nat := []
  /-- The split entry of the join key; `none` is the root key (0, 0). -/
  key : Option Nat := none
  hold : Hold := .none
  /-- The ageing counter (R189). -/
  age : Nat := 0
  /-- The scalar slot of the bundle has executed (R40) or is treated as SNOP (FINFO.SKIPS). -/
  skip : Bool := false
  /-- The decided transfer of that scalar slot. -/
  xfer : Option Transfer := none
  /-- The operation number that the bundle's first operation takes (R303). -/
  firstId : Nat := 1
  /-- The fence that the bundle's next slot needs has completed (R131). -/
  fenced : Bool := false
  /-- The bundle's vector access has been handed out; its acquire or its waiting lanes remain. -/
  issued : Bool := false
  /-- Lanes still waiting in LDF or STE (R129), or still to store after a full touched table (R213). -/
  fe : Lanes := 0
  /-- MONWAIT has a reason to return (R135). -/
  wake : Option (BitVec 2) := none
  /-- The wait of a WAITC, MWAIT, BAR or JOIN is over (R133, R148, R151, R169). -/
  passed : Bool := false
  /-- The reads that the waiting scalar slot has already performed (R275). -/
  latch : List SectorRead := []
  /-- The line that a waiting MONARM is to watch (R134). -/
  arms : Option Nat := none
  fork : Option ForkWait := none
  /-- The unit has reached the header at `pos` and has still to enter it (R37). -/
  entering : Bool := false
  /-- A transfer led to that header, against falling through (R143). -/
  jumped : Bool := false
  /-- Trap level: the frame, and when it was written. -/
  trap : Option TrapFrame := none
  /-- The frames of the unit's other ply slots, after a merge at trap level (R153). -/
  more : List TrapFrame := []
  trapOrder : Nat := 0
deriving DecidableEq, Repr, Inhabited

/-- A split-table entry in use (R184). -/
structure Split where
  lanes : Lanes
  waiting : Lanes
  parent : Option Nat
  serial : BitVec 16
  addr : BitVec 24
deriving DecidableEq, Repr, Inhabited

/-- A block instance that will set flags when its work has completed (R193). -/
structure BlockInst where
  id : Nat
  flagA : BitVec 4
  flagB : BitVec 4
  ops : List Nat
deriving DecidableEq, Repr, Inhabited

/-- The state of a warp that its instructions read and write and that a journal, a checkpoint or a save keeps whole. -/
structure WarpArch where
  /-- v registers, at 64 × register + lane. Where `dead` is set an unlisted register is undefined. -/
  vregs : Sparse W32 := []
  /-- Register groups that are undefined in a lane: by a header's LIVE (R37), and those of lanes that are never live, which hold only
  what such a lane writes as a helper (R103). Bit 64 × group + lane. -/
  dead : BitVec 512 := 0
  /-- The LIVE field of the header that each ply most recently entered (R192). -/
  plyLive : Sparse (BitVec 8) := []
  sregs : Sparse W64 := []
  /-- p1 to p14 as lane masks. -/
  preds : Sparse Lanes := []
  /-- Tiles, at 4096 × tile + 64 × row + column. -/
  acc : Sparse W32 := []
  fmt : Sparse (BitVec 128) := []
  nstat : W64 := 0
  /-- c0 to c11. -/
  flags : BitVec 12 := 4095
  live : Lanes := 0
  /-- Lanes that were never live: their predicates and tile rows hold what they wrote as helpers, else a value that the manual does not
  state, selected by `seed` (R103). -/
  unborn : Lanes := 0
  seed : Nat := 0
  units : List IUnit := []
  /-- Reconvergence stacks of all plies, oldest entry first. -/
  stack : List IUnit := []
  splits : Sparse Split := []
  serial : BitVec 16 := 0
  /-- Return stacks by lane, top first (R142). -/
  rstk : Sparse (List Nat) := []
  insts : List BlockInst := []
  /-- Number of the last closed batch (R168). -/
  batch : W64 := 0
deriving DecidableEq, Repr, Inhabited

/-- What an outstanding access does when it performs. -/
inductive AccKind where
  /-- LD, LDU, LDC, SLD, LDS, LDX. -/
  | load
  /-- LDF: waits for full, then empties (R128). -/
  | loadFe
  /-- Cached stores, STS, STX, with the full/empty setting of R119. -/
  | store (fe : BitVec 2)
  /-- STE: waits for empty, then fills. -/
  | storeFe
  /-- The atomic steps of R126: 0 ADD, 1 MIN, 2 MAX, 3 AND, 4 OR, 5 XOR, 6 XCH; unsigned for MIN and MAX. -/
  | atomic (op : Nat) (unsigned : Bool)
  /-- R127. -/
  | cas
  /-- STN, and stores to another module (R125). -/
  | posted
  /-- RED, with its step (R124). -/
  | red (op : BitVec 2)
  /-- The arrival of a BAR or BARA at another block's bank (R148). -/
  | arrive (bar : Bool) (scope : BitVec 3)
deriving DecidableEq, Repr, Inhabited

/-- One lane's part of an access (R121): lane 64 stands for the scalar slot. -/
structure AccPart where
  lane : Nat
  va : Nat
  /-- Domain byte address of a global part (R333); scratchpad byte offset otherwise. -/
  addr : Nat
  /-- Byte offset of the part within the lane's access. -/
  off : Nat
  size : Nat
  ros : Bool
  /-- The lane is a helper (R115). -/
  helper : Bool
  data : List Byte
  /-- ACAS, BCAS: the expected value. -/
  expect : List Byte
deriving DecidableEq, Repr, Inhabited

/-- Where a load's data goes: vector or scalar register, sign extension. -/
structure AccDest where
  scalar : Bool
  reg : Nat
  bytes : Nat
  signed : Bool
deriving DecidableEq, Repr, Inhabited

/-- Where an access stands on its way. -/
inductive AccStage where
  /-- Not yet performed. -/
  | waiting
  /-- Performed at a remote bank; the reply has not arrived (R132). -/
  | replied
  /-- A posted write on its way to its home or link (R125). -/
  | sent
deriving DecidableEq, Repr, Inhabited

/-- An outstanding access of one issue. -/
structure Access where
  id : Nat
  kind : AccKind
  /-- The unit's lanes at issue, kept current through merges (R196). -/
  lanes : Lanes
  /-- The block whose scratchpad it names, when it is a scratchpad access. -/
  bank : Option Nat
  dest : Option AccDest
  /-- LDC's count, one load per issue (R122). -/
  count : Option (BitVec 12)
  /-- Allocates in L1 (R207). -/
  useL1 : Bool
  scope : BitVec 3
  parts : List AccPart
  /-- Bytes returned so far: lane, byte offset, value. -/
  got : List (Nat × Nat × List Byte)
  stage : AccStage
  /-- Posted writes whose acknowledgement has not returned. -/
  acks : Nat
  /-- Loads and atomics: the warp's state before the issuing slot, and the unit and slot that issued it (R304). -/
  snap : Option WarpArch
  unit : Nat
  slotVec : Bool
  /-- Lines of which the issue has read a sector through the L2 (R122). -/
  viaL2 : List Nat := []
  /-- An atomic that has found none of its sectors poisoned (R304). -/
  checked : Bool := false
deriving DecidableEq, Repr, Inhabited

/-- One issue on an access path (R132): path, the operation awaited, further operations of the issue, completed. -/
structure PathIssue where
  path : Nat
  id : Nat
  also : List Nat
  done : Bool
deriving DecidableEq, Repr, Inhabited

/-- A home that posted writes of the current round touched (R213). -/
structure Touch where
  module : BitVec 3
  home : BitVec 4
  count : Nat
deriving DecidableEq, Repr, Inhabited

/-- A gathered query of `fence.rel.s` (R213): the homes that have not confirmed, when to resend, and the homes whose replies fell
short. -/
structure Query where
  round : BitVec 32
  waiting : List Touch
  resendAt : Nat
  short : List Touch := []
deriving DecidableEq, Repr, Inhabited

/-- The warp's monitor (R134): its line (virtual and domain address), whether its page is read-only-shared, and whether
it has triggered. -/
structure Monitor where
  va : Nat
  line : Nat
  ros : Bool
  triggered : Bool
deriving DecidableEq, Repr, Inhabited

/-- A closed batch that has not completed (R168). -/
structure Batch where
  no : W64
  members : List Nat
  flag : BitVec 4
  ck : Bool
  ctr : BitVec 5
  /-- Writes of the warp before the MFENCE that a CK increment awaits. -/
  writes : List Nat
  /-- The MFENCE's operation number. -/
  id : Nat
  /-- Complete; its CK increment remains. -/
  done : Bool
deriving DecidableEq, Repr, Inhabited

/-- A result that may not be read yet (R344): register or predicate, lanes, first cc at which it may be. -/
structure Latent where
  pred : Bool
  reg : Nat
  lanes : Lanes
  ready : Nat
deriving DecidableEq, Repr, Inhabited

/-- A warp, resident or saved. -/
structure Warp where
  blk : Nat := 0
  idx : Nat := 0
  core : Nat := 0
  /-- Resident slot, 0 to 47. -/
  slot : Nat := 0
  ctx : BitVec 12 := 0
  cls : BitVec 2 := 0
  nply : Nat := 1
  arch : WarpArch := {}
  accs : List Access := []
  paths : List PathIssue := []
  /-- Outstanding acknowledgements (R125). -/
  acks : Nat := 0
  /-- Scalar registers pending on engine and name operations: register, operation (R117). -/
  spend : List (Nat × Nat) := []
  round : BitVec 32 := 0
  touched : List Touch := []
  query : Option Query := none
  mon : Option Monitor := none
  /-- Counter values of the names held (R179). -/
  holds : List W64 := []
  openBatch : List Nat := []
  batches : List Batch := []
  /-- NSTAT flags of completed matrix instructions whose batch has not completed (R67). -/
  mflags : List (Nat × W64) := []
  lat : List Latent := []
  /-- Stack counters by ply (R189). -/
  stackCtr : Sparse Nat := []
  /-- Provisional bundles: the operation number that follows each, and the loads it still depends on (R303). -/
  journal : List (Nat × List Nat) := []
  /-- The next operation number of the warp. -/
  nextId : Nat := 1
  nextInst : Nat := 1
  /-- The unit of the warp stops at its next issue slot (R238). -/
  stopped : Bool := false
  ended : Bool := false
deriving DecidableEq, Repr, Inhabited

end Sys2Proof.Machine
end

