-- ==== Sys2Proof/Machine/CoreState.lean ====
section
/-! DEFINITION. What a core, a block, a grid, a context, a graph and the engines hold. Plain data. -/

namespace Sys2Proof.Machine

/-! ### Core -/

/-- A line of the L1: 128 bytes as two sectors, each present or not (R207), with its sector's poison. -/
structure L1Line where
  line : Nat
  s0 : Option SectorData
  s1 : Option SectorData
deriving DecidableEq, Repr, Inhabited

/-- A cached translation (R250): context, page, its leaf and the domain sectors it was built from. -/
structure TlbEntry where
  ctx : BitVec 12
  vpage : Nat
  pageBits : Nat
  ppage : Nat
  perms : BitVec 8
  supv : Bool
  part : BitVec 16
  sectors : List Nat
deriving DecidableEq, Repr, Inhabited

/-- A cached name result (R262): a live body with its entry's sector, or gone. -/
structure NameCacheEntry where
  counter : W64
  gone : Bool
  creator : BitVec 12
  w0 : W64
  w1 : W64
  sector : Nat
deriving DecidableEq, Repr, Inhabited

/-- A fault-buffer entry (R254). -/
structure FaultEntry where
  valid : Bool := false
  kind : BitVec 2 := 0
  region : BitVec 40 := 0
  ctx : BitVec 12 := 0
  count : BitVec 16 := 0
  cores : BitVec 12 := 0
deriving DecidableEq, Repr, Inhabited

/-- A multiplier array, or the sign-select array (R311, R312): fenced sub-arrays, tests and use. -/
structure ArrayState where
  fenced : BitVec 4 := 0
  /-- The matrix instructions it runs: warp and operation. -/
  busy : Option (Nat × Nat) := none
  /-- The operand pair of the next test, and the time of the last passing one. -/
  testPair : BitVec 2 := 0
  lastPass : Nat := 0
deriving DecidableEq, Repr, Inhabited

/-- A register-cache granule (R192): warp, kind (0 to 63: vector granule 8g + p; 64 + k: return stacks of lanes 4k to 4k + 3;
80 + p: reconvergence stack of ply p), dirty. Most recently used first. -/
structure Granule where
  warp : Nat
  which : Nat
  dirty : Bool
deriving DecidableEq, Repr, Inhabited

/-- A core. -/
structure Core where
  l1 : List L1Line := []
  /-- Counted lines of the L2 (R122): line, reads left. -/
  counted : List (Nat × Nat) := []
  /-- Sectors that a prefetch wants in the L1 (R123). -/
  l1Wanted : List Nat := []
  tlb : List TlbEntry := []
  names : List NameCacheEntry := []
  faults : List FaultEntry := List.replicate 8 {}
  dropped : Bool := false
  /-- For each scheduler: the slot served last, its cc, and the cc at which its pipe is free (R188). -/
  last : List Nat := [47, 47, 47, 47]
  cc : List Nat := [0, 0, 0, 0]
  pipe : List Nat := [0, 0, 0, 0]
  arrays : List ArrayState := List.replicate 4 {}
  granules : List Granule := []
  /-- Granules that a header entry has requested (R192): warp, granule. -/
  wanted : List (Nat × Nat) := []
  /-- Batches opened (R313). -/
  opened : Nat := 0
  fenced : Bool := false
deriving DecidableEq, Repr, Inhabited

/-! ### Block -/

/-- A chunk counter (R170). -/
structure ChunkCtr where
  armed : Bool := false
  target : BitVec 16 := 0
  count : BitVec 16 := 0
deriving DecidableEq, Repr, Inhabited

/-- A matrix instruction that has not completed (R161): operands, rows, and the snapshot of R72 (A's and B's scale
bytes by row and k-block, at 64 × k-block + row). -/
structure MatOp where
  warp : Nat
  id : Nat
  mss : Bool
  op : MmOp
  fmt : BitVec 128
  rows : Lanes
  scaleA : Sparse Byte
  scaleB : Sparse Byte
  started : Bool
  aBytes : List Byte
  bBytes : List Byte
  /-- The array or arrays that run it: bit a, sign-select bit 3. -/
  arrays : BitVec 4
deriving DecidableEq, Repr, Inhabited

/-- An undo-log entry (R308), newest first: word index, old value, old full/empty bit. -/
structure UndoEntry where
  word : Nat
  old : W32
  full : Bool
deriving DecidableEq, Repr, Inhabited

/-- How the arrivals of a barrier's current phase came (R306). -/
structure BarPhase where
  off : Nat
  /-- Every arrival so far came from a BAR at `.b` of a warp of the block. -/
  plain : Bool
deriving DecidableEq, Repr, Inhabited

/-- What a checkpoint records (R306): every warp's state and round state, the chunk counters, FIFOs and unstarted matrix
instructions, and the block's child ordinals. -/
structure Checkpoint where
  warps : List (Nat × WarpArch × Option Monitor)
  ctrs : Sparse ChunkCtr
  fifos : Sparse (List Byte)
  mq : List MatOp
  nextChild : Nat
  phase : Nat
  /-- Each warp's open batch, closed batches and the NSTAT flags that wait for them. -/
  batches : List (Nat × List Nat × List Batch × List (Nat × W64)) := []
  /-- How the arrivals of barriers' current phases came. -/
  phases : List BarPhase := []
  /-- Each warp's stack counters (R189). -/
  stackCtrs : Sparse (Sparse Nat) := []
deriving DecidableEq, Repr, Inhabited

/-- Where a block is in its life. -/
inductive BlockStatus where
  /-- Placed on a core. -/
  | resident
  /-- Chosen as victim and draining (R238). -/
  | stopping
  /-- Saved by pre-emption, ready to be restored. -/
  | saved
  /-- Suspended at JOIN with children outstanding (R151). -/
  | suspended
  /-- Rolled back on a fenced core, or joined: ready to be restored. -/
  | ready
  | ended
deriving DecidableEq, Repr, Inhabited

/-- A block: its place, its launch parameters, and the storage it owns (R181). -/
structure Block where
  grid : Nat := 0
  idx : Nat := 0
  /-- Block ids of its cluster launch in index order. -/
  cluster : List Nat := []
  core : Nat := 0
  ctx : BitVec 12 := 0
  cls : BitVec 2 := 0
  status : BlockStatus := .resident
  nwarps : Nat := 1
  spAlloc : Nat := 0
  /-- Its undo log spilled to stacked DRAM, the register carve-out being full when the block was placed (R308, R334). -/
  logSpilled : Bool := false
  sp : Sparse Byte := []
  /-- Full bits by word. -/
  full : Sparse Bool := []
  fifoSet : BitVec 8 := 0
  fifos : Sparse (List Byte) := []
  ctrSet : BitVec 32 := 0
  ctrs : Sparse ChunkCtr := []
  mq : List MatOp := []
  code : Nat := 0
  handler : Option Nat := none
  dbase : W64 := 0
  poolBase : Nat := 0
  poolSize : Nat := 0
  children : Nat := 0
  nextChild : Nat := 0
  phases : List BarPhase := []
  undo : List UndoEntry := []
  logged : Sparse Bool := []
  ckpt : Option Checkpoint := none
  eligible : Bool := false
  /-- Checkpoint phases passed. -/
  ckptPhase : Nat := 0
  /-- A checkpoint phase completed and its wake waits for the block's work to complete (R306): the barrier's offset. -/
  ckptWait : Option Nat := none
  /-- Order of placement, and order of stopping (R233, R238). -/
  placed : Nat := 0
  stoppedAt : Nat := 0
  /-- The block is cut: its context is removed (R244). -/
  cut : Bool := false
  /-- It stops because it stands at JOIN with children outstanding (R151). -/
  joining : Bool := false
deriving DecidableEq, Repr, Inhabited

/-- The areas that pre-emption writes of a block (R239, R240): the block's save area, and each warp's vector context and control area,
as bytes by offset. -/
structure SaveArea where
  /-- The ashlar whose register carve-out it was allocated in, and whether it spilled to stacked DRAM because that was full (R240,
  R334). -/
  ashlar : Nat := 0
  spilled : Bool := false
  block : Sparse Byte
  warps : List (Nat × Sparse Byte × Sparse Byte)
deriving DecidableEq, Repr, Inhabited

/-! ### Grids, contexts, graphs -/

/-- Who launched a grid. -/
inductive GridParent where
  | hart
  | block (blk ordinal : Nat)
  | node (graph node : Nat)
deriving DecidableEq, Repr, Inhabited

/-- The launch's copy of the data segment (R28): no place chosen, so many of its bytes written at `dbase`, or whole. -/
inductive DataCopy where
  | unplaced
  | written (n : Nat)
  | whole
deriving DecidableEq, Repr, Inhabited

/-- A grid (R232 to R236). -/
structure Grid where
  ctx : BitVec 12
  launch : LaunchRec
  parent : GridParent
  /-- The value stored at DONE: the sequence number, or the child ordinal. -/
  doneVal : W64
  s0 : W64
  dbase : W64
  /-- Blocks dispatched, and blocks ended. -/
  dispatched : Nat
  ended : Nat
  /-- Remaining release rounds of ended warps (R236): source identity and query. -/
  rounds : List (W64 × Query)
  completed : Bool
  copy : DataCopy := .unplaced
deriving DecidableEq, Repr, Inhabited

/-- The state of a graph node: predecessors still awaited, ready, running. -/
structure NodeState where
  npred : Nat
  count : Nat
  ready : Bool
  running : Bool
  /-- The condition word of a conditional or while node was not 0. -/
  cond : Bool
  /-- The status word its work ended with. -/
  result : Option W64
deriving DecidableEq, Repr, Inhabited

/-- A running task graph (R243). -/
structure Graph where
  ctx : BitVec 12
  /-- The counter value of the graph's name, held until the graph ends (R179). -/
  name : W64
  base : Nat
  /-- Parent block and ordinal. -/
  blk : Nat
  engine : Nat
  core : Nat
  cls : BitVec 2
  nodes : List NodeState
  /-- The first nonzero status of a node, as a status word. -/
  status : W64
  ended : Bool
deriving DecidableEq, Repr, Inhabited

/-- A donation (R241): donor, the class it had, the sectors watched, and the full/empty bits (block, word, bit) and barrier
phases (block, offset, phase) its warps wait on; and the contexts whose pre-empted blocks it has had restored. -/
structure Donation where
  donor : BitVec 12
  cls : BitVec 2
  watched : List Nat
  /-- A watched line was written. -/
  isOver : Bool
  fes : List (Nat × Nat × Bool)
  phases : List (Nat × Nat × Nat)
  donees : List (BitVec 12) := []
deriving DecidableEq, Repr, Inhabited

/-! ### Engines (R171 to R177, R286 to R293) -/

inductive CmdKind where
  | ecpy (fromSp toSp : Bool) (fe : BitVec 2)
  | efill (fromSp : Bool) (fifo : BitVec 3)
  | ered (op type : BitVec 4)
  | epkt (armed : Bool) (ctr : BitVec 5)
  | eblkGet
  | eblkPut
  | eblkFlush
deriving DecidableEq, Repr, Inhabited

/-- Who issued a command. -/
inductive CmdOwner where
  | warp (w id : Nat)
  | node (graph node : Nat)
deriving DecidableEq, Repr, Inhabited

/-- Where a command is on its way. -/
inductive CmdStage where
  /-- Issued; its hand-over waits for earlier writes (R171). -/
  | issued
  /-- In its engine's queue. -/
  | queued
  /-- EPKT: another armed command holds its counter. -/
  | waitArm
  /-- EPKT: its counter is armed and has not fired. -/
  | armed
  | running
  /-- Its bytes are moved; completion remains. -/
  | finishing
deriving DecidableEq, Repr, Inhabited

/-- An agreement round at its proposer (R290). -/
structure Round where
  pair : BitVec 4
  version : BitVec 32
  mask : BitVec 8
  /-- Receivers that have not answered PROP; receivers that have not answered DONE. -/
  waitAck : BitVec 8
  waitDone : BitVec 8
deriving DecidableEq, Repr, Inhabited

/-- An engine command. -/
structure Cmd where
  /-- Its place in the order of issue. -/
  seq : Nat
  owner : CmdOwner
  engine : Nat
  core : Nat
  blk : Nat
  ctx : BitVec 12
  cls : BitVec 2
  kind : CmdKind
  x : W64
  y : W64
  len : Nat
  sd : BitVec 6
  cf : BitVec 4
  stage : CmdStage
  /-- Accesses of the issuing warp that precede the hand-over, its posted writes included. -/
  waits : List Nat
  /-- Bytes moved, and the end of the current segment. -/
  pos : Nat
  segEnd : Nat
  pins : List Nat
  /-- The segment's destination: virtual 64 KiB page and its domain page. -/
  pages : List (Nat × Nat)
  /-- Source bytes read and not yet written; the chunk read so far. -/
  buf : List Byte
  /-- The virtual address of the byte at `segEnd` that fails (R172, R305). -/
  stop : Option Nat
  /-- Parked on check 5 (R256). -/
  parked : Bool
  /-- EPKT: the descriptor snapshot, the communicator's word 0 as last read, its name, its pair, and the round of AGREE. -/
  desc : List Byte
  comm : Option Nat
  name : Option W64
  pair : Option (BitVec 4)
  round : Option Round
  /-- The room that the chunk under way has taken in the buffer at the next hop: link and bytes (R289, R293). -/
  room : Option (Nat × Nat) := none
deriving DecidableEq, Repr, Inhabited

end Sys2Proof.Machine
end

