-- ==== Sys2Proof/Machine/SysState.lean ====
section
/-! DEFINITION. What the token protocol, the name table, the harts, the links, the black box and the module's system
logic hold. Plain data. -/

namespace Sys2Proof.Machine

/-! ### Tokens (R267 to R280, R316 to R319) -/

/-- What an agent holds of a sector (R272): tokens, the owner among them or not, DIRTY, valid data. -/
structure Holding where
  tokens : Nat := 0
  owner : Bool := false
  dirty : Bool := false
  valid : Bool := false
  poison : Bool := false
  data : SectorData := 0
deriving DecidableEq, Repr, Inhabited

/-- A home's metadata of a sector (R269), and whether it fails parity (R300). -/
structure HomeMeta where
  serial : BitVec 3 := 0
  owner : Bool := true
  count : BitVec 11 := 2047
  badParity : Bool := false
deriving DecidableEq, Repr, Inhabited

/-- What an agent knows of a sector's persistent requests and census (R278, R317): the last activation number it
applied, the active winner, and frozen by a census. -/
structure ActState where
  last : Option (BitVec 11) := none
  winner : Option (BitVec 13) := none
  /-- The REQID and class of the winner's request, which answers to it echo (R270). -/
  reqid : BitVec 16 := 0
  tc : BitVec 2 := 0
  frozen : Bool := false
  /-- The serial that the census query named (R316). -/
  serial : BitVec 3 := 0
deriving DecidableEq, Repr, Inhabited

/-- A message in flight, with the agents of this module it has still to reach. -/
structure Flight where
  msg : Msg
  dests : List (BitVec 13)
  poison : Bool := false
  /-- A PRQ that waits at its home's link input for room in the persistent table (R276). -/
  held : Bool := false
deriving DecidableEq, Repr, Inhabited

/-- How far a request has been made persistent (R275 to R278). -/
inductive PersistStage where
  | transient | sent | pending | active
deriving DecidableEq, Repr, Inhabited

/-- An outstanding token request (R275): attempt 1 to 5, the agents tried, and the time its timer expires. -/
structure TokenReq where
  agent : BitVec 13
  sector : Nat
  write : Bool
  attempt : Nat
  tried : List (BitVec 13)
  expiry : Nat
  tc : BitVec 2
  reqid : BitVec 16
  stage : PersistStage
deriving DecidableEq, Repr, Inhabited

/-- A persistent request at a home (R277): requester, class, read or write, times passed over. -/
structure PersistReq where
  agent : BitVec 13
  tc : BitVec 2
  write : Bool
  passed : Nat
  reqid : BitVec 16
deriving DecidableEq, Repr, Inhabited

/-- An active entry of a home's persistent table (R276). -/
structure PersistEntry where
  sector : Nat
  winner : PersistReq
  act : BitVec 11
  since : Nat
  queue : List PersistReq
  /-- The 5 µs record has been written (R317). -/
  noted : Bool
deriving DecidableEq, Repr, Inhabited

/-- A sector an engine pins, and the requests it holds until the release (R273). -/
structure Pin where
  agent : BitVec 13
  sector : Nat
  waiting : List Msg
deriving DecidableEq, Repr, Inhabited

inductive CensusPhase where
  | deferred | round1 | wait50 | round2 | recreate
deriving DecidableEq, Repr, Inhabited

/-- A census at a sector's home (R317, R318): replies awaited, tokens and owners reported, the owner's data. -/
structure Census where
  sector : Nat
  phase : CensusPhase
  waiting : List (BitVec 13)
  until_ : Nat
  n : Nat
  owners : Nat
  dirty : Bool
  poison : Bool
  data : SectorData
deriving DecidableEq, Repr, Inhabited

/-- A discard-table entry (R319). -/
structure Discard where
  agent : BitVec 13
  sector : Nat
  serial : BitVec 3
  expiry : Nat
deriving DecidableEq, Repr, Inhabited

/-- An arrival counter (R214): home, source identity, round, arrivals. -/
structure Arrival where
  home : Nat
  srcId : W64
  round : BitVec 32
  count : Nat
deriving DecidableEq, Repr, Inhabited

/-- A posted write at its home (R274), with the warp and operation to acknowledge when it is of this module. -/
structure HomeWrite where
  home : Nat
  write : PostedWrite
  ack : Option (Nat × Nat)
deriving DecidableEq, Repr, Inhabited

/-- A host CXL.mem request at the LPDDR6 home, in delivery order (R337). -/
structure HostReq where
  write : Bool
  sector : Nat
  mask : BitVec 64
  data : SectorData
deriving DecidableEq, Repr, Inhabited

/-- A walk of an ashlar's second-level TLB that waits for tokens (R250): the core it serves, class, context, address. -/
structure Walk where
  core : Nat
  cls : BitVec 2
  ctx : BitVec 12
  va : Nat
deriving DecidableEq, Repr, Inhabited

/-- The token protocol's state. -/
structure TokenState where
  /-- Holdings by agent × 2^46 + sector. -/
  held : Sparse Holding := []
  /-- Home metadata by sector. -/
  homes : Sparse HomeMeta := []
  /-- Poisoned sectors of memory (R301). -/
  poison : Sparse Bool := []
  acts : Sparse ActState := []
  flights : List Flight := []
  reqs : List TokenReq := []
  walks : List Walk := []
  /-- Predictors by agent × 512 + entry (R275): agents that last sent tokens. -/
  predict : Sparse (List (BitVec 13)) := []
  /-- Persistent tables of all homes; the home is the sector's. -/
  persist : List PersistEntry := []
  /-- Last activation number by sector. -/
  actNo : Sparse (BitVec 11) := []
  pins : List Pin := []
  census : List Census := []
  discard : List Discard := []
  /-- Recreations: sector and time (R319). -/
  recreated : List (Nat × Nat) := []
  /-- Serials of sectors of other modules as the latest tokens or recreation named them (R319). -/
  serials : Sparse (BitVec 3) := []
  arrivals : List Arrival := []
  /-- Arrival counters that a warm reset has lost (R214): home, source identity, round. -/
  lost : List (Nat × W64 × BitVec 32) := []
  posted : List HomeWrite := []
  host : List HostReq := []
  /-- Acknowledgements of posted writes on their way back (R125): warp, operation. -/
  acks : List (Nat × Nat) := []
  nextReq : BitVec 16 := 0
  /-- Sectors of read-only-shared pages that other modules' homes have sent to the launch unit or the walker (R280): sector, data,
  poison. -/
  ros : List (Nat × SectorData × Bool) := []
deriving DecidableEq, Repr, Inhabited

/-! ### Names (R259 to R266) -/

/-- A name-table entry (R260). STATE: 0 free, 1 live, 2 tombstone. -/
structure NameEntry where
  counter : W64 := 0
  state : BitVec 2 := 0
  ctx : BitVec 12 := 0
  holds : BitVec 16 := 0
  w0 : W64 := 0
  w1 : W64 := 0
deriving DecidableEq, Repr, Inhabited

inductive NameOpKind where
  | look | lookHold | release | new | delete | cas
  /-- A hold of an ended warp, command, graph or context is released (R263). -/
  | drop
  /-- A drained tombstone is reclaimed (R264). -/
  | reclaim
deriving DecidableEq, Repr, Inhabited

/-- Who asks: a warp's instruction, with its operation number and destination, a hart's port, or the hub itself. -/
inductive NameAsker where
  | warp (w id : Nat) (sd : BitVec 6)
  | port (h : Nat)
  | hub
deriving DecidableEq, Repr, Inhabited

/-- A name operation under way (R178). Addresses are domain byte addresses of the operands, read at issue. -/
structure NameOp where
  asker : NameAsker
  kind : NameOpKind
  ctx : BitVec 12
  name : BitVec 128
  /-- The body to enter, or NCAS's expected and new bodies. -/
  b0 : W64
  b1 : W64
  n0 : W64
  n1 : W64
  /-- Where NNEW stores the name and NCAS the current body: the first word, and the second; none outside every range. -/
  out : Option (Nat × Nat)
  /-- NNEW: it waits for the next reservation's flash write (R265). -/
  waitFlash : Bool
  /-- A port's operation whose operands are still to be read. -/
  fetch : Bool := false
deriving DecidableEq, Repr, Inhabited

/-- The name port of a hart (R266). -/
structure NamePort where
  /-- The command as last written, GO reading 0. -/
  npcmd : W64 := 0
  npa : W64 := 0
  npb : W64 := 0
  npst : W64 := 0
  npw0 : W64 := 0
  npw1 : W64 := 0
  /-- Holds taken through the port: context and counter value. -/
  holds : List (BitVec 12 × W64) := []
deriving DecidableEq, Repr, Inhabited

/-- The hub's name logic. -/
structure NameState where
  /-- Entries by 8 × bucket + place. -/
  table : Sparse NameEntry := []
  /-- The next counter value, and the end of the reservation. -/
  next : W64 := 0
  resEnd : W64 := 0
  /-- The end of the last reservation in flash (R265, R342). -/
  flashEnd : W64 := 0
  flashBusy : Bool := false
  ops : List NameOp := []
  chip : BitVec 32 := 0
  reclaim : W64 := 0
  recHead : BitVec 12 := 0
  recTail : BitVec 12 := 0
deriving DecidableEq, Repr, Inhabited

/-! ### Harts (R4, R221, R232, R256) -/

/-- The privilege modes of a hart with the Hypervisor extension. -/
inductive HartMode where
  | u | s | m | vs | vu
deriving DecidableEq, Repr, Inhabited

/-- A hart, as far as the manual speaks of it: registers, pc, mode, its address space's binding and partition, its
reservation, and the accesses that its next release must wait for. -/
structure Hart where
  x : Sparse W64 := []
  pc : Nat := 0
  mode : HartMode := .m
  ctx : Option (BitVec 12) := none
  part : BitVec 16 := 0
  reserved : Option Nat := none
  /-- Floating-point registers, vector registers by byte, and control and status registers by number (R4). -/
  f : Sparse W64 := []
  v : Sparse Byte := []
  csr : Sparse W64 := []
  /-- Stores that are not performed yet, oldest first: domain address and bytes (R221). -/
  buffer : List (Nat × List Byte) := []
  /-- The access that waits for tokens (R275). -/
  wait : Option HartOp := none
  /-- The hart stands at a `gx.launch` or `gx.replay` that waits (R232). -/
  launching : Bool := false
  /-- A load of a name at this address failed (R232). -/
  fault : Option Nat := none
  /-- An illegal-instruction exception was raised at this instruction word (R232, R256). -/
  illegal : Option (BitVec 32) := none
deriving DecidableEq, Repr, Inhabited

/-! ### Links (R13, R287, R320, R328) -/

/-- What leaves on a selvage link. -/
inductive LinkItem where
  | token (m : Msg)
  /-- A collective packet, with the command that sends it from this module (R292). -/
  | packet (p : Packet) (owner : Option CmdOwner)
  | round (type : BitVec 3) (m : RoundMsg)
  | write (w : PostedWrite) (warp id : Nat)
  | query (srcId : W64) (round : BitVec 32) (t : Touch)
  | reply (srcId : W64) (round : BitVec 32) (home : Nat) (arrivals : Nat) (reset : Bool)
deriving DecidableEq, Repr, Inhabited

/-- A fault injector (R328). -/
structure Injector where
  w0 : W64 := 0
  w1 : W64 := 0
  /-- The messages it holds back, and until when. -/
  taken : List (LinkItem × Nat) := []
deriving DecidableEq, Repr, Inhabited

/-- A selvage link: trained or not, lanes and spare in use, the recent resends by lane and time, what waits to be transmitted, and what was
transmitted and is kept for resending. -/
structure Link where
  trained : Bool := false
  lanes : Nat := 8
  spareUsed : Bool := false
  resends : List (Nat × Nat) := []
  /-- Bytes of each channel pair's buffer at the far end that sent chunks take or will take (R289). -/
  used : Sparse Nat := []
  queue : List LinkItem := []
  replay : List LinkItem := []
  inj : Injector := {}
deriving DecidableEq, Repr, Inhabited

/-! ### Black box, repair map, system (R323, R321, R335) -/

/-- A black-box record as its four words (R324). -/
structure BoxRecord where
  w0 : W64 := 0
  w1 : W64 := 0
  w2 : W64 := 0
  w3 : W64 := 0
deriving DecidableEq, Repr, Inhabited

/-- The spans of R7; their numbers are those of MODSTAT.SPAN. -/
inductive Span where
  | auxiliary | bringUp | service | recovery
deriving DecidableEq, Repr, Inhabited

/-- A reply of the side-band port: completion code and data words (R340), or a sensor or report value (R339). -/
structure SideReply where
  code : BitVec 8
  words : List W64
deriving DecidableEq, Repr, Inhabited

/-- A storage structure that corrects single errors (R300). -/
inductive Structure where
  | lastLevelCache | l2 | scratchpad | registerCache | fifo | tile
deriving DecidableEq, Repr, Inhabited

/-- An error that a storage structure detects (R300, R301, R320). -/
inductive Upset where
  /-- A corrected error in a structure of a core, at a physical address or an index. -/
  | corrected (what : Structure) (core : Nat) (at_ : W64)
  /-- A clean L1 line fails parity. -/
  | l1 (core line : Nat)
  /-- An uncorrectable error in the copy of a sector that an agent holds. -/
  | held (agent : BitVec 13) (sector : Nat)
  /-- An uncorrectable error in a home's last-level cache, in a way of a set group. -/
  | way (sector group way : Nat)
  /-- An uncorrectable error in a scratchpad bank of a core. -/
  | bank (core bank : Nat)
  /-- A bit of a sector's metadata, or of their parity, has changed. -/
  | metadata (sector bit : Nat)
  /-- A through-silicon channel of an ashlar fails. -/
  | channel (ashlar channel : Nat)
  /-- A link layer of a seam link resends over a lane. -/
  | seamResend (ashlar lane : Nat)
deriving DecidableEq, Repr, Inhabited

/-- The module's system logic. -/
structure SysState where
  span : Span := .auxiliary
  /-- Auxiliary power is good. -/
  auxPg : Bool := true
  mainPg : Bool := false
  perst : Bool := false
  modid : BitVec 3 := 0
  epoch : BitVec 16 := 0
  clk : Nat := 3300
  therm : Bool := false
  capw : BitVec 16 := 2600
  dllc : Bool := false
  /-- A requested warm reset has not been applied (R8). -/
  resetPending : Bool := false
  pass : BitVec 24 := 0
  spares : BitVec 8 := 0
  /-- Arrays that the self-test of the latest bring-up found fenced or out of service, counted up to 255 (R326). -/
  fencedArrays : BitVec 8 := 0
  /-- Clock of the time base (R83): ns since the latest bring-up ended; and ns since auxiliary power good. -/
  time : Nat := 0
  auxTime : Nat := 0
  box : Sparse BoxRecord := []
  boxHead : BitVec 32 := 0
  /-- The factory section's one record that the manual fixes is the chip identity (R14, R321). -/
  factory : Sparse (BitVec 128) :=
    [(0, BitVec.ofNat 128 (9 * 2 ^ 120 + (if Config.chipNumber = 0 then 1 else Config.chipNumber.toNat)))]
  fieldMap : Sparse (BitVec 128) := []
  fieldCount : Nat := 0
  fieldGood : Bool := true
  factoryGood : Bool := true
  /-- The repair records that the latest bring-up has brought in (R3, R9, R10). -/
  repairs : List (BitVec 128) := []
  /-- Corrected errors of DRAM rows: row and time (R320). -/
  rowErrors : List (Nat × Nat) := []
  /-- Recent resends of seam lanes by ashlar × 4096 + lane, and lanes that have been replaced or dropped (R320). -/
  seamResends : List (Nat × Nat) := []
  seamSwapped : List Nat := []
  /-- Last-level cache ways that take no further allocation: home, set group, way (R320). -/
  deadWays : List (Nat × Nat × Nat) := []
  /-- Flash images: what the next bring-up will find (R339, R342). -/
  flash : FirmwareImage := ⟨true, true, false⟩
  /-- Interrupt sources pending, source k in bit k (R338). -/
  pending : BitVec 11 := 0
  msix0 : Nat := 0
  pldmEvents : Nat := 0
  /-- Replies sent on the side-band port and answers of host reads, newest first. -/
  replies : List SideReply := []
  hostReads : List (Nat × SectorData × Bool) := []
  /-- Answers of host writes, newest first: the sector, and whether it ended with the poison indication (R336). -/
  hostWrites : List (Nat × Bool) := []
  /-- Answers of BAR0 and configuration space, newest first: the offset and the value (R336). -/
  hostRegs : List (Nat × W64) := []
  /-- The host-managed range of module LPDDR6 that the resident OS has placed: its local address and its bytes (R336). -/
  hostRange : Option (Nat × Nat) := none
  /-- The hart to which the resident OS routes an interrupt source, at machine or supervisor level (R338). -/
  routes : Sparse (Option (Bool × Nat)) := []
  ctxBase : W64 := 0
  channels : Sparse W64 := []
  audctl : W64 := 8
  audDone : BitVec 32 := 0
  audSkip : BitVec 32 := 0
deriving DecidableEq, Repr, Inhabited

/-! ### Issue, auditor, launch -/

/-- A batch the auditor has sampled and not yet compared (R313, R315). -/
structure AuditBatch where
  core : Nat
  warp : Nat
  ctx : BitVec 12
  batch : W64
  /-- Operation numbers of the batch's matrix instructions. -/
  members : List Nat
  /-- Matrix instructions with the tile rows they started from and what they produced. -/
  ops : List (MatOp × Sparse W32)
  /-- The signature of the first results. -/
  sig : W64
  /-- Bytes that its copies take or will take in the ashlar's buffer (R313). -/
  bytes : Nat
  complete : Bool
deriving DecidableEq, Repr, Inhabited

/-- An agreement round as a receiver holds it (R290): pair, version, the proposer answered, the mask. -/
structure HeldRound where
  pair : BitVec 4
  version : BitVec 32
  proposer : BitVec 3
  mask : BitVec 8
  /-- ACK waits for the receiver's own packets of that version. -/
  acked : Bool
deriving DecidableEq, Repr, Inhabited

/-- How the issue under way stands after its last slot. -/
inductive IssueStatus where
  /-- The slot executed. -/
  | ok
  /-- The bundle waits; the slot had no effect and will be tried again. -/
  | wait
  /-- A trap was taken. -/
  | trapped
  /-- The unit no longer stands at the bundle (its warp or context ended, or its lanes parked). -/
  | gone
deriving DecidableEq, Repr, Inhabited

/-- The issue under way: which unit of which warp, its lanes, helpers and the lanes where the guard passes, and the
decided transfer (R40). -/
structure Issue where
  w : Nat := 0
  u : Nat := 0
  lanes : Lanes := 0
  helpers : Lanes := 0
  /-- Active lanes where the guard passes. -/
  guard : Lanes := 0
  gscope : Bool := false
  /-- Address of the bundle. -/
  pc : Nat := 0
  /-- The last bundle of its block. -/
  last : Bool := false
  slotVec : Bool := false
  xfer : Option Transfer := none
  /-- Completion flags that an instruction of the bundle has cleared (R193). -/
  cleared : BitVec 12 := 0
  status : IssueStatus := .ok
  snap : WarpArch := {}
  /-- The sectors that the slot has read (R122). -/
  reads : List SectorRead := []
deriving DecidableEq, Repr, Inhabited

/-- A step the machine can take: one cc of a scheduler, one event, one instruction of a hart, time passing, an arrival
from another module, an engine's next piece, or an eviction of a cache that holds no tokens. -/
inductive Action where
  | cycle (core sched : Nat)
  | event (i : Instr) (a : EventArgs)
  | hart (h : Nat)
  | tick (ns : Nat)
  | arrive (m : Msg)
  | arrivePacket (link : Nat) (p : Packet)
  | arriveRound (type : BitVec 3) (m : RoundMsg)
  | arriveWrite (w : PostedWrite)
  /-- The running command of an engine reads or writes its next piece (R172); another module's home answers a read of a
  read-only-shared sector with `data` (R280). -/
  | engineMove (k : Nat) (data : SectorData) (poison : Bool)
  /-- A walk that waited for tokens goes on (R250, R275). -/
  | walk (w : Walk)
  /-- A unit whose scalar slot waits for tokens goes on with it (R275). -/
  | resume (w u : Nat)
  /-- Another module's home answers a read of a read-only-shared sector by a waiting scalar slot (R280). -/
  | rosArrive (w u sec : Nat) (data : SectorData) (poison : Bool)
  /-- Other modules' homes answer the reads of the launch unit or the walker (R280). -/
  | rosHub (l : List (Nat × SectorData × Bool))
  /-- A hart's oldest store that overlaps none before it is performed (R221). -/
  | hartDrain (h k : Nat)
  /-- The far end of a link has freed buffer room of a channel pair (R289). -/
  | linkRoom (l pair bytes : Nat)
  /-- A storage structure detects an error (R300). -/
  | upset (u : Upset)
  /-- The host reads BAR0 at an offset, or configuration space (R336). -/
  | hostRead (config : Bool) (off : Nat)
  /-- The resident OS places the host-managed range of LPDDR6: its local address and its GiB (R336). -/
  | hostRange (base gib : Nat)
  /-- The resident OS routes an interrupt source to a hart, at machine or supervisor level (R338). -/
  | route (source : Nat) (machine : Bool) (hart : Nat)
  /-- A hart takes an interrupt that is routed to it (R338). -/
  | hartInterrupt (h : Nat)
  | dropL1 (core line : Nat)
  | dropTlb (core k : Nat)
  | dropName (core k : Nat)
  /-- The far link layer has accepted an item that a link transmitted (R13, R292). -/
  | linkAccepted (l k : Nat)
deriving DecidableEq, Repr, Inhabited

/-- Who moves next when no step is on the agenda, by a counter of State: the order in which agents move, and what arrives
from outside, are free values (R188, R196, R270). -/
opaque chooseAction : Nat → Action

end Sys2Proof.Machine
end

