-- ==== Sys2Proof/Machine/State.lean ====
section
/-! DEFINITION. The machine's state, the reasons it stops, and the state after reset. Plain data throughout. -/

namespace Sys2Proof.Machine

/-- Why a run stops with a fault. -/
inductive Fault where
  /-- The name of a fault for an access to an address outside every range. Nothing raises it: the rules give every such
  access an outcome of its own, which the model takes (R114 check 3, R254, R333). Safe. -/
  | noSuchAddress
deriving DecidableEq, Repr, Inhabited

/-- Why the model gives an instruction no meaning. -/
inductive Refusal where
  /-- Raised by the dispatcher for an instruction that has no meaning in the model. Safe. -/
  | notModelled (mnemonic : String)
  /-- Raised when a hart reaches an instruction other than `gx.launch` and `gx.replay`: the RISC-V instructions are those
  of the RISC-V specification, which the manual does not restate. Safe. -/
  | riscvInstruction
deriving DecidableEq, Repr, Inhabited

/-- The state of one module (R1), with the model's own bookkeeping: the agenda of steps, the event's data, the issue
under way, and the counters that select free values. -/
structure State where
  /-- Memory at its homes: bytes by physical address (R333), strictly rising, none equal to an unlisted byte. -/
  mem : List Host.Cell
  /-- Words (domain byte address ÷ 8) stored to since the code object that holds them was launched (R199). -/
  codeDirty : Sparse Bool
  warps : Sparse Warp
  blocks : Sparse Block
  /-- What pre-emption has written of blocks that are not resident (R191, R239, R240). -/
  areas : Sparse SaveArea
  cores : Sparse Core
  /-- Second-level TLBs by ashlar (R250). -/
  tlb2 : Sparse (List TlbEntry)
  grids : Sparse Grid
  /-- Class queues by 4 × context + class (R233): grid ids, oldest first. -/
  queues : Sparse (List Nat)
  /-- Last sequence numbers by context (R232). -/
  seqs : Sparse (BitVec 48)
  /-- The context served last in each class (R234). -/
  served : List Nat
  graphs : Sparse Graph
  donations : List Donation
  /-- Contexts whose resident warps have all stood in waits that count for donation, and since when (R241). -/
  waitSince : Sparse Nat
  /-- Contexts being removed (R244): context, tenant path. -/
  removing : List (BitVec 12 × Bool)
  cmds : List Cmd
  /-- The pair each engine served last (R293). -/
  lastPair : Sparse Nat
  pool : Sparse Byte
  /-- Bytes that EBLK put and no flush has followed (R177): the order of the put, context, pool address, byte, oldest first. -/
  poolPend : List (Nat × BitVec 12 × Nat × Byte)
  rounds : List HeldRound
  /-- Packets in this module's link inputs, each with its link, and round messages (R289). -/
  packets : List (Nat × Packet)
  roundMsgs : List (BitVec 3 × RoundMsg)
  audit : List AuditBatch
  tok : TokenState
  names : NameState
  ports : Sparse NamePort
  harts : Sparse Hart
  links : Sparse Link
  sys : SysState
  /-- The next block, grid, graph and placement number. -/
  nextId : Nat
  /-- Steps to take before any other, oldest first. -/
  agenda : List Action
  /-- Counts the steps taken of the machine's own choice. -/
  moves : Nat
  /-- Counts the free values taken. -/
  free : Nat
  /-- The data of the event under way. -/
  ev : EventArgs
  cur : Issue
deriving DecidableEq, Repr, Inhabited

/-- The module right after auxiliary power is good (R7, R335): the auxiliary span, an empty black box, main power
absent. Registers with no stated reset value hold zero. -/
def State.reset : State where
  mem := []
  codeDirty := []
  warps := []
  blocks := []
  areas := []
  cores := []
  tlb2 := []
  grids := []
  queues := []
  seqs := []
  served := [4095, 4095, 4095, 4095]
  graphs := []
  donations := []
  waitSince := []
  removing := []
  cmds := []
  lastPair := []
  pool := []
  poolPend := []
  rounds := []
  packets := []
  roundMsgs := []
  audit := []
  tok := {}
  names := {}
  ports := []
  harts := []
  links := []
  sys := {}
  nextId := 1
  agenda := []
  moves := 0
  free := 0
  ev := default
  cur := {}

end Sys2Proof.Machine
end

