-- ==== Sys2Proof/Machine/Memory.lean ====
section
/-! DEFINITION. Memory at its homes: the physical map (R333), bytes and sectors, and the sparse tables of State. -/

namespace Sys2Proof.Machine

/-! ### Bytes -/

/-- What a byte that nothing has written reads as. DESIGN CHOICE: zero (log entry 1). -/
def unwritten : Byte := 0

/-- The canonical form of memory: addresses strictly rising, no entry equal to an unwritten byte. -/
abbrev Memory.wf (m : List Host.Cell) : Prop := Sparse.wf unwritten m = true

/-- One byte of memory at its home. -/
def readByte (m : List Host.Cell) (a : Nat) : Byte := Sparse.get unwritten m a

/-- Memory with one byte replaced; the canonical form is kept. -/
def writeByte (m : List Host.Cell) (a : Nat) (b : Byte) : List Host.Cell := Sparse.set unwritten m a b

/-- `n` bytes from an address upward. -/
def readBytes (m : List Host.Cell) (a n : Nat) : List Byte := Sparse.getRun unwritten m a n

/-- A run of bytes written from an address upward. -/
def writeBytes (m : List Host.Cell) (a : Nat) (bs : List Byte) : List Host.Cell := Sparse.setRun unwritten m a bs

/-! ### Sectors (R267): 64 bytes, byte 0 in bits [7:0] -/

def sectorOfBytes (bs : List Byte) : SectorData := BitVec.ofNat 512 (leValue bs)

/-- `n` bytes of a sector from byte `off`. -/
def sectorBytes (d : SectorData) (off n : Nat) : List Byte := leSplit n (d.toNat / 2 ^ (8 * off))

/-- A sector with a run of bytes replaced from byte `off`. -/
def sectorPut (d : SectorData) (off : Nat) (bs : List Byte) : SectorData :=
  BitVec.ofNat 512 (setBits d.toNat (8 * off) (8 * bs.length) (leValue bs))

/-- Bytes written under a byte mask, from byte `k` up. -/
def maskedBytes : Nat → Nat → Nat → SectorData → SectorData → SectorData
  | 0, _, _, _, acc => acc
  | n + 1, k, mask, d, acc =>
    maskedBytes n (k + 1) mask d (if bitOf mask k then sectorPut acc k (sectorBytes d k 1) else acc)

/-- A sector with the bytes of `mask` taken from `d`. -/
def sectorMerge (old d : SectorData) (mask : BitVec 64) : SectorData := maskedBytes 64 0 mask.toNat d old

/-! ### The physical map (R333) -/

def windowBase : Nat := 2 ^ 48
def windowStride : Nat := 2 ^ 45
def dramEnd : Nat := 0x3000000000
def lpddrBase : Nat := 0x4000000000
def lpddrEnd : Nat := 0x14000000000
def carveBase : Nat := 2 ^ 51
def carveStride : Nat := 2 ^ 28
def carveSize : Nat := 2 ^ 26
def controlBase : Nat := 0xF000000000000
def controlSize : Nat := 0x800000

/-- Where a physical address leads. -/
inductive PhysPlace where
  /-- Stacked DRAM or LPDDR6 of a module, at a local address. -/
  | memory (module localAddr : Nat)
  /-- The directly addressed carve-out of an ashlar. -/
  | carve (ashlar : Nat)
  | control (off : Nat)
  | nowhere
deriving DecidableEq, Repr, Inhabited

/-- An address that names DRAM or LPDDR6 within a module. -/
def isMemory (x : Nat) : Bool := decide (x < dramEnd) || (decide (lpddrBase ≤ x) && decide (x < lpddrEnd))

/-- The decoding of a physical address. -/
def physPlace (sys : SysState) (pa : Nat) : PhysPlace :=
  if isMemory pa then .memory sys.modid.toNat pa
  else if windowBase ≤ pa ∧ pa < 2 * windowBase then
    let x := (pa - windowBase) % windowStride
    let m := (pa - windowBase) / windowStride
    if isMemory x ∧ (m = sys.modid.toNat ∨ Config.inDomain m) then .memory m x else .nowhere
  else if carveBase ≤ pa ∧ pa < carveBase + 8 * carveStride ∧ sys.dllc ∧ (pa - carveBase) % carveStride < carveSize then
    .carve ((pa - carveBase) / carveStride)
  else if controlBase ≤ pa ∧ pa < controlBase + controlSize then .control (pa - controlBase)
  else .nowhere

/-- The domain address of memory held under tokens (R333). -/
def domainAddr (sys : SysState) (pa : Nat) : Option Nat :=
  match physPlace sys pa with
  | .memory m x => some (windowBase + windowStride * m + x)
  | .carve _ => some pa
  | _ => none

/-- The sector of tokens that a physical sector number names: the one of its domain address (R333). -/
def domainSector (sys : SysState) (sec : Nat) : Option Nat := (domainAddr sys (64 * sec)).map (· / 64)

/-- The local physical address of a domain address of the own module. -/
def localAddr (sys : SysState) (da : Nat) : Option Nat :=
  match physPlace sys da with
  | .memory m x => if m = sys.modid.toNat then some x else none
  | .carve _ => some da
  | _ => none

/-- A sector's physical address, for a record: the local one where the module holds it, else the domain address. -/
def sectorPhysical (sys : SysState) (sec : Nat) : W64 := BitVec.ofNat 64 ((localAddr sys (64 * sec)).getD (64 * sec))

/-- The module that holds a domain address. -/
def moduleOf (sys : SysState) (da : Nat) : Nat :=
  match physPlace sys da with
  | .memory m _ => m
  | _ => sys.modid.toNat

/-- The sector by which tokens name a pair of name-table entries (R259, R269): bucket b is homed on ashlar b mod 8. The manual gives
the table no domain address; this one lies outside every range of R333, so that no access reaches it. DESIGN CHOICE (log
entry 90). -/
def nameSector (key : Nat) : Nat :=
  let bucket := key / 8
  (carveBase + carveStride * (bucket % 8) + carveSize) / 64 + 4 * (bucket / 8) + key % 8 / 2

/-- The address is a name-table sector's, of which ashlar. -/
def nameAshlar (da : Nat) : Option Nat :=
  let x := (da - carveBase) % carveStride
  if carveBase ≤ da ∧ da < carveBase + 8 * carveStride ∧ carveSize ≤ x ∧ x < 2 * carveSize then some ((da - carveBase) / carveStride) else none

/-- The home of a domain address within its module: ashlars 0 to 7, and 8 for the LPDDR6 (R213, R269). -/
def homeIndex (sys : SysState) (da : Nat) : Nat :=
  match physPlace sys da with
  | .memory _ x => if x < dramEnd then x / 0x600000000 else 8
  | .carve a => a
  | _ => (nameAshlar da).getD 8

/-- The home's agent number (R268). -/
def homeAgent (sys : SysState) (da : Nat) : BitVec 13 :=
  BitVec.ofNat 13 (1024 * moduleOf sys da + 512 + homeIndex sys da)

/-- An agent number of this module (R268). -/
def ownAgent (sys : SysState) (loc : Nat) : BitVec 13 := BitVec.ofNat 13 (1024 * sys.modid.toNat + loc)

/-- The local number of an agent. -/
def agentLocal (a : BitVec 13) : Nat := a.toNat % 1024

/-- The agent belongs to this module. -/
def isOwnAgent (sys : SysState) (a : BitVec 13) : Bool := a.toNat / 1024 == sys.modid.toNat

/-- The local number is a home's. -/
def isHomeLocal (n : Nat) : Bool := decide (512 ≤ n) && decide (n ≤ 520)

/-- The local number is assigned (R268). -/
def agentExists (n : Nat) : Bool := decide (n ≤ 221) || isHomeLocal n

/-- The byte address of a sector. -/
def sectorBase (sec : Nat) : Nat := sec * 64

/-- The data of a sector of this module's memory at its home. -/
def homeData (s : State) (sec : Nat) : SectorData :=
  match localAddr s.sys (sectorBase sec) with
  | some pa => sectorOfBytes (readBytes s.mem pa 64)
  | none => 0

/-- A sector written at its home. -/
def setHomeData (s : State) (sec : Nat) (d : SectorData) : State :=
  match localAddr s.sys (sectorBase sec) with
  | some pa => { s with mem := writeBytes s.mem pa (sectorBytes d 0 64) }
  | none => s

/-! ### The tables of State -/

/-- Look a key up in a table without a default. -/
def Sparse.find {α : Type} : Sparse α → Nat → Option α
  | [], _ => none
  | (k, v) :: xs, key => if key = k then some v else Sparse.find xs key

/-- A warp: resident or saved; the default warp where there is none. -/
def State.warp (s : State) (w : Nat) : Warp := (Sparse.find s.warps w).getD {}

def State.setWarp (s : State) (w : Nat) (x : Warp) : State := { s with warps := Sparse.insert w x s.warps }

def State.block (s : State) (b : Nat) : Block := (Sparse.find s.blocks b).getD {}

def State.setBlock (s : State) (b : Nat) (x : Block) : State := { s with blocks := Sparse.insert b x s.blocks }

def State.core (s : State) (c : Nat) : Core := Sparse.get {} s.cores c

def State.setCore (s : State) (c : Nat) (x : Core) : State := { s with cores := Sparse.set {} s.cores c x }

def State.hart (s : State) (h : Nat) : Hart := Sparse.get {} s.harts h

def State.setHart (s : State) (h : Nat) (x : Hart) : State := { s with harts := Sparse.set {} s.harts h x }

def State.port (s : State) (h : Nat) : NamePort := Sparse.get {} s.ports h

def State.setPort (s : State) (h : Nat) (x : NamePort) : State := { s with ports := Sparse.set {} s.ports h x }

def State.link (s : State) (l : Nat) : Link := Sparse.get {} s.links l

def State.setLink (s : State) (l : Nat) (x : Link) : State := { s with links := Sparse.set {} s.links l x }

def State.setGrid (s : State) (g : Nat) (x : Grid) : State := { s with grids := Sparse.insert g x s.grids }

def State.setGraph (s : State) (g : Nat) (x : Graph) : State := { s with graphs := Sparse.insert g x s.graphs }

/-- The warps of a block, in warp order: keys are 16 × block + index. -/
def State.blockWarps (s : State) (b : Nat) : List (Nat × Warp) := s.warps.filter (fun e => e.2.blk == b)

/-- The key of a warp. -/
def warpKey (blk idx : Nat) : Nat := 16 * blk + idx

/-- The ashlar of a core (R3). -/
def ashlarOf (core : Nat) : Nat := core / 12

/-- The ns since the end of the latest bring-up (R83). -/
def State.now (s : State) : Nat := s.sys.auxTime

end Sys2Proof.Machine
end

