-- ==== Sys2Proof/Machine/Holdings.lean ====
section
/-! DEFINITION. Token holdings (R267, R269, R274), the coherent value of a sector, token messages and requests
(R270, R275). -/

namespace Sys2Proof.Machine

/-! ### Holdings -/

/-- The key of an agent's holding of a sector. -/
def holdKey (agent : BitVec 13) (sec : Nat) : Nat := agent.toNat * 2 ^ 46 + sec

/-- The agent is a home of this module, and the sector's own. -/
def isHomeOf (s : State) (agent : BitVec 13) (sec : Nat) : Bool :=
  agent == homeAgent s.sys (sectorBase sec) && isOwnAgent s.sys agent

/-- What an agent of this module holds of a sector. A home holds COUNT + OWNER tokens, its data current exactly when
OWNER = 1 (R269). -/
def holding (s : State) (agent : BitVec 13) (sec : Nat) : Holding :=
  if isHomeOf s agent sec then
    let m := Sparse.get ({} : HomeMeta) s.tok.homes sec
    { tokens := m.count.toNat + boolNat m.owner, owner := m.owner, dirty := false, valid := m.owner,
      poison := Sparse.get false s.tok.poison sec, data := homeData s sec }
  else Sparse.get {} s.tok.held (holdKey agent sec)

/-- The token state with an agent's holding replaced; a holding without tokens is no entry. -/
def TokenState.setHeld (t : TokenState) (key : Nat) (h : Holding) : TokenState :=
  { t with held := Sparse.set {} t.held key (if h.tokens = 0 then {} else h) }

/-- An agent's holding replaced. A home that receives the owner takes its data when DIRTY (R274); its poison travels with
the data (R301). -/
def setHolding (s : State) (agent : BitVec 13) (sec : Nat) (h : Holding) : State :=
  if isHomeOf s agent sec then
    let m := Sparse.get ({} : HomeMeta) s.tok.homes sec
    let m' := { m with owner := h.owner, count := BitVec.ofNat 11 (h.tokens - boolNat h.owner) }
    let s1 := if h.owner && h.dirty then
        { setHomeData s sec h.data with tok := { s.tok with poison := Sparse.set false s.tok.poison sec h.poison } }
      else s
    { s1 with tok := { s1.tok with homes := Sparse.set {} s1.tok.homes sec m' } }
  else { s with tok := s.tok.setHeld (holdKey agent sec) h }

/-- The sector's data where this module has the owner token or valid data: at the home, with an agent, or in a message (R267). -/
def foundSector (s : State) (sec : Nat) : Option (SectorData × Bool) :=
  let home := holding s (homeAgent s.sys (sectorBase sec)) sec
  if isHomeOf s (homeAgent s.sys (sectorBase sec)) sec && home.owner then some (home.data, home.poison)
  else
    match s.tok.held.find? (fun e => e.1 % 2 ^ 46 == sec && e.2.valid) with
    | some e => some (e.2.data, e.2.poison)
    | none => (s.tok.flights.find? (fun f => f.msg.sector == sec && f.msg.owner && decide (f.msg.type.toNat ≤ 5))).map
        (fun f => (f.msg.data.getD 0, f.poison))

/-- The sector's coherent data: found in this module, else as its home last had it. -/
def coherentSector (s : State) (sec : Nat) : SectorData × Bool :=
  let home := holding s (homeAgent s.sys (sectorBase sec)) sec
  (foundSector s sec).getD (home.data, home.poison)

/-- The sector's coherent data, if this module has it or is its home. -/
def knownSector (s : State) (sec : Nat) : Option (SectorData × Bool) :=
  if isHomeOf s (homeAgent s.sys (sectorBase sec)) sec then some (coherentSector s sec) else foundSector s sec

/-- `n` bytes at a domain address, within one sector, in their coherent value. -/
def coherentBytes (s : State) (da n : Nat) : List Byte := sectorBytes (coherentSector s (da / 64)).1 (da % 64) n

/-- The 64-bit word at a domain address in its coherent value. -/
def coherentWord (s : State) (da : Nat) : Nat := leValue (coherentBytes s da 8)

/-! ### What stops an agent from answering -/

/-- An agent's knowledge of a sector's persistent requests. -/
def actState (s : State) (agent : BitVec 13) (sec : Nat) : ActState := Sparse.get {} s.tok.acts (holdKey agent sec)

def setAct (s : State) (agent : BitVec 13) (sec : Nat) (a : ActState) : State :=
  { s with tok := { s.tok with acts := Sparse.set {} s.tok.acts (holdKey agent sec) a } }

/-- An engine pins the sector (R136, R273). -/
def pinnedBy (s : State) (sec : Nat) : Option (BitVec 13) := (s.tok.pins.find? (fun p => p.sector == sec)).map (·.agent)

/-- The agent holds the sector pinned. -/
def pins (s : State) (agent : BitVec 13) (sec : Nat) : Bool :=
  s.tok.pins.any (fun p => p.agent == agent && p.sector == sec)

/-- The agent gives nothing of the sector for now: an active persistent request of another, or a census. -/
def blockedFor (s : State) (agent : BitVec 13) (sec : Nat) : Bool :=
  let a := actState s agent sec
  a.frozen || (match a.winner with | some x => x != agent | none => false)

/-! ### Messages -/

/-- ns for a number of cc at the current clock. -/
def ccToNs (s : State) (cc : Nat) : Nat := (cc * 1000 + s.sys.clk - 1) / max s.sys.clk 1

/-- Put an item in the queue of a selvage link. -/
def linkSend (s : State) (l : Nat) (x : LinkItem) : State :=
  let k := s.link l
  s.setLink l { k with queue := k.queue ++ [x] }

/-- The agents of this module. -/
def ownAgents (s : State) : List (BitVec 13) :=
  ((List.range 222) ++ (List.range 9).map (512 + ·)).map (ownAgent s.sys)

/-- Send a token message to agents: those of this module by seam links, the others by a selvage link. -/
def sendTo (s : State) (m : Msg) (poison : Bool) (dests : List (BitVec 13)) : State :=
  let own := dests.filter (fun d => isOwnAgent s.sys d && d != m.src)
  let far := dests.filter (fun d => !isOwnAgent s.sys d)
  let s1 := if own.isEmpty then s else
    { s with tok := { s.tok with flights := s.tok.flights ++ [⟨m, own, poison, false⟩] } }
  far.foldl (fun t d => linkSend t (Config.linkTo (d.toNat / 1024) % 24) (.token { m with dst := d })) s1

/-- A message without tokens. -/
def plainMsg (type : BitVec 8) (sec : Nat) (src dst : BitVec 13) (reqid : BitVec 16) (tc : BitVec 2) : Msg :=
  {
    type := type, reqid := reqid, sector := sec, dst := dst, src := src, count := 0, data := none, tc := tc,
    dirty := false, owner := false, serial := 0, poison := false }

/-- The serial an agent's message carries: the sector's current one, at its home or as last named here (R269, R319). -/
def serialOf (s : State) (sec : Nat) : BitVec 3 :=
  if moduleOf s.sys (sectorBase sec) = s.sys.modid.toNat then (Sparse.get ({} : HomeMeta) s.tok.homes sec).serial
  else Sparse.get 0 s.tok.serials sec

/-- Send `n` tokens of a holding, with the owner or without (R272): TOK without data, TKD or WBK with it. -/
def sendTokens (s : State) (src dst : BitVec 13) (sec : Nat) (type : BitVec 8) (n : Nat) (withOwner withData : Bool)
    (reqid : BitVec 16) (tc : BitVec 2) : State :=
  let h := holding s src sec
  let rest : Holding := { h with tokens := h.tokens - n, owner := h.owner && !withOwner,
                                 dirty := h.dirty && !withOwner, valid := h.valid && decide (n < h.tokens) }
  let m : Msg := {
    type := type, reqid := reqid, sector := sec, dst := dst, src := src,
    count := BitVec.ofNat 11 (n - boolNat withOwner), data := if withData then some h.data else none, tc := tc,
    dirty := h.dirty && withOwner, owner := withOwner, serial := serialOf s sec, poison := h.poison }
  sendTo (setHolding s src sec rest) m h.poison [dst]

/-! ### Requests (R275) -/

/-- The tokens an access needs: one with valid data for a read, all 2048 for a write (R275). -/
def holdsEnough (s : State) (agent : BitVec 13) (sec : Nat) (write : Bool) : Bool :=
  let h := holding s agent sec
  if write then h.tokens == 2048 else h.valid && decide (1 ≤ h.tokens)

/-- The agent has a pending persistent request for the sector: it performs nothing on it until it is activated (R277). -/
def isPending (s : State) (agent : BitVec 13) (sec : Nat) : Bool :=
  s.tok.reqs.any (fun r => r.agent == agent && r.sector == sec && r.stage == .pending)

/-- The agent may perform: it holds what the access needs, and has no pending persistent request for the sector. -/
def satisfied (s : State) (agent : BitVec 13) (sec : Nat) (write : Bool) : Bool :=
  holdsEnough s agent sec write && !isPending s agent sec

/-- The other modules of the coherence domain. -/
def otherModules (s : State) : List Nat := (List.range 8).filter (fun k => k != s.sys.modid.toNat && Config.inDomain k)

/-- The cc of an attempt's timer (R275). -/
def attemptCc (s : State) (sec : Nat) : Nat :=
  if moduleOf s.sys (sectorBase sec) = s.sys.modid.toNat then 600 else 10000

/-- The predicted agents (R275): bits [20:12] of the address index the predictor. -/
def predicted (s : State) (agent : BitVec 13) (sec : Nat) : List (BitVec 13) :=
  Sparse.get [] s.tok.predict (agent.toNat * 512 + sec / 64 % 512)

/-- Send the request message of an attempt (R275): retries 3 and 4 go to every agent. -/
def sendRequest (s : State) (r : TokenReq) : State :=
  let home := homeAgent s.sys (sectorBase r.sector)
  let m := plainMsg (if r.write then 2 else 1) r.sector r.agent 0 r.reqid r.tc
  if r.attempt ≤ 3 then sendTo s { m with dst := home } false r.tried
  else
    let s1 := sendTo s { m with dst := 0x1FFF } false (ownAgents s)
    if moduleOf s.sys (sectorBase r.sector) = s.sys.modid.toNat then s1
    else (otherModules s).foldl
      (fun t k => linkSend t (Config.linkTo k % 24) (.token { m with dst := 0x1FFF })) s1

/-- Start a token request unless it is satisfied, one at least as strong is outstanding, or a persistent request of another
agent or a census is active (R278). -/
def startRequest (s : State) (agent : BitVec 13) (sec : Nat) (write : Bool) (tc : BitVec 2) : State :=
  if satisfied s agent sec write || blockedFor s agent sec then s
  else if s.tok.reqs.any (fun r => r.agent == agent && r.sector == sec && (r.write || !write)) then s
  else
    let home := homeAgent s.sys (sectorBase sec)
    let r : TokenReq := {
      agent := agent, sector := sec, write := write, attempt := 1,
      tried := (home :: predicted s agent sec).eraseDups.filter (· != agent), expiry := s.now + ccToNs s (attemptCc s sec),
      tc := tc, reqid := s.tok.nextReq, stage := .transient }
    let s1 := { s with tok := { s.tok with reqs := s.tok.reqs ++ [r], nextReq := s.tok.nextReq + 1 } }
    sendRequest s1 r

/-- Take one read token of a sector at once from where it lies, as an RDS answered by a TKD would (R272, R274); none when
its owner is in flight, pinned, frozen or on another module, or has no other token: it is then asked by a message, and gives its
last token up under R273. An agent with a pending request takes none (R277). -/
def grabToken (s : State) (agent : BitVec 13) (sec : Nat) : Option State :=
  let mine := holding s agent sec
  if isPending s agent sec then none
  else if mine.valid && decide (1 ≤ mine.tokens) then some s
  else if (pinnedBy s sec).isSome || blockedFor s agent sec then none
  else
    let home := homeAgent s.sys (sectorBase sec)
    let from? : Option (BitVec 13) :=
      if isHomeOf s home sec && (holding s home sec).owner then some home
      else (s.tok.held.find? (fun e => e.1 % 2 ^ 46 == sec && e.2.owner)).map (fun e => BitVec.ofNat 13 (e.1 / 2 ^ 46))
    match from? with
    | none => none
    | some a =>
      let h := holding s a sec
      if blockedFor s a sec || decide (h.tokens ≤ 1) then none
      else
        let s1 := setHolding s a sec { h with tokens := h.tokens - 1 }
        some (setHolding s1 agent sec { mine with tokens := mine.tokens + 1, valid := true, poison := h.poison, data := h.data })

/-- What a read of a read-only-shared sector returns (R280): the data of its home, which first collects every token unless a pin, a
census or an active request of another stops it; the value is then unspecified. Nothing while the collection goes on. From
another module's home `far` arrives. -/
def rosRead (s : State) (cls : BitVec 2) (sec : Nat) (far : SectorData × Bool) : Option (SectorData × Bool) × State :=
  let home := homeAgent s.sys (sectorBase sec)
  let h := holding s home sec
  if !isHomeOf s home sec then (some far, s)
  else if h.tokens = 2048 then (some (h.data, h.poison), s)
  else if (pinnedBy s sec).isSome || blockedFor s home sec then
    (some (Config.freeSector s.free, false), { s with free := s.free + 1 })
  else (none, startRequest s home sec true cls)

/-- The agent takes a read token of each sector where it can. -/
def takeTokens (s : State) (agent : BitVec 13) (secs : List Nat) : State := secs.foldl (fun t sec => (grabToken t agent sec).getD t) s

/-- An agent may read the sector now: it holds a token with valid data, or one comes at once. -/
def canRead (s : State) (agent : BitVec 13) (sec : Nat) : Bool := (grabToken s agent sec).isSome

/-- Sectors that the module's own work reads, at class 0 (R270): under tokens that the agent takes (`true`), or once those it asks for
have come (R267). -/
def readUnderTokens (s : State) (agent : BitVec 13) (secs : List Nat) : Bool × State :=
  match secs.filter (fun sec => !canRead s agent sec) with
  | [] => (true, takeTokens s agent secs)
  | lack => (false, lack.foldl (fun t sec => startRequest t agent sec false 0) s)

end Sys2Proof.Machine
end

