-- ==== Sys2Proof/Machine/Translate.lean ====
section
/-! DEFINITION. Address translation (R245 to R252): the context table, the walk, the TLBs and their tokens. -/

namespace Sys2Proof.Machine

/-- What an access needs of a page (R249, R252). -/
inductive Need where
  | load | store | fetch
deriving DecidableEq, Repr, Inhabited

/-- The end of a translation: a domain address and ROS, the check of R114 it fails, or a wait for a table entry's
token. -/
inductive TransResult where
  | ok (da : Nat) (ros : Bool)
  | fail (check : Nat)
  | wait
deriving DecidableEq, Repr, Inhabited

/-- A context descriptor (R247). -/
structure Descriptor where
  valid : Bool
  replay : Bool
  supv : Bool
  torn : Bool
  root : Nat
  part : BitVec 16
deriving DecidableEq, Repr, Inhabited

/-- A 64-bit word of physical memory; an address outside every range reads 0 (R333). -/
def physWord (s : State) (pa : Nat) : Nat :=
  match domainAddr s.sys pa with
  | some da => coherentWord s da
  | none => 0

/-- The physical address of a context's descriptor (R246, R247). -/
def descriptorAddr (s : State) (ctx : BitVec 12) : Nat := s.sys.ctxBase.toNat / 4096 * 4096 + 32 * ctx.toNat

/-- The descriptor of a context. -/
def descriptor (s : State) (ctx : BitVec 12) : Descriptor :=
  let w := physWord s (descriptorAddr s ctx)
  { valid := bitOf w 0, replay := bitOf w 1, supv := bitOf w 2, torn := bitOf w 3, root := bitsOf w 16 36 * 2 ^ 16,
    part := BitVec.ofNat 16 (physWord s (descriptorAddr s ctx + 8)) }

/-- The partition of a context (R247). -/
def partOf (s : State) (ctx : BitVec 12) : BitVec 16 := (descriptor s ctx).part

/-- The context's address space may reach every name (R179): partition 0 with SUPV. -/
def isPrivileged (s : State) (ctx : BitVec 12) : Bool :=
  let d := descriptor s ctx
  d.valid && d.supv && d.part == 0

/-! ### The walk (R248) -/

/-- The lowest index bit, the index bits and the next table's size of a level. -/
def levelShift : Nat → Nat
  | 0 => 43 | 1 => 30 | 2 => 21 | _ => 16

def levelBits : Nat → Nat
  | 0 => 13 | 1 => 13 | 2 => 9 | _ => 5

/-- log2 of a level's table size, its alignment. -/
def tableBits : Nat → Nat
  | 0 => 16 | 1 => 16 | 2 => 12 | _ => 8

/-- How a walk ends. -/
inductive WalkEnd where
  | leaf (entry pageBits : Nat)
  | invalid
  | malformed
deriving DecidableEq, Repr, Inhabited

/-- An entry with V = 1 is malformed at a level (R248). -/
def entryMalformed (level entry : Nat) : Bool :=
  let leaf := bitOf entry 1
  (bitOf entry 3 && bitOf entry 5)
  || (leaf && (level == 0 || bitsOf entry 8 8 != 0 || bitsOf entry 16 (levelShift level - 16) != 0))
  || (!leaf && (decide (3 ≤ level) || bitsOf entry 8 (tableBits (level + 1) - 8) != 0))

/-- The levels from `level` on, at most `n` of them: the end, and the physical addresses of the entries visited. -/
def walkFrom (s : State) (va : Nat) : Nat → Nat → Nat → WalkEnd × List Nat
  | 0, _, _ => (.malformed, [])
  | n + 1, level, base =>
    let addr := base + 8 * bitsOf va (levelShift level) (levelBits level)
    let entry := physWord s addr
    if !bitOf entry 0 then (.invalid, [addr])
    else if entryMalformed level entry then (.malformed, [addr])
    else if bitOf entry 1 then (.leaf entry (levelShift level), [addr])
    else
      let rest := walkFrom s va n (level + 1) (bitsOf entry 8 44 * 2 ^ 8)
      (rest.1, addr :: rest.2)

/-- A page as a walk found it, with the domain sectors it was built from. -/
def makeTlbEntry (s : State) (ctx : BitVec 12) (va : Nat) (d : Descriptor) (entry pageBits : Nat) (addrs : List Nat) :
    TlbEntry :=
  { ctx := ctx, vpage := va / 2 ^ pageBits, pageBits := pageBits, ppage := bitsOf entry 16 36 * 2 ^ 16 / 2 ^ pageBits,
    perms := BitVec.ofNat 8 entry, supv := d.supv, part := d.part,
    sectors := ((descriptorAddr s ctx :: addrs).filterMap (domainAddr s.sys)).map (· / 64) |>.eraseDups }

/-- The context's tenant partition is being removed (R244): its address spaces are torn down. -/
def isTorn (s : State) (ctx : BitVec 12) : Bool := s.removing.any (fun e => e.1 == ctx && e.2)

/-- The walk of a virtual address: the page, or the check that fails (R249). -/
def walk (s : State) (ctx : BitVec 12) (va : Nat) : Except Nat TlbEntry :=
  let d := descriptor s ctx
  if 2 ^ 56 ≤ va then .error 4
  else if !d.valid || d.torn || isTorn s ctx then .error 4
  else
    match walkFrom s va 4 0 d.root with
    | (.leaf entry bits, addrs) => .ok (makeTlbEntry s ctx va d entry bits addrs)
    | (.invalid, _) => .error (if d.replay then 5 else 4)
    | (.malformed, _) => .error 4

/-- An access through a page (R249): SUP, the permission it needs, and a physical address that exists (R333). -/
def usePage (s : State) (e : TlbEntry) (va : Nat) (need : Need) : TransResult :=
  let perm := match need with
    | .load => e.perms.getLsbD 2
    | .store => e.perms.getLsbD 3
    | .fetch => e.perms.getLsbD 4
  if (e.perms.getLsbD 6 && !e.supv) || !perm then .fail 3
  else
    match domainAddr s.sys (e.ppage * 2 ^ e.pageBits + va % 2 ^ e.pageBits) with
    | some da => .ok da (e.perms.getLsbD 5)
    | none => .fail 3

/-- A translation that takes no token and never waits: instruction fetch (R252), the launch unit (R231, R236) and
receiving hops (R288). -/
def translatePure (s : State) (ctx : BitVec 12) (va : Nat) (need : Need) : TransResult :=
  match walk s ctx va with
  | .ok e => usePage s e va need
  | .error c => .fail c

/-! ### TLBs (R250) -/

def tlbMatch (ctx : BitVec 12) (va : Nat) (e : TlbEntry) : Bool := e.ctx == ctx && e.vpage == va / 2 ^ e.pageBits

/-- The agent of an ashlar's second-level TLB (R268). -/
def tlbAgent (s : State) (ashlar : Nat) : BitVec 13 := ownAgent s.sys (144 + ashlar % 8)

/-- Virtual addresses of a page. -/
def inPage (e : TlbEntry) (va : Nat) : Bool := va / 2 ^ e.pageBits == e.vpage

/-- A domain address in the page that an entry leads to. -/
def inFrame (s : State) (e : TlbEntry) (da : Nat) : Bool :=
  match domainAddr s.sys (e.ppage * 2 ^ e.pageBits) with
  | some lo => decide (lo ≤ da) && decide (da < lo + 2 ^ e.pageBits)
  | none => false

/-- An access in flight of the ashlar was translated by the page (R250): of a warp, of a running engine command that has not parked,
or the store of a name operation. -/
def tlbPageBusy (s : State) (ashlar : Nat) (e : TlbEntry) : Bool :=
  s.warps.any (fun w => ashlarOf w.2.core == ashlar && w.2.ctx == e.ctx
      && w.2.accs.any (fun c => c.bank.isNone && c.parts.any (fun p => inPage e p.va)))
    || s.cmds.any (fun c => ashlarOf c.core == ashlar && c.ctx == e.ctx && !c.parked && c.pages.any (fun p => inPage e p.1))
    || s.names.ops.any (fun o => o.ctx == e.ctx && (match o.asker, o.kind with
        | .warp w _ _, .new | .warp w _ _, .cas =>
          ashlarOf (s.warp w).core == ashlar && o.out.any (fun a => inFrame s e a.1 || inFrame s e a.2)
        | _, _ => false))

/-- First-level copies of an entry on an ashlar dropped. -/
def dropCopies (s : State) (ashlar : Nat) (hit : TlbEntry → Bool) : State :=
  ((List.range 12).map (12 * ashlar + ·)).foldl (fun t c =>
    let k := t.core c
    if k.tlb.any hit then t.setCore c { k with tlb := k.tlb.filter (fun e => !hit e) } else t) s

/-- Add an entry to both levels. In a full second level the oldest entry without an access in flight leaves, with its first-level
copies; none while every entry has one. -/
def tlbInsert (s : State) (core : Nat) (e : TlbEntry) : Option State :=
  let a := ashlarOf core
  let l2 := Sparse.get [] s.tlb2 a
  let put (t : State) (l : List TlbEntry) : State :=
    let c := t.core core
    { t.setCore core { c with tlb := (e :: c.tlb).take 128 } with tlb2 := Sparse.set [] t.tlb2 a l }
  if l2.contains e then some (put s l2)
  else if l2.length < 8192 then some (put s (e :: l2))
  else (l2.reverse.find? (fun x => !tlbPageBusy s a x)).map (fun x => put (dropCopies s a (· == x)) (e :: l2.erase x))

/-- Take a read token of every sector an entry was built from; `none` when one must be waited for. -/
def grabAll (s : State) (agent : BitVec 13) : List Nat → Option State
  | [] => some s
  | sec :: rest =>
    match grabToken s agent sec with
    | some s1 => grabAll s1 agent rest
    | none => none

/-- The walk waits: it asks for the tokens it lacks, in the class of the access it serves (R270), and goes on when they come. -/
def waitWalk (s : State) (w : Walk) (sectors : List Nat) : State :=
  let t := sectors.foldl (fun t sec => startRequest t (tlbAgent s (ashlarOf w.core)) sec false w.cls) s
  if t.tok.walks.contains w then t else { t with tok := { t.tok with walks := t.tok.walks ++ [w] } }

/-- The sectors that a walk visits: the descriptor's, and those of the entries. -/
def walkSectors (s : State) (ctx : BitVec 12) (va : Nat) : List Nat :=
  let d := descriptor s ctx
  let addrs := if d.valid && !d.torn then (walkFrom s va 4 0 d.root).2 else []
  (((descriptorAddr s ctx :: addrs).filterMap (domainAddr s.sys)).map (· / 64)).eraseDups

/-- The translation of an access of a core, or of an engine for its issuing core. -/
def translate (s : State) (core : Nat) (cls : BitVec 2) (ctx : BitVec 12) (va : Nat) (need : Need) : TransResult × State :=
  if 2 ^ 56 ≤ va ∨ isTorn s ctx then (.fail 4, s)
  else
    match (s.core core).tlb.find? (tlbMatch ctx va) with
    | some e => (usePage s e va need, s)
    | none =>
      match (Sparse.get [] s.tlb2 (ashlarOf core)).find? (tlbMatch ctx va) with
      | some e => (usePage s e va need, (tlbInsert s core e).getD s)
      | none =>
        match walk s ctx va with
        | .error c =>
          let secs := walkSectors s ctx va
          if secs.all (canRead s (tlbAgent s (ashlarOf core))) then (.fail c, s) else (.wait, waitWalk s ⟨core, cls, ctx, va⟩ secs)
        | .ok e =>
          match (grabAll s (tlbAgent s (ashlarOf core)) e.sectors).bind (fun t => tlbInsert t core e) with
          | some s1 => (usePage s e va need, s1)
          | none => (.wait, waitWalk s ⟨core, cls, ctx, va⟩ e.sectors)

/-- A walk that waited goes on: the page enters the TLB, or the walk waits again (R250, R275). -/
def goOnWalk (s : State) (w : Walk) : State :=
  if s.tok.walks.contains w then
    (translate { s with tok := { s.tok with walks := s.tok.walks.erase w } } w.core w.cls w.ctx w.va .load).2
  else s

end Sys2Proof.Machine
end

