-- ==== Sys2Proof/Machine/Ops.lean ====
section
/-! DEFINITION. Named operations on the machine: registers of the issuing warp, units, the black box, code words and
headers, taking a trap (R153, R154) and returning from one (R156). -/

namespace Sys2Proof.Machine

/-! ### Register files (R19, R37, R79) -/

/-- A vector register in a lane. An undefined one yields a free value, fresh at every step (R79): one that a header's LIVE made
undefined (R37), and one of a lane that was never live and has not written it as a helper (R103). A lane that exits keeps its
registers (R144). -/
def WarpArch.getV (a : WarpArch) (free r lane : Nat) : W32 :=
  let k := 64 * r + lane
  let undefd := Config.freeWord (free * 2 ^ 14 + k)
  match Sparse.find a.vregs k with
  | some v => v
  | none => if a.dead.getLsbD (64 * (r / 32) + lane) then undefd else 0

/-- A vector register written in a lane. -/
def WarpArch.setV (a : WarpArch) (r lane : Nat) (v : W32) : WarpArch :=
  let k := 64 * r + lane
  { a with
    vregs := if v = 0 ∧ a.dead.getLsbD (64 * (r / 32) + lane) = false then Sparse.erase k a.vregs else Sparse.insert k v a.vregs }

def WarpArch.getS (a : WarpArch) (r : Nat) : W64 := Sparse.get 0 a.sregs r

def WarpArch.setS (a : WarpArch) (r : Nat) (v : W64) : WarpArch := { a with sregs := Sparse.set 0 a.sregs r v }

/-- A predicate as a lane mask; p0 reads 1 (R19). -/
def WarpArch.getP (a : WarpArch) (k : Nat) : Lanes := if k = 0 then BitVec.allOnes 64 else Sparse.get 0 a.preds k

/-- A predicate written in the lanes of `mask`; writes to p0 are discarded (R19). -/
def WarpArch.setP (a : WarpArch) (k : Nat) (mask v : Lanes) : WarpArch :=
  if k = 0 then a else { a with preds := Sparse.set 0 a.preds k ((a.getP k &&& ~~~mask) ||| (v &&& mask)) }

/-- The place of a tile element, and the lane whose row it stands in. -/
def accKey (t row col : Nat) : Nat := 4096 * t + 64 * row + col

def accLane (key : Nat) : Nat := key / 64 % 64

/-- Tile element (R164). One of a lane that was never live and has not written it as a helper is a free value (R103). -/
def WarpArch.getAcc (a : WarpArch) (t row col : Nat) : W32 :=
  let k := accKey t row col
  match Sparse.find a.acc k with
  | some v => v
  | none => if hasLane a.unborn (accLane k) then Config.helperWord (a.seed * 2 ^ 14 + k) else 0

def WarpArch.setAcc (a : WarpArch) (t row col : Nat) (v : W32) : WarpArch :=
  let k := accKey t row col
  { a with acc := if v = 0 ∧ hasLane a.unborn (accLane k) = false then Sparse.erase k a.acc else Sparse.insert k v a.acc }

/-- NSTAT with flags ORed in (R67). -/
def WarpArch.orNstat (a : WarpArch) (f : NumFlags) : WarpArch := { a with nstat := a.nstat ||| f.setWidth 64 }

/-! ### The issuing warp -/

/-- The warp of the issue under way. -/
def State.cw (s : State) : Warp := s.warp s.cur.w

def State.setCw (s : State) (x : Warp) : State := s.setWarp s.cur.w x

def State.arch (s : State) : WarpArch := s.cw.arch

def State.setArch (s : State) (a : WarpArch) : State := s.setCw { s.cw with arch := a }

def State.sreg (s : State) (r : Nat) : W64 := s.arch.getS r

def State.setSreg (s : State) (r : Nat) (v : W64) : State := s.setArch (s.arch.setS r v)

def State.vreg (s : State) (r lane : Nat) : W32 := s.arch.getV s.free r lane

def State.pred (s : State) (k : Nat) : Lanes := s.arch.getP k

def State.orNstat (s : State) (f : NumFlags) : State := s.setArch (s.arch.orNstat f)

/-- The lanes a vector instruction writes: where the guard passes, and the helpers (R80, R103). -/
def State.written (s : State) : Lanes := s.cur.guard ||| s.cur.helpers

/-- A list of register writes, each a register, a lane and a value. -/
def WarpArch.setVs (a : WarpArch) : List (Nat × Nat × W32) → WarpArch
  | [] => a
  | (r, l, v) :: ws => (a.setV r l v).setVs ws

/-- One result in each written lane, all sources read first (R79, R80); a lane's flags go to NSTAT. -/
def State.mapLanes (s : State) (d : Nat) (f : Nat → Nat × NumFlags) : State :=
  let res := (lanesOf s.written).map (fun l => (l, f l))
  let a := s.arch.setVs (res.map (fun e => (d, e.1, BitVec.ofNat 32 e.2.1)))
  s.setArch (a.orNstat (res.foldl (fun acc e => acc ||| e.2.2) 0))

/-- As `mapLanes`, for a 64-bit result in the pair d, d + 1 (R59). -/
def State.mapLanes64 (s : State) (d : Nat) (f : Nat → Nat × NumFlags) : State :=
  let res := (lanesOf s.written).map (fun l => (l, f l))
  let lo := res.map (fun e => (d, e.1, BitVec.ofNat 32 e.2.1))
  let hi := res.map (fun e => (d + 1, e.1, BitVec.ofNat 32 (e.2.1 / 2 ^ 32)))
  s.setArch (((s.arch.setVs lo).setVs hi).orNstat (res.foldl (fun acc e => acc ||| e.2.2) 0))

/-- A predicate result in each written lane. -/
def State.mapPred (s : State) (p : Nat) (f : Nat → Bool) : State :=
  s.setArch (s.arch.setP p s.written (filterLanes s.written f))

/-- The scalar guard of R39 and R187: unconditional with GSCOPE = 0, else it passes in some active lane. -/
def State.scalarOn (s : State) : Bool := !s.cur.gscope || s.cur.guard != 0

/-! ### Units -/

def Warp.unit (x : Warp) (u : Nat) : IUnit := (x.arch.units[u]?).getD {}

def Warp.setUnit (x : Warp) (u : Nat) (f : IUnit → IUnit) : Warp :=
  { x with arch := { x.arch with units := modAt x.arch.units u f } }

/-- The issuing unit. -/
def State.unit (s : State) : IUnit := s.cw.unit s.cur.u

def State.setUnit (s : State) (f : IUnit → IUnit) : State := s.setCw (s.cw.setUnit s.cur.u f)

def State.setStatus (s : State) (x : IssueStatus) : State := { s with cur := { s.cur with status := x } }

/-- The issuing unit is held and the slot tried again later. -/
def State.hold (s : State) (h : Hold) : State := (s.setUnit (fun u => { u with hold := h })).setStatus .wait

/-- The block of the issuing warp. -/
def State.cblk (s : State) : Block := s.block s.cw.blk

/-- The unit is at trap level (R153). -/
def State.atTrapLevel (s : State) : Bool := s.unit.trap.isSome

/-! ### The black box (R323 to R325) -/

/-- Write a record; severity 2 raises interrupt source 9 (R302, R338). -/
def recordEvent (s : State) (type : Nat) (sev : Nat) (src : BitVec 13) (ctx : Option (BitVec 12)) (addr detail : W64) :
    State :=
  let inService := s.sys.span == .service
  let w0 : Nat := if inService then s.sys.time % 2 ^ 63 else 2 ^ 63 + s.sys.auxTime % 2 ^ 63
  let who : Nat := match ctx with
    | some c => c.toNat * 2 ^ 32
    | none => 2 ^ 44
  let w1 : Nat := s.sys.epoch.toNat * 2 ^ 48 + who + src.toNat * 2 ^ 16 + sev * 2 ^ 14 + type
  let r : BoxRecord := ⟨BitVec.ofNat 64 w0, BitVec.ofNat 64 w1, addr, detail⟩
  let pend := if sev = 2 then s.sys.pending ||| 2 ^ 9 else s.sys.pending
  { s with sys := { s.sys with box := Sparse.set {} s.sys.box (s.sys.boxHead.toNat % 65536) r,
                               boxHead := s.sys.boxHead + 1, pending := pend } }

/-- The agent number of a core, 0 to 95 (R268). -/
def coreAgent (s : State) (core : Nat) : BitVec 13 := ownAgent s.sys (core % 96)

/-- The record of a consumed error (R304, R325): the sector's physical address, and FMASK. -/
def noteConsumed (s : State) (x : Warp) (sec : Nat) (fmask : Lanes) : State :=
  recordEvent s 0x04 2 (coreAgent s x.core) (some x.ctx) (sectorPhysical s.sys sec) fmask

/-! ### Contexts that end (R153, R244) -/

/-- Start the removal path of a context's class: partition 0 is the resident OS's own, others are tenants. -/
def startRemoval (s : State) (ctx : BitVec 12) : State :=
  if s.removing.any (fun e => e.1 == ctx) then s
  else { s with removing := s.removing ++ [(ctx, partOf s ctx != 0)] }

/-! ### Code words and headers (R35 to R37, R252, R305) -/

/-- The code word at a virtual address: none when the fetch fails (R252) or finds poison (R305), and none from an address that
is not a multiple of 8 (R51). A word stored to since its code object was launched is unspecified (R199). -/
def fetchWord (s : State) (ctx : BitVec 12) (va : Nat) : Option Nat :=
  if va % 8 ≠ 0 then none
  else match translatePure s ctx va .fetch with
  | .ok da _ =>
    if (coherentSector s (da / 64)).2 then none
    else if Sparse.get false s.codeDirty (da / 8) then some (Config.freeLong (s.free * 2 ^ 56 + va)).toNat
    else some (coherentWord s da)
  | _ => none

/-- What a trap reports (R152, R154). -/
structure TrapInfo where
  vec : Nat
  cause : Nat
  slotVec : Bool := false
  code : BitVec 12 := 0
  fmask : Option Lanes := none
  faddr : Nat := 0
  /-- FPC when it is not the issuing bundle. -/
  fpc : Option Nat := none
  skips : Bool := false
  atHeader : Bool := false
deriving DecidableEq, Repr, Inhabited

/-- The header at an address, or the trap that entering it raises (R35, R37, R51, R252): a word that is no header reports cause 6
whatever else it breaks, with the word's own address in FPC. DEDUCED (log entries 19 and 77). -/
def headerAt (s : State) (ctx : BitVec 12) (va : Nat) : Except TrapInfo Header :=
  if va % 8 ≠ 0 then .error { vec := 2, cause := 1, faddr := va, fpc := some va }
  else match fetchWord s ctx va with
  | none => .error { vec := 2, cause := 4, faddr := va, fpc := some va }
  | some w =>
    if isHeaderWord w then
      let h := decodeHeader w
      if h.bad then .error { vec := 1, cause := 7, fpc := some va } else .ok h
    else .error { vec := 1, cause := 6, fpc := some va }

/-- The undefined groups with those of `groups` added in some lanes. -/
def addDead (dead : BitVec 512) (groups : List Nat) (lanes : Lanes) : BitVec 512 :=
  groups.foldl (fun acc g => acc ||| (lanes.setWidth 512 <<< (64 * g))) dead

/-- Make the groups whose LIVE bit is 0 undefined in some lanes and in the helpers of their quads (R37, R103). -/
def WarpArch.applyLive (a : WarpArch) (h : Header) (lanes : Lanes) : WarpArch :=
  if h.live = 255 then a
  else
    let m := lanes ||| (quadsOf lanes &&& ~~~a.live)
    { a with
      dead := addDead a.dead ((List.range 8).filter (fun g => !h.live.getLsbD g)) m
      vregs := a.vregs.filter (fun e => h.live.getLsbD (e.1 / 64 / 32) || !hasLane m (e.1 % 64)) }

/-- The plies of a unit have entered a header: its LIVE field is their latest (R192). -/
def WarpArch.noteLive (a : WarpArch) (h : Header) (lanes : Lanes) : WarpArch :=
  { a with plyLive := (pliesOf lanes).foldl (fun m p => Sparse.set 255 m p h.live) a.plyLive }

/-- Every flag of a WAIT mask is set (R37). -/
def waitMet (flags wait : BitVec 12) : Bool := flags &&& wait == wait

/-- The hold of a unit that has entered a header and merges with no one. -/
def headerHold (a : WarpArch) (h : Header) : Hold := if waitMet a.flags h.wait then .none else .headerWait

/-- The granules that entering a header requests (R192): its plies', in the groups whose LIVE bit is 1. -/
def wantLive (s : State) (w : Nat) (h : Header) (lanes : Lanes) : State :=
  let x := s.warp w
  let k := s.core x.core
  let want := ((List.range 8).filter (fun g => h.live.getLsbD g)).flatMap (fun g => (pliesOf lanes).map (fun p => (w, 8 * g + p)))
  let new := want.filter (fun n => !k.wanted.contains n && !k.granules.any (fun g => g.warp == n.1 && g.which == n.2))
  if new.isEmpty then s else s.setCore x.core { k with wanted := k.wanted ++ new }

/-! ### Taking a trap (R153, R154) -/

/-- The frame of a trap of a unit. A trap in the vector slot keeps the decided transfer (R138, R154). -/
def makeFrame (unit : IUnit) (t : TrapInfo) : TrapFrame :=
  let pc := match t.fpc with
    | some a => a
    | none => unit.pos.hdr + 8 * unit.pos.idx
  { fpc := BitVec.ofNat 64 pc, vec := BitVec.ofNat 8 t.vec, cause := BitVec.ofNat 8 t.cause, slotVec := t.slotVec,
    skips := t.slotVec || t.skips, code := t.code, fmask := t.fmask.getD unit.lanes, faddr := BitVec.ofNat 64 t.faddr,
    fres := BitVec.ofNat 64 pc, fact := unit.lanes,
    kept := if t.slotVec then unit.xfer else none,
    alsoIn := unit.alsoIn,
    pos := match t.fpc with
      | some a => { unit.pos with hdr := a, idx := 0 }
      | none => unit.pos,
    atHeader := t.atHeader || t.fpc.isSome }

/-- A unit takes a trap: its frame is written, it rises to trap level, and it enters the handler's header. Without a
handler, or at trap level already, its context ends by the removal path of its class (R153). A handler entry that is no valid
header ends the context as if no handler were named. DESIGN CHOICE (log entry 78). -/
def takeTrap (s : State) (w u : Nat) (t : TrapInfo) : State :=
  let x := s.warp w
  let unit := x.unit u
  let frame := makeFrame unit t
  let detail : W64 := BitVec.ofNat 64 (t.vec * 2 ^ 56 + t.cause * 2 ^ 48)
  let s1 := recordEvent s 1 0 (coreAgent s x.core) (some x.ctx) frame.fpc detail
  let finish (s2 : State) : State :=
    startRemoval (s2.setWarp w (x.setUnit u (fun v => { v with hold := .ended, xfer := none, skip := false }))) x.ctx
  if unit.trap.isSome then
    finish (recordEvent s1 0x33 2 (coreAgent s x.core) (some x.ctx) (Config.recordDetail 0x133 [x.blk]) (BitVec.ofNat 64 t.vec))
  else
    match (s.block x.blk).handler with
    | none => finish s1
    | some entry =>
      match headerAt s x.ctx entry with
      | .error _ => finish s1
      | .ok h =>
        let a := (x.arch.applyLive h unit.lanes).noteLive h unit.lanes
        let put (v : IUnit) : IUnit :=
          { v with pos := { hdr := entry, idx := 0, head := h, inst := 0 }, alsoIn := [], hold := headerHold a h, skip := false, xfer := none,
                   fenced := false, issued := false, fe := 0, wake := none, passed := false, latch := [], arms := none, entering := false,
                   jumped := false, trap := some frame, more := [], trapOrder := s.moves }
        wantLive (s1.setWarp w { x with arch := { a with units := modAt a.units u put } }) w h unit.lanes

/-- The issuing unit takes a trap in the slot under way. -/
def State.trap (s : State) (t : TrapInfo) : State :=
  (takeTrap s s.cur.w s.cur.u { t with slotVec := s.cur.slotVec }).setStatus .trapped

/-- The words of a frame as TRD reads them (R154). -/
def TrapFrame.word (f : TrapFrame) (w : Nat) : W64 :=
  match w with
  | 0 => f.fpc
  | 1 => BitVec.ofNat 64 (f.vec.toNat * 2 ^ 56 + f.cause.toNat * 2 ^ 48 + boolNat f.slotVec * 2 ^ 47
          + boolNat f.skips * 2 ^ 46 + boolNat f.kept.isSome * 2 ^ 45 + f.code.toNat)
  | 2 => f.fmask
  | 3 => f.faddr
  | 4 => f.fres
  | 5 => f.fact
  | 6 => match f.kept with
    | some x => x.taken
    | none => 0
  | _ => match f.kept with
    | some x => if x.kind == .ret then 0 else BitVec.ofNat 64 x.dest
    | none => 0

/-- TWR: the RW fields of a word (R154, R155). -/
def TrapFrame.setWord (f : TrapFrame) (w : Nat) (v : W64) : TrapFrame :=
  match w with
  | 1 => { f with skips := v.getLsbD 46 }
  | 4 => { f with fres := v }
  | _ => f

/-- Leave trap level toward the trapped bundle (R156): the unit stands there again, its scalar slot skipped as SKIPS
says, its kept transfer awaiting; a unit that was entering or waiting at a header enters that header again. -/
def IUnit.resume (v : IUnit) (f : TrapFrame) : IUnit :=
  { v with pos := f.pos, alsoIn := f.alsoIn, hold := .none, skip := f.skips, xfer := if f.skips then f.kept else none, fenced := false,
           issued := false, fe := 0, wake := none, passed := false, latch := [], arms := none, trap := none, more := [], jumped := false,
           entering := f.atHeader }

end Sys2Proof.Machine
end

