-- ==== Sys2Proof/Machine/Operands.lean ====
section
/-! DEFINITION. Operand forms (R41, R42, R86, R113) and the registers each instruction names (R79, R117, R344). -/

namespace Sys2Proof.Machine

/-! ### Sources of the vector slot -/

/-- A 32-bit value read as signed, or as unsigned with m[0] set (R80). -/
def asInt (unsigned : Bool) (v : W32) : Int := if unsigned then (v.toNat : Int) else v.toInt

/-- imm8 of form VI (R86): zero-extended with m[0] set, else sign-extended. -/
def imm8 (unsigned : Bool) (b : BitVec 8) : W32 := if unsigned then b.setWidth 32 else b.signExtend 32

/-- A vector register number. -/
def vnum (r : BitVec 8) : Nat := r.toNat

/-- The low word of the scalar register that a VS form names (R86). -/
def State.slow (s : State) (r : BitVec 8) : W32 := (s.sreg r.toNat).setWidth 32

/-- The exact integer fitted as R80 says: m[1] clamps, m[0] is unsigned. -/
def fit (m : BitVec 2) (x : Int) : Nat × NumFlags := fitInt (m.getLsbD 1) (!m.getLsbD 0) 32 x

/-- Shift amounts are b[7:0] unsigned (R86). -/
def amount (b : W32) : Nat := b.toNat % 256

/-- A 64-bit value from the register pair r, r + 1 (R59). -/
def State.vpair (s : State) (r lane : Nat) : Nat := (s.vreg r lane).toNat + (s.vreg (r + 1) lane).toNat * 2 ^ 32

/-! ### Addresses of the VM form (R113) -/

/-- The access size in bytes of a size code (R42). -/
def sizeBytes (sz : BitVec 2) : Nat := 2 ^ sz.toNat

/-- addr(i) ← sN + sign-extend(va) + OFFSET × size, modulo 2^64. -/
def State.vmAddr (s : State) (base : BitVec 6) (a : BitVec 8) (off : Int) (lane : Nat) : Nat :=
  wrap 64 (((s.sreg base.toNat).toNat : Int) + (s.vreg a.toNat lane).toInt + off)

/-- The signed byte offset of a memory extension. -/
def memOff (o : VmOp) (x : Option MemX) : Int :=
  match x with
  | none => 0
  | some e => e.off.toInt * (sizeBytes o.size : Nat)

/-- The order of a memory extension: 0 relaxed, 1 acquire, 2 release (R43). -/
def memOrder : Option MemX → BitVec 2
  | none => 0
  | some e => e.order

/-- The scope of a memory extension, or the entry's default (R43). -/
def memScope (dflt : BitVec 3) : Option MemX → BitVec 3
  | none => dflt
  | some e => e.scope

/-! ### The registers an instruction names -/

/-- Registers read and written: vector, predicate, scalar. -/
structure RegUse where
  vr : List Nat := []
  vw : List Nat := []
  pr : List Nat := []
  pw : List Nat := []
  sr : List Nat := []
  sw : List Nat := []
deriving DecidableEq, Repr, Inhabited

/-- Registers r to r + n − 1. -/
def regRun (r n : Nat) : List Nat := (List.range n).map (r + ·)

/-- The registers of an element of a type at r: the pair for 64 bits (R59). -/
def typeRegs (t : BitVec 4) (r : BitVec 8) : List Nat := regRun r.toNat (if typeBits t = 64 then 2 else 1)

/-- The registers of a VM access's data. -/
def vmRegs (o : VmOp) : List Nat := regRun o.d.toNat (if o.size = 3 then 2 else 1)

/-- The registers of a compare-and-swap's group (R127). -/
def casRegs (x : CasX) (r : BitVec 8) : List Nat := regRun r.toNat (2 ^ x.size.toNat)

def use3 (d a b : BitVec 6) : RegUse := { sr := [a.toNat, b.toNat], sw := [d.toNat] }
def use2 (d a : BitVec 6) : RegUse := { sr := [a.toNat], sw := [d.toNat] }
def useV3 (o : V3Op) : RegUse := { vr := [o.a.toNat, o.b.toNat], vw := [o.d.toNat] }
def useV3d (o : V3Op) : RegUse := { vr := [o.a.toNat, o.b.toNat, o.d.toNat], vw := [o.d.toNat] }
def useVi (o : V3Op) : RegUse := { vr := [o.a.toNat], vw := [o.d.toNat] }
def useVs (o : V3Op) : RegUse := { vr := [o.a.toNat], vw := [o.d.toNat], sr := [o.b.toNat] }
def useV2 (d a : BitVec 8) : RegUse := { vr := [a.toNat], vw := [d.toNat] }
def useVq (o : VqOp) : RegUse := { pr := [o.pa.toNat, o.pb.toNat], pw := [o.pd.toNat] }
def useLoad (o : VmOp) : RegUse := { vr := [o.a.toNat], vw := vmRegs o, sr := [o.base.toNat] }
def useStore (o : VmOp) : RegUse := { vr := o.a.toNat :: vmRegs o, sr := [o.base.toNat] }
def useAtomic (o : VmOp) : RegUse := { vr := o.a.toNat :: vmRegs o, vw := vmRegs o, sr := [o.base.toNat] }
def useCas (d a b : BitVec 8) (x : CasX) : RegUse :=
  { vr := a.toNat :: (casRegs x d ++ casRegs x b), vw := casRegs x d, sr := [x.base.toNat] }
def useEng (o : EngOp) : RegUse := { sr := [o.x.toNat, o.y.toNat, o.z.toNat], sw := [o.sd.toNat] }

/-- The registers an instruction names; an event names none. -/
def regUse : Instr → RegUse
  | .sadd d a b | .ssub d a b | .smul d a b | .smulh d a b | .sand d a b | .sor d a b | .sxor d a b | .sshl d a b
  | .sshr d a b | .ssar d a b | .smin d a b | .smax d a b | .sslt d a b | .sminn d a b | .smaxn d a b | .ssltn d a b
  | .sfork d a b | .snnew d a b | .sncas d a b => use3 d a b
  | .saddSi d a _ | .sandSi d a _ | .sorSi d a _ | .sxorSi d a _ | .sshlSi d a _ | .sshrSi d a _ | .ssarSi d a _
  | .ssltSi d a _ | .sld d a _ => use2 d a
  | .sgwalk d a | .smonwait d a | .snlook d a | .snlookHold d a | .snlookRelease d a | .sndel d a => use2 d a
  | .sli d _ | .sgets d _ => { sw := [d.toNat] }
  | .slsh d _ => { sr := [d.toNat], sw := [d.toNat] }
  | .sst d a _ => { sr := [d.toNat, a.toNat] }
  | .swaitc _ sn z => if z then {} else { sr := [sn.toNat] }
  | .sbrx a | .sbar a _ | .sbara a _ | .ssysNclr a | .ssysTwr a _ | .smwait a | .smonarm a => { sr := [a.toNat] }
  | .ssysTrd a _ | .ssysCtxid a => { sw := [a.toNat] }
  | .smfence d _ _ _ => { sw := [d.toNat] }
  | .vadd o | .vsub o | .vmul o | .vmulh o | .vmin o | .vmax o | .vabs o | .vneg o | .vand o | .vor o | .vxor o
  | .vandn o | .vshl o | .vshr o | .vsar o | .vrot o | .vlea o | .vfadd o | .vfsub o | .vfmul o | .vfmin o
  | .vfmax o => useV3 o
  | .vmad o | .vsad o | .vfma o => useV3d o
  | .vaddVi o | .vmulVi o | .vandVi o | .vorVi o | .vxorVi o | .vshlVi o | .vshrVi o | .vsarVi o | .vminVi o
  | .vmaxVi o => useVi o
  | .vaddVs o | .vsubVs o | .vmulVs o | .vandVs o | .vorVs o | .vxorVs o | .vshlVs o | .vshrVs o | .vsarVs o
  | .vminVs o | .vmaxVs o => useVs o
  | .vnot d a | .vclz d a | .vpopc d a | .vbrev d a | .vmov d a => useV2 d a
  | .vsxt d a _ | .vzxt d a _ => useV2 d a
  | .vbfx d a _ _ _ => useV2 d a
  | .vbfi d a _ _ => { vr := [a.toNat, d.toNat], vw := [d.toNat] }
  | .vli d _ _ => { vw := [d.toNat] }
  | .vgets d _ => { vw := [d.toNat] }
  | .vbcast d r | .vbcasth d r => { vw := [d.toNat], sr := [r.toNat] }
  | .vcmp o | .vfcmp o => { vr := [o.a.toNat, o.b.toNat], pw := [o.pd.toNat] }
  | .vcmpVi o => { vr := [o.a.toNat], pw := [o.pd.toNat] }
  | .vcmpVs o => { vr := [o.a.toNat], pw := [o.pd.toNat], sr := [o.b.toNat] }
  | .vpand o | .vpor o | .vpxor o => useVq o
  | .vpnot pd pa _ => { pr := [pa.toNat], pw := [pd.toNat] }
  | .vptst pd a => { vr := [a.toNat], pw := [pd.toNat] }
  | .vptov d p => { pr := [p.toNat], vw := [d.toNat] }
  | .vsel d a b p _ => { vr := [a.toNat, b.toNat], pr := [p.toNat], vw := [d.toNat] }
  | .vcvt d a x | .vfcvt d a x => { vr := typeRegs x.st a ++ typeRegs x.dt d, vw := typeRegs x.dt d }
  | .vpack d a _ _ => { vr := a.toNat :: regRun d.toNat 2, vw := regRun d.toNat 2 }
  | .vunpk d a _ _ => { vr := regRun a.toNat 2, vw := [d.toNat] }
  | .vfabs o | .vfneg o | .vfrcp o | .vfrsq o | .vfsqrt o | .vfexp2 o | .vflog2 o => useV2 o.d o.a
  | .vqxch d a _ _ | .vshflVi d a _ _ | .vshflup d a _ _ | .vshfldn d a _ _ | .vshflx d a _ _ => useV2 d a
  | .vshfl d a b _ => { vr := [a.toNat, b.toNat], vw := [d.toNat] }
  | .vshflVs d a b _ => { vr := [a.toNat], vw := [d.toNat], sr := [b.toNat] }
  | .vvote _ pd p _ _ => { pr := [p.toNat], pw := [pd.toNat] }
  | .vballot d _ p _ => { pr := [p.toNat], vw := regRun d.toNat 2 }
  | .vwred d a _ _ _ => useV2 d a
  | .vld o _ | .vldu o _ | .vlds o _ | .vldx o _ | .vldf o _ => useLoad o
  | .vldc o _ _ => useLoad o
  | .vst o _ | .vstu o _ | .vsts o _ | .vstx o _ | .vste o _ | .vstn o _ | .vred o _ => useStore o
  | .vpfl o _ => { vr := [o.a.toNat], sr := [o.base.toNat] }
  | .vaadd o _ | .vamin o _ | .vamax o _ | .vaand o _ | .vaor o _ | .vaxor o _ | .vaxch o _ | .vbadd o _ | .vbmin o _
  | .vbmax o _ | .vband o _ | .vbor o _ | .vbxor o _ | .vbxch o _ => useAtomic o
  | .vacas d a b x | .vbcas d a b x => useCas d a b x
  | .vaccrd o => { vw := regRun o.v.toNat (o.nm1.toNat + 1) }
  | .vaccwr o => { vr := regRun o.v.toNat (o.nm1.toNat + 1) }
  | .vaccq d a _ _ _ _ => useV2 d a
  | .vfmtld _ a b => { sr := [a.toNat, b.toNat] }
  | .vecpy o _ _ _ | .vered o _ _ => useEng o
  | .vefill o _ _ => { sr := [o.y.toNat, o.z.toNat], sw := [o.sd.toNat] }
  | .vepkt o t _ => { sr := if t then [o.x.toNat, o.y.toNat] else [o.y.toNat], sw := [o.sd.toNat] }
  | .veblkGet o | .veblkPut o => useEng o
  | .veblkFlush o => { sw := [o.sd.toNat] }
  | _ => {}

/-- The result latency of a vector-slot instruction in cc (R344); 0 where its registers are pending instead. -/
def latency : Instr → Nat
  | .vcvt _ _ _ | .vfcvt _ _ _ | .vfadd _ | .vfsub _ | .vfmul _ | .vfma _ | .vfmin _ | .vfmax _ | .vfabs _ | .vfneg _
  | .vfrcp _ | .vfrsq _ | .vfsqrt _ | .vfexp2 _ | .vflog2 _ | .vqxch _ _ _ _ | .vshfl _ _ _ _ | .vshflVi _ _ _ _
  | .vshflVs _ _ _ _ | .vshflup _ _ _ _ | .vshfldn _ _ _ _ | .vshflx _ _ _ _ | .vvote _ _ _ _ _ | .vballot _ _ _ _
  | .vwred _ _ _ _ _ | .vaccrd _ | .vaccq _ _ _ _ _ _ => 6
  | .vld _ _ | .vldu _ _ | .vlds _ _ | .vldx _ _ | .vldf _ _ | .vldc _ _ _ | .vaadd _ _ | .vamin _ _ | .vamax _ _
  | .vaand _ _ | .vaor _ _ | .vaxor _ _ | .vaxch _ _ | .vbadd _ _ | .vbmin _ _ | .vbmax _ _ | .vband _ _ | .vbor _ _
  | .vbxor _ _ | .vbxch _ _ | .vacas _ _ _ _ | .vbcas _ _ _ _ => 0
  | i => if (regUse i).vw.isEmpty && (regUse i).pw.isEmpty then 0 else 4

end Sys2Proof.Machine
end

