-- ==== Sys2Proof/Machine/Flags.lean ====
section
/-! DEFINITION. NSTAT as an operand (R66, R67), the values of the special registers (R20, R83, R94), and the two ways a
slot ends without a memory effect. -/

namespace Sys2Proof.Machine

/-- The outcome of a meaning. -/
abbrev Result := Host.Outcome State Fault Refusal

/-- A scalar operation without operands to check: it takes effect when its guard is satisfied (R39, R187). -/
def scalarDo (s : State) (f : State → State) : Result := .next (if s.scalarOn then f s else s)

/-- A scalar result in sd. -/
def scalarTo (s : State) (d : BitVec 6) (v : State → W64) : Result := scalarDo s (fun t => t.setSreg d.toNat (v t))

/-- NSTAT with the flags of a mask cleared, bit by bit (R66, R155); reserved bits read 0. -/
def nstatClear (nstat mask : W64) : W64 := nstat &&& ~~~mask

/-- The gang width of the issue: active lanes, helpers excluded (R83, R183). -/
def gangWidth (s : State) : Nat := popcount 64 s.cur.lanes.toNat

/-- The value of a selector of the scalar GETS; none where it is reserved (R83). -/
def scalarSpecial (s : State) (sel : Nat) : Option W64 :=
  let x := s.cw
  match sel with
  | 0 => some (BitVec.ofNat 64 x.idx)
  | 1 => some (BitVec.ofNat 64 (s.block x.blk).idx)
  | 2 => some (BitVec.ofNat 64 x.core)
  | 3 => some (BitVec.ofNat 64 (x.core / 4))
  | 4 => some (s.block x.blk).dbase
  | 5 => some (BitVec.ofNat 64 (gangWidth s))
  | 6 => some s.cur.lanes
  | 7 => some (BitVec.ofNat 64 x.nply)
  | 8 => some (BitVec.ofNat 64 s.sys.time)
  | 32 => some x.arch.nstat
  | _ => none

/-- The value of a selector of the vector GETS in a lane (R94). -/
def vectorSpecial (s : State) (sel lane : Nat) : Option Nat :=
  match sel with
  | 0 => some lane
  | 1 => some (lane / 4)
  | 2 => some (lane / 8)
  | 3 => some (gangWidth s)
  | 4 => some s.cw.idx
  | 5 => some s.cblk.idx
  | 6 => some s.cw.core
  | 7 => some (s.cw.core / 4)
  | _ => none

end Sys2Proof.Machine
end

