-- ==== Sys2Proof/Machine/Flow.lean ====
section
/-! DEFINITION. How lanes divide and merge: sides of a transfer (R138, R139), reconvergence (R140, R184 to R186), exits
(R144, R183), header entry (R37), rotation (R189), and block instances (R193). -/

namespace Sys2Proof.Machine

/-! ### Slots and stacks -/

/-- The unit is a fragment with a lane of ply `p`. -/
def isPrimaryOf (p : Nat) (v : IUnit) : Bool := !v.sec && (v.lanes &&& plyMask p) != 0

/-- The unit is ply `p`'s secondary slot. -/
def isSecondaryOf (p : Nat) (v : IUnit) : Bool := v.sec && v.ply == p

/-- The stack entries of a ply. -/
def stackOf (a : WarpArch) (p : Nat) : List IUnit := a.stack.filter (fun v => v.ply == p)

/-- The most recent stack entry of a ply taken off. -/
def popStack (a : WarpArch) (p : Nat) : Option (IUnit × WarpArch) :=
  match indexOf (fun v => v.ply == p) a.stack.reverse with
  | none => none
  | some k =>
    let i := a.stack.length - 1 - k
    (a.stack[i]?).map (fun v => (v, { a with stack := dropAt a.stack i }))

/-- Refill one ply (R140, R183): an empty primary slot from the secondary slot or the stack, an empty secondary slot from
the stack. -/
def refillPly (a : WarpArch) (p : Nat) : WarpArch :=
  let a1 :=
    if a.units.any (isPrimaryOf p) then a
    else
      match indexOf (isSecondaryOf p) a.units with
      | some k => { a with units := modAt a.units k (fun v => { v with sec := false, ply := 0 }) }
      | none =>
        match popStack a p with
        | some (v, a') => { a' with units := a'.units ++ [{ v with sec := false, ply := 0 }] }
        | none => a
  if a1.units.any (isSecondaryOf p) then a1
  else
    match popStack a1 p with
    | some (v, a') => { a' with units := a'.units ++ [v] }
    | none => a1

/-- Drop units without lanes and refill every ply. -/
def normalise (a : WarpArch) : WarpArch :=
  let a1 := { a with units := a.units.filter (fun v => v.lanes != 0), stack := a.stack.filter (fun v => v.lanes != 0) }
  (List.range 8).foldl refillPly a1

/-- Merge the selected units and stack entries, ply by ply (R185): in the primary slot where it takes part, else in the
secondary slot, or in one stack entry when that slot holds other lanes. Every merged unit is a copy of `proto`. -/
def gather (a : WarpArch) (sel : IUnit → Bool) (proto : IUnit) : WarpArch :=
  let chosen := a.units.filter sel
  let all := (chosen ++ a.stack.filter sel).foldl (fun m v => m ||| v.lanes) (0 : Lanes)
  let rest := a.units.filter (fun v => !sel v)
  let prim := (pliesOf all).filter (fun p => chosen.any (isPrimaryOf p))
  let fragLanes := all &&& prim.foldl (fun m p => m ||| plyMask p) 0
  let frag := if fragLanes = 0 then [] else [{ proto with sec := false, ply := 0, lanes := fragLanes }]
  let others := (pliesOf all).filter (fun p => !prim.contains p)
  let slot (p : Nat) : IUnit := { proto with sec := true, ply := p, lanes := all &&& plyMask p }
  let secs := (others.filter (fun p => !rest.any (isSecondaryOf p))).map slot
  let pushed := (others.filter (fun p => rest.any (isSecondaryOf p))).map slot
  normalise { a with units := rest ++ frag ++ secs, stack := a.stack.filter (fun v => !sel v) ++ pushed }

/-- The frames a unit at trap level holds (R153): those of its ply slots. -/
def IUnit.frames (v : IUnit) : List TrapFrame := v.trap.toList ++ v.more

/-- Two records of one frame: frames in use name disjoint lanes. -/
def sameFrame (f g : TrapFrame) : Bool := f.fact == g.fact

/-- The block instances that a unit stands in (R193). -/
def IUnit.insts (v : IUnit) : List Nat := v.pos.inst :: v.alsoIn

/-- A merged unit holds every frame of the units it merges, its own first (R153), and stands in every block instance that they stand
in (R193). -/
def joinFrames (sides : List IUnit) (v : IUnit) : IUnit :=
  let all := sides.flatMap IUnit.frames
  let own := v.trap <|> all.head?
  let rest := all.foldl (fun acc f => if (own.toList ++ acc).any (sameFrame f) then acc else acc ++ [f]) ([] : List TrapFrame)
  let insts := (sides.flatMap IUnit.insts).eraseDups.filter (fun i => i != 0 && i != v.pos.inst)
  { v with trap := own, more := rest, alsoIn := insts }

/-- After a merge into the lanes `m`, every outstanding access of a merged unit precedes the merged unit's accesses
(R196). -/
def relabel (accs : List Access) (m : Lanes) : List Access :=
  accs.map (fun c => if c.lanes &&& m = 0 then c else { c with lanes := c.lanes ||| m })

/-! ### The split table (R184, R185) -/

/-- The next serial: it skips 0 and any value a valid entry holds. -/
def nextSerial (splits : Sparse Split) : Nat → BitVec 16 → BitVec 16
  | 0, n => n
  | f + 1, n => if n = 0 || splits.any (fun e => e.2.serial == n) then nextSerial splits f (n + 1) else n

/-- The lowest free entry. -/
def freeSplit (splits : Sparse Split) : Nat :=
  ((List.range 64).find? (fun k => (Sparse.find splits k).isNone)).getD 63

/-- The path of a key to the root, the key's own entry first. -/
def keyPath (splits : Sparse Split) : Nat → Option Nat → List Nat
  | 0, _ => []
  | _, none => []
  | f + 1, some e =>
    match Sparse.find splits e with
    | none => []
    | some x => e :: keyPath splits f x.parent

/-- Key `k` is the root, an ancestor of key `j`, or equal to it (R186). -/
def keyAbove (splits : Sparse Split) (k j : Option Nat) : Bool :=
  match k with
  | none => true
  | some e => (keyPath splits 64 j).contains e

/-- A header's word index (R184), counted from the kernel's code object in either direction, modulo 2^24: a handler's code or
a BRX target may lie in another object. DEDUCED (log entry 76). -/
def wordIndex (blk : Block) (hdr : Nat) : BitVec 24 := BitVec.ofInt 24 (((hdr : Int) - (blk.code : Int)) / 8)

/-- A key names the header at an address (R140, R185). -/
def namesHeader (splits : Sparse Split) (blk : Block) (key : Option Nat) (hdr : Nat) : Bool :=
  match key with
  | none => false
  | some e => (Sparse.find splits e).any (fun sp => sp.addr != 0 && sp.addr == wordIndex blk hdr)

/-- Entries are dissolved: every unit and stack entry that carried one carries `top` instead, and one that waited at a header applies
R140 again there: it goes on waiting, counted for `top`, where that key names the header, else it enters. Every entry whose parent is
gone hangs under `top` (R186). -/
def dissolve (blk : Block) (a : WarpArch) (gone : List Nat) (top : Option Nat) : WarpArch :=
  let up (k : Option Nat) : Option Nat :=
    match k with
    | none => none
    | some e => if gone.contains e then top else some e
  let stays (v : IUnit) : Bool := up v.key != v.key && v.hold == .reconv && namesHeader a.splits blk top v.pos.hdr
  let rekey (v : IUnit) : IUnit :=
    if up v.key = v.key then v
    else if stays v then { v with key := up v.key }
    else { v with key := up v.key, entering := v.entering || v.hold == .reconv,
                  hold := if v.hold == .reconv then .none else v.hold }
  let m := ((a.units ++ a.stack).filter stays).foldl (fun m v => m ||| v.lanes) (0 : Lanes)
  { a with splits := (a.splits.filter (fun e => !gone.contains e.1)).map (fun e => (e.1,
             { e.2 with parent := up e.2.parent, waiting := if some e.1 = top then e.2.waiting ||| m else e.2.waiting })),
           units := a.units.map rekey, stack := a.stack.map rekey }

/-- The number of parts an entry divides its lanes into: the units and stack entries that carry its key, and the entries
under it. -/
def partsOf (a : WarpArch) (e : Nat) : Nat :=
  ((a.units ++ a.stack).filter (fun v => v.key == some e)).length + (a.splits.filter (fun f => f.2.parent == some e)).length

/-- Room for one more split (R184): in a full table, the entries that no longer divide their lanes, as a merge at a
loop-permissive header may leave them, give way to their parents. -/
def makeRoom (blk : Block) (a : WarpArch) : WarpArch :=
  if a.splits.length < 64 then a
  else (a.splits.map (·.1)).foldl (fun b e =>
    match Sparse.find b.splits e with
    | none => b
    | some sp => if partsOf b e ≤ 1 then dissolve blk b [e] sp.parent else b) a

/-- The key nearest to a key's own that is above every one of `keys`: their nearest common ancestor. -/
def commonKey (splits : Sparse Split) (key : Option Nat) (keys : List (Option Nat)) : Option Nat :=
  (keyPath splits 64 key).find? (fun e => keys.all (fun k => keyAbove splits (some e) k))

/-- A unit that holds every lane of its split leaves it: the entry is free and the unit carries the key held before the split
(R140, R184). -/
def shedKeys : Nat → WarpArch → Nat → WarpArch
  | 0, a, _ => a
  | f + 1, a, u =>
    let v := (a.units[u]?).getD {}
    match v.key with
    | none => a
    | some e =>
      match Sparse.find a.splits e with
      | none => a
      | some sp =>
        if sp.lanes = v.lanes then
          shedKeys f { a with splits := Sparse.erase e a.splits, units := modAt a.units u (fun q => { q with key := sp.parent }) } u
        else a

/-- A split entry changed. -/
def modSplit (a : WarpArch) (e : Nat) (f : Split → Split) : WarpArch :=
  match Sparse.find a.splits e with
  | some x => { a with splits := Sparse.insert e (f x) a.splits }
  | none => a

/-- The parent of a split when it names the same header: the merged sides arrive for it at once (R185). -/
def parentHere (splits : Sparse Split) (sp : Split) : Option Nat :=
  sp.parent.bind (fun p => (Sparse.find splits p).bind (fun q => if q.addr = sp.addr then some p else none))

/-- Merge the sides of a complete split, from units and stack entries alike: its entry is freed and the merged units carry
the parent key. Where the header is the parent's too their lanes are added to its WAITING, which may complete the parent in
turn; else they enter the header under the parent key (R140, R185). -/
def mergeSplit : Nat → Warp → Nat → Warp
  | 0, x, _ => x
  | f + 1, x, e =>
    match Sparse.find x.arch.splits e with
    | none => x
    | some sp =>
      if sp.waiting = sp.lanes then
        let sel (v : IUnit) : Bool := v.key == some e
        let sides := (x.arch.units ++ x.arch.stack).filter sel
        let up := parentHere x.arch.splits sp
        let v := sides.headD {}
        let proto := joinFrames sides { v with key := sp.parent, hold := if up.isSome then .reconv else .none, age := 0,
                                               entering := up.isNone }
        let a := gather { x.arch with splits := Sparse.erase e x.arch.splits } sel proto
        let y := { x with arch := a, accs := relabel x.accs sp.lanes }
        match up with
        | none => y
        | some p => mergeSplit f { y with arch := modSplit a p (fun q => { q with waiting := q.waiting ||| sp.lanes }) } p
      else x

/-- Merge every complete split. -/
def mergeAll (x : Warp) : Warp := (x.arch.splits.map (·.1)).foldl (mergeSplit 64) x

/-! ### Loop merges (R186) -/

/-- The unit stands at a header and has not issued its first bundle. -/
def standsAt (hdr : Nat) (v : IUnit) : Bool := v.pos.hdr == hdr && v.pos.idx == 0 && !v.entering

/-- A merge of two units, ply by ply (R185), leaves one unit: both hold primary slots, or they share a ply. -/
def joinsAsOne (v w : IUnit) : Bool := (!v.sec && !w.sec) || (pliesOf v.lanes).any (fun p => (pliesOf w.lanes).contains p)

/-- The unit that an entering unit `u` merges with at a loop-permissive header. Units of one key that a merge ply by ply
leaves apart, as a secondary slot and a fragment without its ply, have merged already. DEDUCED (log entry 75). -/
def loopPartner (a : WarpArch) (u : Nat) (hdr : Nat) (key : Option Nat) : Option Nat :=
  (List.range a.units.length).find? (fun k =>
    match a.units[k]? with
    | none => false
    | some v => k != u && standsAt hdr v && (keyAbove a.splits key v.key || keyAbove a.splits v.key key)
        && (key != v.key || joinsAsOne v ((a.units[u]?).getD {})))

/-- Units `u` and `k` merge under the key nearer the root; the entries between dissolve, and their units carry that key
and apply R140 again where they stand. -/
def loopMerge (blk : Block) (x : Warp) (u k : Nat) : Warp :=
  let a := x.arch
  let ku := (x.unit u).key
  let kv := (x.unit k).key
  let top := if keyAbove a.splits ku kv then ku else kv
  let low := if keyAbove a.splits ku kv then kv else ku
  let gone := (keyPath a.splits 64 low).filter (fun e => !(keyPath a.splits 64 top).contains e)
  let m := (x.unit u).lanes ||| (x.unit k).lanes
  let a0 := dissolve blk a gone top
  let a1 := { a0 with splits := a0.splits.map (fun e => (e.1, { e.2 with waiting := e.2.waiting &&& ~~~m })) }
  let proto := joinFrames [x.unit u, x.unit k] { x.unit u with key := top, hold := .none, age := 0, entering := true }
  let sel (v : IUnit) : Bool := (v.lanes &&& m) != 0
  { x with arch := gather a1 sel proto, accs := relabel x.accs m }

/-! ### Header entry (R37, R140) -/

/-- The unit's key names the header it enters (R140, R185). -/
def keyNames (a : WarpArch) (blk : Block) (v : IUnit) (hdr : Nat) : Option Nat :=
  if namesHeader a.splits blk v.key hdr then v.key else none

/-- Units and stack entries that stand at a header before its first bundle, parked at it or not, and whose key now names it wait there
(R186 applies R140 and R185 again where a rekeyed unit stands). -/
def arriveRekeyed (blk : Block) (x : Warp) (top : Option Nat) : Warp :=
  match top with
  | none => x
  | some e =>
    let here (v : IUnit) : Bool :=
      v.key == top && v.pos.idx == 0 && !v.entering && v.hold != .reconv && v.hold != .ended && v.pos.head.rcpt
        && namesHeader x.arch.splits blk v.key v.pos.hdr
    let m := ((x.arch.units ++ x.arch.stack).filter here).foldl (fun m v => m ||| v.lanes) (0 : Lanes)
    let stop (v : IUnit) : IUnit := if here v then { v with hold := .reconv } else v
    let a := modSplit { x.arch with units := x.arch.units.map stop, stack := x.arch.stack.map stop } e
      (fun sp => { sp with waiting := sp.waiting ||| m })
    mergeSplit 64 { x with arch := a } e

/-- One unit enters the header it stands at: the checks of R37 step 1, a loop merge, the reconvergence wait, or LIVE and
WAIT. A word that a transfer led to and that is no header is reported with its address in FADDR (R143, R154). -/
def enterUnit (s : State) (w u : Nat) : State :=
  let x := s.warp w
  let v := x.unit u
  let blk := s.block x.blk
  let x0 := x.setUnit u (fun v => { v with entering := false })
  match headerAt s x.ctx v.pos.hdr with
  | .error t => takeTrap (s.setWarp w x0) w u (if v.jumped && t.vec == 1 && t.cause == 6 then { t with faddr := v.pos.hdr } else t)
  | .ok h =>
    let x1 := x.setUnit u (fun v =>
      { v with entering := false, pos := { hdr := v.pos.hdr, idx := 0, head := h, inst := 0 }, alsoIn := [] })
    match (if h.rcpt && h.loop then loopPartner x1.arch u v.pos.hdr v.key else none) with
    | some k =>
      let top := if keyAbove x.arch.splits v.key (x.unit k).key then v.key else (x.unit k).key
      s.setWarp w (arriveRekeyed blk (loopMerge blk x1 u k) top)
    | none =>
      match (if h.rcpt then keyNames x1.arch blk v v.pos.hdr else none) with
      | some e =>
        let a := modSplit x1.arch e (fun sp => { sp with waiting := sp.waiting ||| v.lanes })
        let x2 := { x1 with arch := { a with units := modAt a.units u (fun v => { v with hold := .reconv }) } }
        s.setWarp w (mergeSplit 64 x2 e)
      | none =>
        let a := (x1.arch.applyLive h v.lanes).noteLive h v.lanes
        wantLive (s.setWarp w { x1 with arch := { a with units := modAt a.units u (fun v => { v with hold := headerHold a h }) } }) w h
          v.lanes

/-- Every unit that has still to enter its header does so; merges at headers may make more. -/
def settleEntries : Nat → State → Nat → State
  | 0, s, _ => s
  | f + 1, s, w =>
    match indexOf (fun v => v.entering) (s.warp w).arch.units with
    | none => s
    | some u => settleEntries f (enterUnit s w u) w

/-- Bound on the entries that one transfer can cause: every unit, and one for each split entry and stack entry. -/
def entryFuel : Nat := 2048

/-! ### Sides (R138, R139) -/

/-- A side of a transfer: destination and lanes. -/
abbrev Side := Nat × Lanes

/-- Add lanes to the side of a destination, sides kept in rising order of destination. -/
def addSide (dest : Nat) (m : Lanes) : List Side → List Side
  | [] => [(dest, m)]
  | (d, k) :: r => if dest < d then (dest, m) :: (d, k) :: r else if dest = d then (d, k ||| m) :: r else (d, k) :: addSide dest m r

/-- The sides that hold lanes. -/
def sidesOf (l : List Side) : List Side := (l.foldl (fun acc e => addSide e.1 e.2 acc) []).filter (fun e => e.2 != 0)

/-- The sides within a ply, in rising order. -/
def plySides (sides : List Side) (p : Nat) : List Side :=
  (sides.map (fun e => (e.1, e.2 &&& plyMask p))).filter (fun e => e.2 != 0)

/-- The next header in layout order. -/
def IUnit.nextHeader (v : IUnit) : Nat := v.pos.hdr + 8 * (1 + v.pos.head.len.toNat)

/-- The unit's BRA, BRX or CALL leads some of these lanes on (R143). -/
def jumpsTo (v : IUnit) (lanes : Lanes) : Bool :=
  match v.xfer with
  | some t => (t.kind == .branch || t.kind == .call) && t.taken &&& lanes != 0
  | none => false

/-- A unit of a side after a split: at the destination, to enter it, with the new key. -/
def sideUnit (v : IUnit) (key : Option Nat) (sec : Bool) (ply dest : Nat) (lanes : Lanes) : IUnit :=
  { v with sec := sec, ply := if sec then ply else 0, lanes := lanes, pos := { v.pos with hdr := dest, idx := 0, inst := 0 },
           alsoIn := [], key := key, hold := .none, age := 0, skip := false, xfer := none, fenced := false, issued := false, fe := 0,
           wake := none, passed := false, latch := [], arms := none, entering := true, jumped := jumpsTo v lanes }

/-- The entries a split pushes on each ply's stack (R139 steps 1 and 2). -/
def sidePushes (a : WarpArch) (v : IUnit) (sides : List Side) (p : Nat) : List Side :=
  let more := (plySides sides p).drop 1
  if v.sec || a.units.any (isSecondaryOf p) then more else more.drop 1

/-- A push would find a full stack (R139 step 5). -/
def stackOverflows (a : WarpArch) (v : IUnit) (sides : List Side) : Bool :=
  (pliesOf v.lanes).any (fun p => decide (64 < (stackOf a p).length + (sidePushes a v sides p).length)
    && !(sidePushes a v sides p).isEmpty)

/-- A unit gives way to its sides (R139): the primary slots in fragments, further sides of mixed plies in secondary slots or
on stacks. `mk` makes the unit of a side, given its kind of slot and its ply. -/
def placeSides (a : WarpArch) (u : Nat) (v : IUnit) (sides : List Side) (mk : Bool → Nat → Side → IUnit) : WarpArch :=
  let lanes := sides.foldl (fun m x => m ||| x.2) (0 : Lanes)
  let plies := pliesOf lanes
  let first (p : Nat) : Side := ((plySides sides p)[0]?).getD (0, 0)
  let frags :=
    if v.sec then [mk true v.ply (first v.ply)]
    else (sides.map (fun sd =>
      let m := (plies.filter (fun p => (first p).1 == sd.1)).foldl (fun m p => m ||| (first p).2) (0 : Lanes)
      mk false 0 (sd.1, m))).filter (fun q => q.lanes != 0)
  let secs := if v.sec then [] else plies.filterMap (fun p =>
    if a.units.any (isSecondaryOf p) then none
    else ((plySides sides p)[1]?).map (mk true p))
  let pushed := plies.flatMap (fun p => (sidePushes a v sides p).map (mk true p))
  { a with units := dropAt a.units u ++ frags ++ secs, stack := a.stack ++ pushed }

/-- A unit's issue divides into two or more sides (R139): a new split entry, whose key every side carries. -/
def splitUnit (a : WarpArch) (u : Nat) (v : IUnit) (sides : List Side) (addr : BitVec 24) : WarpArch :=
  let e := freeSplit a.splits
  let serial := nextSerial a.splits 65 (a.serial + 1)
  let lanes := sides.foldl (fun m x => m ||| x.2) (0 : Lanes)
  let entry : Split := { lanes := lanes, waiting := 0, parent := v.key, serial := serial, addr := addr }
  { placeSides a u v sides (fun sec p sd => sideUnit v (some e) sec p sd.1 sd.2) with
    splits := Sparse.insert e entry a.splits, serial := serial }

/-! ### Exits (R144, R185) -/

/-- Lanes stop being live: they leave their units, stack entries and split entries; entries without lanes are freed, and
splits that are now complete merge. -/
def exitLanes (x : Warp) (m : Lanes) : Warp :=
  let a := x.arch
  let cut (v : IUnit) : IUnit := { v with lanes := v.lanes &&& ~~~m }
  let splits := (a.splits.map (fun e => (e.1, { e.2 with lanes := e.2.lanes &&& ~~~m, waiting := e.2.waiting &&& ~~~m }))).filter
    (fun e => e.2.lanes != 0)
  let a1 := normalise { a with live := a.live &&& ~~~m, units := a.units.map cut, stack := a.stack.map cut, splits := splits }
  mergeAll { x with arch := a1 }

/-! ### Block instances (R193) -/

/-- A block instance is still inhabited: by a unit, a stack entry, or a trapped unit that will return to it. -/
def instInhabited (a : WarpArch) (id : Nat) : Bool :=
  let inUnit (v : IUnit) : Bool := v.insts.contains id || v.frames.any (fun f => (f.pos.inst :: f.alsoIn).contains id)
  a.units.any inUnit || a.stack.any inUnit

/-- An operation of the warp has not completed: its path issue is open, or its matrix instruction, or its EFILL, which a pre-emption
lets rest (R174). -/
def opOpen (s : State) (w : Nat) (x : Warp) (id : Nat) : Bool :=
  s.cmds.any (fun c => c.owner == .warp w id && (match c.kind with
    | .efill _ _ => true
    | _ => false))
  || x.paths.any (fun p => (p.id == id || p.also.contains id) && !p.done) || (s.block x.blk).mq.any (fun m => m.warp == w && m.id == id)

/-- Set a completion flag; 12 and above name none. -/
def setFlag (flags : BitVec 12) (k : BitVec 4) : BitVec 12 := if k.toNat < 12 then flags ||| BitVec.ofNat 12 (2 ^ k.toNat) else flags

def clearFlag (flags : BitVec 12) (k : BitVec 4) : BitVec 12 :=
  if k.toNat < 12 then flags &&& ~~~(BitVec.ofNat 12 (2 ^ k.toNat)) else flags

/-- A completion flag that an instruction of the issue under way has cleared (R193). -/
def State.noteClear (s : State) (k : BitVec 4) : State := { s with cur := { s.cur with cleared := setFlag s.cur.cleared k } }

/-- Block instances that have been left and whose work has completed set their flags, but for the flags `kept`, which an instruction
of the issue under way has cleared: in one cc the clear stands (R193). The clear of a block's own FLAGA and FLAGB does not keep back the
set that ends the same instance in the same cc. DEDUCED (log entry 100). -/
def settleInsts (s : State) (w : Nat) (kept : BitVec 12 := 0) : State :=
  let x := s.warp w
  let isOver (b : BlockInst) : Bool := !instInhabited x.arch b.id && b.ops.all (fun id => !opOpen s w x id)
  let done := x.arch.insts.filter isOver
  if done.isEmpty then s
  else
    let flags := done.foldl (fun f b => setFlag (setFlag f b.flagA) b.flagB) x.arch.flags &&& ~~~kept
    s.setWarp w { x with arch := { x.arch with flags := flags, insts := x.arch.insts.filter (fun b => !isOver b) } }

/-- The first bundle of a block issues (R193): its flags are cleared and an instance starts. -/
def startInst (x : Warp) (u : Nat) : Warp :=
  let h := (x.unit u).pos.head
  let id := x.nextInst
  let flags := clearFlag (clearFlag x.arch.flags h.flagA) h.flagB
  let a := { x.arch with flags := flags, insts := x.arch.insts ++ [⟨id, h.flagA, h.flagB, []⟩],
                         units := modAt x.arch.units u (fun v => { v with pos := { v.pos with inst := id } }) }
  { x with arch := a, nextInst := id + 1 }

/-- An operation counted for the instances that the issuing unit stands in. -/
def countOp (a : WarpArch) (u id : Nat) : WarpArch :=
  let insts := ((a.units[u]?).getD {}).insts
  { a with insts := a.insts.map (fun b => if insts.contains b.id then { b with ops := b.ops ++ [id] } else b) }

end Sys2Proof.Machine
end

