-- ==== Sys2Proof/Machine/Access.lean ====
section
/-! DEFINITION. How a slot hands out memory accesses: the checks of R114, faults (R253), paths (R132), fences joined to an
access (R131), and the outstanding-access records. -/

namespace Sys2Proof.Machine

/-! ### Fault buffers (R253 to R255) -/

/-- Signal an interrupt source unless it is pending (R255, R338). -/
def signal (s : State) (source : Nat) : State := { s with sys := { s.sys with pending := s.sys.pending ||| BitVec.ofNat 11 (2 ^ source) } }

/-- The cores of an ashlar. -/
def coresOf (ashlar : Nat) : List Nat := (List.range 12).map (12 * ashlar + ·)

/-- A valid entry of a context and region in a core's buffer. -/
def faultMatch (ctx : BitVec 12) (region : BitVec 40) (e : FaultEntry) : Bool := e.valid && e.ctx == ctx && e.region == region

/-- Record one fault of a core (R253): merged into a valid entry of the ashlar, else the lowest free entry of the core's
buffer, else dropped. KIND bit 0: a write; bit 1: an engine access. -/
def recordFault (s : State) (core : Nat) (ctx : BitVec 12) (va : Nat) (write engine : Bool) : State :=
  let region : BitVec 40 := BitVec.ofNat 40 (va / 2 ^ 16)
  let kind : BitVec 2 := BitVec.ofNat 2 (boolNat write + 2 * boolNat engine)
  let bit : BitVec 12 := BitVec.ofNat 12 (2 ^ (core % 12))
  match (coresOf (ashlarOf core)).find? (fun c => (s.core c).faults.any (faultMatch ctx region)) with
  | some c =>
    let k := s.core c
    s.setCore c { k with faults := k.faults.map (fun e =>
      if faultMatch ctx region e then
        { e with kind := e.kind ||| kind, cores := e.cores ||| bit, count := if e.count = 65535 then e.count else e.count + 1 }
      else e) }
  | none =>
    let k := s.core core
    match indexOf (fun e => !e.valid) k.faults with
    | some j =>
      let e : FaultEntry := { valid := true, kind := kind, region := region, ctx := ctx, count := 1, cores := bit }
      signal (s.setCore core { k with faults := setAt k.faults j e }) (ashlarOf core + 1)
    | none =>
      if k.dropped then s else signal (s.setCore core { k with dropped := true }) (ashlarOf core + 1)

/-- One fault for each distinct region of the failing addresses. -/
def recordFaults (s : State) (core : Nat) (ctx : BitVec 12) (vas : List Nat) (write engine : Bool) : State :=
  ((vas.map (· / 2 ^ 16)).eraseDups).foldl (fun t r => recordFault t core ctx (r * 2 ^ 16) write engine) s

/-! ### Checks (R112, R114) -/

/-- One piece of a lane's access before its checks: lane, address, offset within the lane's access, size, helper. -/
structure Piece where
  lane : Nat
  va : Nat
  off : Nat
  size : Nat
  helper : Bool
deriving DecidableEq, Repr, Inhabited

/-- A checked piece: where it leads. -/
abbrev Placed := Piece × TransResult

/-- The checks' verdict on an issue. -/
inductive Verdict where
  | pass
  /-- A memory trap: cause, failing lanes, address of the lowest. -/
  | trap (cause : Nat) (lanes : Lanes) (addr : Nat)
  /-- Check 5: the failing addresses. -/
  | park (vas : List Nat)
  | wait
deriving DecidableEq, Repr, Inhabited

/-- The check of R114 that a placed piece fails. -/
def failsAt (p : Placed) : Option Nat :=
  match p.2 with
  | .fail c => some c
  | _ => none

/-- The lane order of checks: the first check that fails in some selected lane, its lanes, and the lowest lane's failing
address. -/
def verdict (ps : List Placed) : Verdict :=
  let sel := ps.filter (fun p => !p.1.helper)
  if ps.any (fun p => p.2 == .wait) then .wait
  else
    match ([1, 2, 3, 4, 5] : List Nat).find? (fun c => sel.any (fun p => failsAt p == some c)) with
    | none => .pass
    | some c =>
      let bad := sel.filter (fun p => failsAt p == some c)
      if c = 5 then .park (bad.map (fun p => p.1.va))
      else .trap c (maskOf (bad.map (fun p => p.1.lane))) ((bad.map (fun p => p.1.va)).headD 0)

/-- Place the pieces of a global access: alignment when asked, then translation (checks 3 to 5). -/
def placeGlobal (s : State) (need : Need) (align : Nat) : List Piece → List Placed × State
  | [] => ([], s)
  | p :: ps =>
    if p.va % align ≠ 0 then
      let r := placeGlobal s need align ps
      ((p, .fail 1) :: r.1, r.2)
    else
      let t := translate s s.cw.core s.cw.cls s.cw.ctx p.va need
      let r := placeGlobal t.2 need align ps
      ((p, t.1) :: r.1, r.2)

/-- A block of the issuing warp's cluster launch by its index (R112). -/
def clusterBlock (s : State) (k : Nat) : Option Nat := (s.cblk.cluster)[k]?

/-- Place a scratchpad address: the block and the byte offset, or check 2 (R112). `cluster` selects the cluster form. -/
def placeScratch (s : State) (cluster : Bool) (va size : Nat) : Except Nat (Nat × Nat) :=
  if cluster then
    if 2 ^ 23 ≤ va then .error 2
    else
      match clusterBlock s (va / 2 ^ 21) with
      | none => .error 2
      | some b => if va % 2 ^ 21 + size ≤ (s.block b).spAlloc then .ok (b, va % 2 ^ 21) else .error 2
  else if va + size ≤ s.cblk.spAlloc ∧ va < 2 ^ 21 then .ok (s.cw.blk, va) else .error 2

/-- A scratchpad piece with its alignment and validity checks; the block travels in the address's high part. -/
def placeScratchPiece (s : State) (cluster : Bool) (p : Piece) : Placed :=
  if p.va % p.size ≠ 0 then (p, .fail 1)
  else
    match placeScratch s cluster p.va p.size with
    | .ok (b, off) => (p, .ok (b * 2 ^ 21 + off) false)
    | .error c => (p, .fail c)

/-! ### Access records -/

/-- Is the block the issuing warp's own? -/
def isOwnBlock (s : State) (bank : Option Nat) : Bool :=
  match bank with
  | some b => b == s.cw.blk
  | none => true

/-- A path counter's value (R132). -/
def pathCount (x : Warp) (path : Nat) : Nat := x.paths.countP (fun p => p.path == path)

/-- Counters fall in issue order: completed issues leave from the oldest on. -/
def dropDone : List PathIssue → List Nat → List PathIssue
  | [], _ => []
  | p :: ps, open_ =>
    if p.done && !open_.contains p.path then dropDone ps open_ else p :: dropDone ps (p.path :: open_)

/-- One operation of a path's issue is done; the issue with its last. -/
def PathIssue.finish (p : PathIssue) (id : Nat) : PathIssue :=
  if p.id = id then
    match p.also with
    | [] => { p with done := true }
    | j :: r => { p with id := j, also := r }
  else { p with also := p.also.filter (· != id) }

/-- An operation on a path has completed (R132). -/
def Warp.finishPath (x : Warp) (id : Nat) : Warp := { x with paths := dropDone (x.paths.map (fun p => p.finish id)) [] }

/-- The loads and atomics of the warp that have not returned (R303). -/
def openLoads (x : Warp) : List Access :=
  x.accs.filter (fun c =>
    match c.kind with
    | .load => true
    | .loadFe => false
    | .atomic _ _ => true
    | .cas => true
    | _ => false)

/-- Every earlier load and atomic of the warp has returned. -/
def loadsReturned (x : Warp) (id : Nat) : Bool := (openLoads x).all (fun c => id ≤ c.id)

/-- A block's rollback eligibility ends (R307). -/
def endEligible (s : State) (b : Nat) : State :=
  match Sparse.find s.blocks b with
  | some k => if k.eligible then s.setBlock b { k with eligible := false } else s
  | none => s

/-- The warp's posted-write source identity (R213): module, context, block index and warp index. -/
def sourceId (s : State) (x : Warp) : W64 :=
  BitVec.ofNat 64 (s.sys.modid.toNat * 2 ^ 60 + x.ctx.toNat * 2 ^ 48 + (s.block x.blk).idx % 2 ^ 32 * 2 ^ 8 + x.idx)

/-- The accesses of one issue numbered from `id` on, with the issuing unit's identity. -/
def numberAccesses (s : State) : List Access → Nat → List Access
  | [], _ => []
  | c :: cs, id =>
    { c with id := id, lanes := s.unit.lanes, unit := s.cur.u, slotVec := s.cur.slotVec,
             snap := if c.dest.isSome then some s.cur.snap else none } :: numberAccesses s cs (id + 1)

/-- New accesses of the issuing unit, one issue on a path when a selected lane takes part (R132). -/
def pushAccesses (s : State) (cs : List Access) (path : Nat) (counted : Bool) : State :=
  match numberAccesses s cs s.cw.nextId with
  | [] => s
  | c :: rest =>
    let x := s.cw
    let new := c :: rest
    let a := if counted then new.foldl (fun a e => countOp a s.cur.u e.id) x.arch else x.arch
    s.setCw { x with arch := a, accs := x.accs ++ new, nextId := x.nextId + new.length,
                     acks := x.acks + new.foldl (fun n e => n + e.acks) 0,
                     paths := if counted then x.paths ++ [⟨path, c.id, rest.map (·.id), false⟩] else x.paths }

/-! ### Access with a joined fence (R130, R131) -/

/-- The memory step of a slot: a release before it, the access, an acquire after it. The fence is performed also when the access's
guard passes in no lane. DESIGN CHOICE (log entry 83). -/
def withFence (s : State) (order : BitVec 2) (scope : BitVec 3) (issue : State → State) : State :=
  let v := s.unit
  if order = 2 ∧ !v.fenced then s.hold (.fenceRel scope)
  else if !v.issued then
    let t := issue s
    if t.cur.status == .ok && order == 1 then
      (t.setUnit (fun v => { v with issued := true, fenced := false })).hold (.fenceAcq scope)
    else t
  else if order = 1 ∧ !v.fenced then s.hold (.fenceAcq scope)
  else s

/-- The context's address space is torn down, by its descriptor or by a tenant's removal (R244, R247). -/
def tornDown (s : State) (ctx : BitVec 12) : Bool := isTorn s ctx || ((descriptor s ctx).torn && partOf s ctx != 0)

/-- An access of a torn-down address space fails: its unit ends, by the removal of its context (R244). -/
def endTorn (s : State) : State := { s with agenda := .event .contextRemoval { ctx := s.cw.ctx } :: s.agenda }.hold .ended

/-- The slot traps, parks or waits as its checks say; in a torn-down address space the unit ends (R244); else it goes on with the placed pieces. -/
def onVerdict (s : State) (write : Bool) (ps : List Placed) (go : State → State) : State :=
  match verdict ps with
  | .pass => go s
  | .trap c lanes addr =>
    if c = 4 ∧ tornDown s s.cw.ctx then endTorn s
    else s.trap { vec := 2, cause := c, fmask := if s.cur.slotVec then some lanes else none, faddr := addr }
  | .park vas => (recordFaults s s.cw.core s.cw.ctx vas write false).hold (.fault s.cur.slotVec)
  | .wait => s.hold .walk

end Sys2Proof.Machine
end

