-- ==== Sys2Proof/Machine/Perform.lean ====
section
/-! DEFINITION. Accesses that are performed (R116 to R132, R195 to R201, R207, R208): loads return, stores and atomics take
effect, posted writes reach their homes, and poisoned data squashes what depended on it (R303, R304). -/

namespace Sys2Proof.Machine

/-! ### Order (R196, R197, R201, R208, R303) -/

/-- The kind changes memory or full/empty bits: an effect held back while the bundle is provisional (R303). -/
def isEffect (k : AccKind) : Bool :=
  match k with
  | .load => false
  | _ => true

/-- A store in the table of R201: it loads nothing. -/
def isPureStore (k : AccKind) : Bool :=
  match k with
  | .store _ | .storeFe => true
  | _ => false

/-- The access is a load in the table of R201: it stores nothing. -/
def isPureLoad (k : AccKind) : Bool :=
  match k with
  | .load | .loadFe => true
  | _ => false

/-- The access stands outside R197 (R198). -/
def isPosted (k : AccKind) : Bool :=
  match k with
  | .posted | .red _ => true
  | _ => false

def isArrival (k : AccKind) : Bool :=
  match k with
  | .arrive _ _ => true
  | _ => false

/-- Two parts share a byte. -/
def overlaps (p q : AccPart) : Bool := decide (p.addr < q.addr + q.size) && decide (q.addr < p.addr + p.size)

/-- Two parts touch one 32-bit word. -/
def sameWord (p q : AccPart) : Bool :=
  decide (p.addr / 4 ≤ (q.addr + q.size - 1) / 4) && decide (q.addr / 4 ≤ (p.addr + p.size - 1) / 4)

/-- The access names a block other than the warp's own (R202). -/
def isRemote (x : Warp) (c : Access) : Bool :=
  match c.bank with
  | some b => b != x.blk
  | none => false

/-- Earlier access `e` of one agent must be performed before parts `ps` of its later access `c` (R201, R208): local
accesses, the arrivals of barriers among them, in order but for a store before a load; accesses naming another block only where
they touch one word. -/
def keepsBack (x : Warp) (e c : Access) (ps : List AccPart) : Bool :=
  if isPosted e.kind || isPosted c.kind then false
  else if isRemote x e || isRemote x c then
    isRemote x e && isRemote x c && e.bank == c.bank && e.parts.any (fun q => ps.any (sameWord q))
  else !(isPureStore e.kind && isPureLoad c.kind)

/-- Nothing earlier of the warp holds back parts `ps` of an access. -/
def mayPerform (x : Warp) (c : Access) (ps : List AccPart) : Bool :=
  (!isEffect c.kind || loadsReturned x c.id)
    && x.accs.all (fun e => decide (c.id ≤ e.id) || e.stage != .waiting || (e.lanes &&& c.lanes) == 0 || !keepsBack x e c ps)

/-! ### Asynchronous changes of a warp -/

/-- Change the warp's state on behalf of operation `id`: the snapshots of later loads follow (R304). -/
def Warp.updArch (x : Warp) (id : Nat) (f : WarpArch → WarpArch) : Warp :=
  { x with arch := f x.arch, accs := x.accs.map (fun c => if id < c.id then { c with snap := c.snap.map f } else c) }

/-- A load has returned: provisional bundles no longer depend on it, and leave the journal in order (R303). -/
def releaseJournal (j : List (Nat × List Nat)) (id : Nat) : List (Nat × List Nat) :=
  (j.map (fun e => (e.1, e.2.filter (· != id)))).dropWhile (fun e => e.2.isEmpty)

/-- An access leaves: its path issue is done. -/
def Warp.finishAccess (x : Warp) (id : Nat) : Warp :=
  let y := x.finishPath id
  { y with accs := y.accs.filter (fun c => c.id != id), journal := releaseJournal y.journal id }

/-- A destination written in a lane with the bytes of its access, extended (R113, R118). -/
def WarpArch.deliver (a : WarpArch) (d : AccDest) (lane : Nat) (bs : List Byte) : WarpArch :=
  let v := leValue bs
  if d.scalar then a.setS d.reg (BitVec.ofNat 64 v)
  else if d.bytes < 4 then a.setV d.reg lane (BitVec.ofNat 32 (if d.signed then wrap 32 (signed (8 * d.bytes) v) else v))
  else (List.range (d.bytes / 4)).foldl (fun b k => b.setV (d.reg + k) lane (BitVec.ofNat 32 (v / 2 ^ (32 * k)))) a

/-- The returned bytes of a lane in order of offset. -/
def laneBytes (got : List (Nat × Nat × List Byte)) (lane : Nat) : List Byte :=
  let mine := got.filter (fun g => g.1 == lane)
  match mine with
  | [(_, _, b)] => b
  | [(_, o1, b1), (_, o2, b2)] => if o1 ≤ o2 then b1 ++ b2 else b2 ++ b1
  | _ => []

/-- The lanes of an LDF or STE that have completed no longer wait (R128). -/
def WarpArch.clearFe (a : WarpArch) (m : Lanes) : WarpArch :=
  let clear (v : IUnit) : IUnit := { v with fe := v.fe &&& ~~~m }
  { a with units := a.units.map clear, stack := a.stack.map clear }

/-- Record an access's progress: lanes whose last part has returned are written; the access leaves when nothing remains. -/
def Warp.progress (x : Warp) (c : Access) : Warp :=
  let lanes := (c.got.map (·.1)).eraseDups
  let full := lanes.filter (fun l => !c.parts.any (fun p => p.lane == l))
  let f (a : WarpArch) : WarpArch :=
    let a1 := match c.dest with
      | some d => full.foldl (fun (b : WarpArch) l => b.deliver d l (laneBytes c.got l)) a
      | none => a
    a1.clearFe (match c.kind with
      | .loadFe | .storeFe => maskOf full
      | _ => 0)
  let y := x.updArch c.id f
  let c' := { c with got := c.got.filter (fun g => !full.contains g.1) }
  if c'.parts.isEmpty then y.finishAccess c.id
  else { y with accs := y.accs.map (fun e => if e.id == c.id then c' else e) }

/-- The table entry of an access replaced. -/
def Warp.setAccess (x : Warp) (c : Access) : Warp := { x with accs := x.accs.map (fun e => if e.id == c.id then c else e) }

/-! ### Posted writes leave (R125, R213) -/

/-- The sectors of an access in the order of its lanes. -/
def accessSectors (c : Access) : List Nat := (c.parts.map (fun p => p.addr / 64)).eraseDups

/-- The posted write of an access to one sector. -/
def postedOf (s : State) (x : Warp) (c : Access) (sec : Nat) : PostedWrite :=
  { sector := sec, steps := (c.parts.filter (fun p => p.addr / 64 == sec)).map (fun p => (p.addr % 64, p.data)),
    red := match c.kind with
      | .red op => some op
      | _ => none
    srcId := sourceId s x, round := x.round, tc := x.cls }

/-- Count a write in the touched table (R213). -/
def touch (t : List Touch) (m : BitVec 3) (h : BitVec 4) : List Touch :=
  if t.any (fun e => e.module == m && e.home == h) then
    t.map (fun e => if e.module == m && e.home == h then { e with count := e.count + 1 } else e)
  else t ++ [⟨m, h, 1⟩]

/-- One posted write sent: to a home of this module, or to a selvage link with its home counted as touched. -/
def sendPosted (s : State) (w : Nat) (c : Access) (sec : Nat) : State :=
  let x := s.warp w
  let wr := postedOf s x c sec
  let m := moduleOf s.sys (sectorBase sec)
  let h := homeIndex s.sys (sectorBase sec)
  if m = s.sys.modid.toNat then
    { s with tok := { s.tok with posted := s.tok.posted ++ [⟨h, wr, some (w, c.id)⟩] } }
  else
    let x' := { x with touched := touch x.touched (BitVec.ofNat 3 m) (BitVec.ofNat 4 h) }
    linkSend (s.setWarp w x') (Config.linkTo m % 24) (.write wr w c.id)

/-- The posted writes of a warp that are no longer provisional leave (R303). -/
def flushPosted (s : State) (w : Nat) : State :=
  let x := s.warp w
  let go := x.accs.filter (fun c => isPosted c.kind && c.stage == .waiting && loadsReturned x c.id)
  if go.isEmpty then s
  else
    let s1 := go.foldl (fun t c => (accessSectors c).foldl (fun t sec => sendPosted t w c sec) t) (endEligible s x.blk)
    let y := s1.warp w
    s1.setWarp w { y with accs := y.accs.map (fun c => if go.any (fun g => g.id == c.id) then { c with stage := .sent } else c) }

/-- What follows every completion of a warp's access: posted writes that waited for it, and block instances (R193). -/
def afterAccess (s : State) (w : Nat) : State := settleInsts (flushPosted s w) w

/-! ### L1 and counted lines (R207, R122) -/

def l1Get (k : Core) (sec : Nat) : Option SectorData :=
  match k.l1.find? (fun l => l.line == sec / 2) with
  | some l => if sec % 2 = 0 then l.s0 else l.s1
  | none => none

/-- The lines of an L1: 512 KiB (R2). -/
def l1Lines : Nat := 4096

/-- Fill a sector of a line; in a full L1 the line filled first leaves. -/
def l1Fill (k : Core) (sec : Nat) (d : SectorData) : Core :=
  let put (l : L1Line) : L1Line := if sec % 2 = 0 then { l with s0 := some d } else { l with s1 := some d }
  if k.l1.any (fun l => l.line == sec / 2) then { k with l1 := k.l1.map (fun l => if l.line == sec / 2 then put l else l) }
  else { k with l1 := put ⟨sec / 2, none, none⟩ :: k.l1.take (l1Lines - 1) }

/-- Fill a line on a miss of one of its sectors: both sectors enter with the values they have now (R207). DESIGN CHOICE (log entry
79): the other sector stays out where it is poisoned, or where another module alone has it. -/
def l1FillLine (s : State) (core sec : Nat) (d : SectorData) : State :=
  let other := if sec % 2 = 0 then sec + 1 else sec - 1
  let k := l1Fill (s.core core) sec d
  s.setCore core (match knownSector s other with
    | some (v, false) => if (l1Get k other).isNone then l1Fill k other v else k
    | _ => k)

/-- A store of the core updates the line on its way through (R200). -/
def l1Update (k : Core) (sec : Nat) (f : SectorData → SectorData) : Core :=
  { k with l1 := k.l1.map (fun l =>
      if l.line == sec / 2 then
        (if sec % 2 = 0 then { l with s0 := l.s0.map f } else { l with s1 := l.s1.map f })
      else l) }

/-- Drop a line of the L1. -/
def l1Drop (k : Core) (line : Nat) : Core := { k with l1 := k.l1.filter (fun l => l.line != line) }

/-- Give all of an agent's tokens of a sector back to the home (R272, eviction column): TOK without the owner, WBK with it. An
agent that a census has stopped sends none (R317). -/
def returnTokens (s : State) (agent : BitVec 13) (sec : Nat) : State :=
  let h := holding s agent sec
  if h.tokens = 0 || (actState s agent sec).frozen then s
  else sendTokens s agent (homeAgent s.sys (sectorBase sec)) sec (if h.owner then 5 else 3) h.tokens h.owner h.owner 0 0

/-- The block stands on its core: its warps issue, and its monitors are armed. -/
def isPlaced (s : State) (blk : Nat) : Bool :=
  match (s.block blk).status with
  | .resident | .stopping => true
  | _ => false

/-- A monitor of a warp on the core watches the line, which pins its tokens against eviction (R134, R273). -/
def isWatched (s : State) (core line : Nat) : Bool :=
  s.warps.any (fun e => e.2.core == core && isPlaced s e.2.blk && (match e.2.mon with
    | some m => m.line == line && !m.ros
    | none => false))

/-- A counted line has been read for the last time: the L2 drops it, unless a monitor pins it (R122, R272). -/
def dropCounted (s : State) (core line : Nat) : State :=
  let s1 := s.setCore core { s.core core with counted := (s.core core).counted.filter (fun e => e.1 != line) }
  if isWatched s core line then s1
  else returnTokens (returnTokens s1 (coreAgent s core) (2 * line)) (coreAgent s core) (2 * line + 1)

/-- The L2 holds a sector of the line dirty. -/
def isDirtyLine (s : State) (core line : Nat) : Bool :=
  (holding s (coreAgent s core) (2 * line)).dirty || (holding s (coreAgent s core) (2 * line + 1)).dirty

/-- One read of a line through the L2 by an issue (R122): LDC sets the count, and the last read drops the line, which with COUNT 1
is the LDC itself. An LDC sets no count on a line that the L2 holds dirty, since a counted line never is. DESIGN CHOICE (log
entry 80). -/
def countRead (s : State) (core line : Nat) (set : Option (BitVec 12)) : State :=
  let k := s.core core
  let had := (k.counted.find? (fun e => e.1 == line)).map (·.2)
  let count := match set with
    | some n => if isDirtyLine s core line then had else some n.toNat
    | none => had
  match count.map (· - 1) with
  | none => s
  | some 0 => dropCounted s core line
  | some n => s.setCore core { k with counted := (line, n) :: k.counted.filter (fun e => e.1 != line) }

/-! ### Monitors (R134, R135) -/

/-- The unit waits for its warp's monitor and has no reason yet to return. -/
def IUnit.awaitsMonitor (v : IUnit) : Bool :=
  (match v.hold with
    | .monwait _ => true
    | _ => false) && v.wake.isNone

/-- Trigger a warp's monitor: every fragment that waits wakes with reason 0 and the monitor is disarmed; without one that
waits the trigger is kept. -/
def triggerWarp (x : Warp) (line : Nat) : Warp :=
  match x.mon with
  | none => x
  | some m =>
    if m.line ≠ line ∨ m.ros then x
    else
      let wake (v : IUnit) : IUnit := if v.awaitsMonitor then { v with wake := some 0 } else v
      if (x.arch.units ++ x.arch.stack).any IUnit.awaitsMonitor then
        { x.updArch 0 (fun a => { a with units := a.units.map wake, stack := a.stack.map wake }) with mon := none }
      else { x with mon := some { m with triggered := true } }

/-- Trigger the monitors of the warps that stand on a core, on the line of a sector. -/
def triggerMonitors (s : State) (core sec : Nat) : State :=
  { s with warps := s.warps.map (fun e =>
      if e.2.core == core && isPlaced s e.2.blk then (e.1, triggerWarp e.2 (sec / 2)) else e) }

/-! ### Stores at the L2 (R118, R195, R301) -/

/-- Bytes written one after another into a sector. -/
def putSteps (d : SectorData) (steps : List (Nat × List Byte)) : SectorData :=
  steps.foldl (fun d e => sectorPut d e.1 e.2) d

/-- The steps cover all 64 bytes. -/
def coversSector (steps : List (Nat × List Byte)) : Bool :=
  (List.range 64).all (fun k => steps.any (fun e => decide (e.1 ≤ k) && decide (k < e.1 + e.2.length)))

/-- The words a write touches are no longer as launched (R199). -/
def dirtyCode (s : State) (sec : Nat) (steps : List (Nat × List Byte)) : State :=
  let words := (steps.flatMap (fun e => (List.range e.2.length).map (fun k => (e.1 + k) / 8))).eraseDups
  { s with codeDirty := words.foldl (fun m k => Sparse.set false m (8 * sec + k) true) s.codeDirty }

/-- A write performed with all tokens of a sector by an agent of this module. A write of the whole sector clears its
poison (R301). -/
def writeHeld (s : State) (agent : BitVec 13) (sec : Nat) (steps : List (Nat × List Byte)) : State :=
  let h := holding s agent sec
  dirtyCode (setHolding s agent sec { h with data := putSteps h.data steps, dirty := true, valid := true,
                                             poison := h.poison && !coversSector steps }) sec steps

/-- A core's store performed in its L2: the L1 copy follows, the line's count ends, monitors trigger (R122, R134, R200). -/
def coreWrite (s : State) (core sec : Nat) (steps : List (Nat × List Byte)) : State :=
  let s1 := writeHeld s (coreAgent s core) sec steps
  let k := l1Update (s1.core core) sec (fun d => putSteps d steps)
  triggerMonitors (s1.setCore core { k with counted := k.counted.filter (fun e => e.1 != sec / 2) }) core sec

/-! ### Scratchpads (R112, R116, R119, R308) -/

/-- Bytes of a block's scratchpad. -/
def spRead (s : State) (blk off n : Nat) : List Byte := Sparse.getRun 0 (s.block blk).sp off n

def spFull (s : State) (blk off : Nat) : Bool := Sparse.get false (s.block blk).full (off / 4)

/-- A word's undo entry, once after a checkpoint (R308). -/
def logWord (b : Block) (word : Nat) : Block :=
  if !b.eligible || Sparse.get false b.logged word then b
  else
    { b with logged := Sparse.set false b.logged word true,
             undo := ⟨word, BitVec.ofNat 32 (leValue (Sparse.getRun 0 b.sp (4 * word) 4)), Sparse.get false b.full word⟩ :: b.undo }

/-- The words that bytes touch. -/
def wordsOf (off n : Nat) : List Nat := (List.range ((off + n - 1) / 4 + 1 - off / 4)).map (off / 4 + ·)

/-- A full/empty bit or a barrier phase that a donor's warp waits on changes as a block's scratchpad does (R241). -/
def endsDonation (blk : Nat) (old new : Block) (d : Donation) : Bool :=
  let phase (b : Block) (off : Nat) : List Byte := Sparse.getRun 0 b.sp (off + 4) 2
  d.fes.any (fun e => e.1 == blk && Sparse.get false old.full e.2.1 != Sparse.get false new.full e.2.1)
    || d.phases.any (fun e => e.1 == blk && phase old e.2.1 != phase new e.2.1)

/-- A block's scratchpad replaced: donations that wait on what changes are over. -/
def setScratch (s : State) (blk : Nat) (b : Block) : State :=
  let old := s.block blk
  { s.setBlock blk b with
    donations := s.donations.map (fun d => if endsDonation blk old b d then { d with isOver := true } else d) }

/-- Write bytes of a block's scratchpad, with the full/empty setting of R119. A write by another block's warp or command
ends the block's eligibility (R307). -/
def spWrite (s : State) (blk : Nat) (foreign : Bool) (off : Nat) (bs : List Byte) (fe : BitVec 2) : State :=
  let s1 := if foreign then endEligible s blk else s
  let b := (wordsOf off bs.length).foldl logWord (s1.block blk)
  let full := if fe = 0 then b.full else (wordsOf off bs.length).foldl (fun m k => Sparse.set false m k (fe == 2)) b.full
  setScratch s1 blk { b with sp := Sparse.setRun 0 b.sp off bs, full := full }

/-! ### Atomic steps (R124, R126, R127) -/

/-- The new value of an atomic of `n` bytes. -/
def atomicNew (op : Nat) (unsigned : Bool) (n old v : Nat) : Nat :=
  let less (a b : Nat) : Bool := if unsigned then decide (a < b) else decide (signed (8 * n) a < signed (8 * n) b)
  match op with
  | 0 => (old + v) % 2 ^ (8 * n)
  | 1 => if less v old then v else old
  | 2 => if less old v then v else old
  | 3 => Nat.land old v
  | 4 => Nat.lor old v
  | 5 => Nat.xor old v
  | _ => v

/-- What one part of an atomic or compare-and-swap leaves, from the old bytes. -/
def atomicBytes (k : AccKind) (p : AccPart) (old : List Byte) : List Byte :=
  match k with
  | .atomic op u => leSplit p.size (atomicNew op u p.size (leValue old) (leValue p.data))
  | .cas => if old = p.expect then p.data else old
  | _ => p.data

/-- The step of RED on `n` bytes (R124). `fadd` rounds to nearest even and sets no flag. -/
def redNew (op : BitVec 2) (n old v : Nat) : Nat :=
  match op.toNat with
  | 0 => (old + v) % 2 ^ (8 * n)
  | 1 => atomicNew 1 false n old v
  | 2 => atomicNew 2 false n old v
  | _ => (roundFlagged fmtFP32 false (fAdd (fmtFP32.decode old) (fmtFP32.decode v))).1

/-! ### Forwarding (R197) -/

/-- The byte at an address as the agent's own earlier stores that are not performed leave it. -/
def forwarded (x : Warp) (c : Access) (addr : Nat) (dflt : Byte) : Byte :=
  let mine := x.accs.filter (fun e =>
    decide (e.id < c.id) && e.stage == .waiting && (e.lanes &&& c.lanes) != 0 && isPureStore e.kind && e.bank == c.bank)
  (mine.flatMap (·.parts)).foldl
    (fun b q => if q.addr ≤ addr ∧ addr < q.addr + q.size then (q.data[addr - q.addr]?).getD b else b) dflt

/-- The bytes of a part with forwarding. -/
def withForward (x : Warp) (c : Access) (p : AccPart) (bs : List Byte) : List Byte :=
  (List.range bs.length).map (fun k => forwarded x c (p.addr + k) ((bs[k]?).getD 0))

/-- The far end of a link has freed buffer room (R289). -/
def freeRoom (s : State) (link pair bytes : Nat) : State :=
  let k := s.link link
  s.setLink link { k with used := Sparse.set 0 k.used pair (Sparse.get 0 k.used pair - bytes) }

/-- The room that a command's chunk has taken at the next hop is free again. -/
def freeChunk (s : State) (c : Cmd) : State :=
  match c.room with
  | some (l, n) => freeRoom s l (c.pair.getD 0).toNat n
  | none => s

/-- The commands that a test names are gone, and the room that they had taken is free. -/
def dropCmds (s : State) (gone : Cmd → Bool) : State :=
  let t := (s.cmds.filter gone).foldl freeChunk s
  { t with cmds := t.cmds.filter (fun c => !gone c) }

/-! ### Squash and trap (R304) -/

/-- Undo every bundle of the warp that depended on access `c`, record the consumed error of sector `sec` (R325), and trap the
unit with cause 5. -/
def squash (s : State) (w : Nat) (c : Access) (lanes : Lanes) (sec va : Nat) : State :=
  let x := s.warp w
  let a := c.snap.getD x.arch
  let dropped := x.accs.filter (fun e => decide (c.id ≤ e.id) && isPosted e.kind)
  let lostBatches := x.batches.filter (fun b => decide (a.batch < b.no))
  let y := { x with
    arch := a
    accs := x.accs.filter (fun e => decide (e.id < c.id))
    paths := x.paths.filter (fun p => decide (p.id < c.id))
    acks := x.acks - dropped.foldl (fun n e => n + e.acks) 0
    spend := x.spend.filter (fun p => decide (p.2 < c.id))
    openBatch := ((lostBatches.flatMap (·.members)) ++ x.openBatch).filter (fun i => decide (i < c.id))
    batches := x.batches.filter (fun b => !decide (a.batch < b.no))
    lat := []
    mflags := x.mflags.filter (fun e => decide (e.1 < c.id))
    journal := x.journal.filter (fun e => decide (e.1 ≤ c.id)) }
  let b := s.block x.blk
  let s0 := (s.setWarp w y).setBlock x.blk { b with mq := b.mq.filter (fun m => m.warp != w || decide (m.id < c.id)) }
  let later (o : CmdOwner) : Bool := match o with
    | .warp w' i => w' == w && decide (c.id ≤ i)
    | .node _ _ => false
  let laterOp (q : NameAsker) : Bool := match q with
    | .warp w' i _ => w' == w && decide (c.id ≤ i)
    | .port _ | .hub => false
  let s1 := dropCmds s0 (fun k => later k.owner)
  let s2 := { s1 with audit := (s1.audit.filter (fun e => e.warp != w || decide (e.batch ≤ a.batch + 1))).map (fun (e : AuditBatch) =>
                        if e.warp == w then { e with members := e.members.filter (fun i => decide (i < c.id)) } else e),
                      names := { s1.names with ops := s1.names.ops.filter (fun o => !laterOp o.asker) } }
  let fmask := match c.dest with
    | some d => if d.scalar then none else some lanes
    | none => some lanes
  let s3 := noteConsumed s2 x sec (fmask.getD ((s2.warp w).unit c.unit).lanes)
  takeTrap s3 w c.unit { vec := 2, cause := 5, slotVec := c.slotVec, fmask := fmask, faddr := va / 64 * 64 }

/-! ### Loads and atomics of global memory -/

/-- The data an access's sector offers the core now, with its poison; none while tokens are missing. A read-only-shared
page is read at its home, which first collects the sector's tokens unless a pin or an active request stops it: the value
is then unspecified (R280). From another module's home the data arrives with the event. A read that bypasses the L1 drops the
line there, so that no later load of the warp returns an older value (R197). DEDUCED (log entry 81). -/
def sectorFor (s : State) (x : Warp) (c : Access) (sec : Nat) (ros : Bool) : Option (SectorData × Bool) × State :=
  let k := s.core x.core
  match (if c.useL1 then l1Get k sec else none) with
  | some d => (some (d, false), s)
  | none =>
    let filled (t : State) (d : SectorData) (p : Bool) : Option (SectorData × Bool) × State :=
      (some (d, p), if p || isEffect c.kind then t
        else if !c.useL1 then t.setCore x.core (l1Drop (t.core x.core) (sec / 2))
        else if ros then t.setCore x.core (l1Fill (t.core x.core) sec d)
        else l1FillLine t x.core sec d)
    if ros then
      match rosRead s x.cls sec (s.ev.data, s.ev.flag) with
      | (some (d, p), t) => filled t d p
      | (none, t) => (none, t)
    else
      let agent := coreAgent s x.core
      let h := holding s agent sec
      let write := isEffect c.kind
      if satisfied s agent sec write then filled s h.data h.poison
      else (none, startRequest s agent sec write x.cls)

/-- No other sector of the line remains for this issue. -/
def lastInLine (c : Access) (sec : Nat) : Bool := !c.parts.any (fun p => p.addr / 128 == sec / 2 && p.addr / 64 != sec)

/-- Count one read of the line by the issue (R122) once it has read its last sector of the line, unless the L1 held them all. -/
def noteRead (s : State) (x : Warp) (c : Access) (sec : Nat) (viaL2 : Bool) : State × Access :=
  let line := sec / 2
  let c1 := if viaL2 && !c.viaL2.contains line then { c with viaL2 := line :: c.viaL2 } else c
  (if lastInLine c sec && c1.viaL2.contains line then countRead s x.core line c.count else s, c1)

/-- Poisoned lanes of an access: its selected parts in poisoned sectors. -/
def poisonedParts (s : State) (c : Access) (sec : Nat) (poison : Bool) : List AccPart :=
  c.parts.filter (fun p => !p.helper && (if p.addr / 64 = sec then poison else (coherentSector s (p.addr / 64)).2))

/-- The parts of an access in one sector or one bank. -/
def partsAt (c : Access) (k : Nat) : List AccPart :=
  c.parts.filter (fun p => match c.bank with
    | none => p.addr / 64 == k
    | some _ => Config.bankOf (p.addr % 2 ^ 21) == k)

/-- The token requests of a newly handed out access with the parts `ps`: one for each sector on which nothing earlier of its warp holds
it back, so that what satisfies a request lets the access be performed at once (R275). The other sectors are asked for when the
access comes to them. -/
def requestSectors (s : State) (write : Bool) (ps : List AccPart) : State :=
  match s.cw.accs.reverse.find? (fun c => c.parts == ps) with
  | none => s
  | some c =>
    let open_ (sec : Nat) : List AccPart := (partsAt c sec).filter (fun p => !p.ros)
    let secs := (((ps.filter (fun p => !p.ros)).map (fun p => p.addr / 64)).eraseDups).filter (fun sec => mayPerform s.cw c (open_ sec))
    secs.foldl (fun t sec => startRequest t (coreAgent t t.cw.core) sec write t.cw.cls) s

/-- The access without some of its parts. -/
def Access.without (c : Access) (ps : List AccPart) : Access := { c with parts := c.parts.filter (fun p => !ps.contains p) }

/-- The steps of an atomic on one sector or bank in lane order: what each lane gets, and what is written. -/
def atomicRun (c : Access) (read : Nat → Nat → List Byte) : List AccPart → List (Nat × List Byte) →
    List (Nat × Nat × List Byte) × List (Nat × List Byte)
  | [], steps => ([], steps)
  | p :: ps, steps =>
    let under := read p.addr p.size
    let old := (List.range p.size).map (fun k =>
      steps.foldl (fun b e => if e.1 ≤ p.addr + k ∧ p.addr + k < e.1 + e.2.length then (e.2[p.addr + k - e.1]?).getD b else b)
        ((under[k]?).getD 0))
    let r := atomicRun c read ps (steps ++ [(p.addr, atomicBytes c.kind p old)])
    ((p.lane, p.off, old) :: r.1, r.2)

/-- The parts that a consumed error traps (R304): a load's in its poisoned sector, and an atomic's in every poisoned sector, which
it checks before it performs any lane. An atomic that has begun finds poison in no later sector. DEDUCED (log entry 82). -/
def consumed (s : State) (c : Access) (sec : Nat) (poison : Bool) : List AccPart :=
  if isEffect c.kind then (if c.checked then [] else poisonedParts s c sec poison) else if poison then poisonedParts s c sec true else []

/-- Global loads and atomics: the parts in one sector return together. -/
def globalReturn (s : State) (w : Nat) (x : Warp) (c : Access) (sec : Nat) (ros : Bool) : State :=
  let ps := (partsAt c sec).filter (fun p => p.ros == ros)
  if ps.isEmpty || !mayPerform x c ps then s
  else
    match sectorFor s x c sec ros with
    | (none, s1) => s1
    | (some (d, poison), s1) =>
      let atomic := isEffect c.kind
      match consumed s1 c sec poison with
      | b :: bs => squash s1 w c (maskOf ((b :: bs).map (·.lane))) (b.addr / 64) b.va
      | [] =>
        let read (addr n : Nat) : List Byte := sectorBytes d (addr % 64) n
        let run := atomicRun c read ps []
        let got := if atomic then run.1 else
          ps.map (fun p => (p.lane, p.off, if poison then List.replicate p.size 0 else withForward x c p (read p.addr p.size)))
        let viaL1 := c.useL1 && (l1Get (s.core x.core) sec).isSome
        let t := if atomic then
            (coreWrite (if 1 < c.scope.toNat then endEligible s1 x.blk else s1) x.core sec (run.2.map (fun e => (e.1 % 64, e.2))),
              { c with checked := true })
          else noteRead s1 x c sec (!ros && !viaL1)
        afterAccess (t.1.setWarp w ((t.1.warp w).progress { t.2.without ps with got := c.got ++ got })) w

/-! ### Accesses at a scratchpad bank -/

/-- Perform the parts of an access at one bank: data and registers' bytes for loads and atomics, writes for stores. -/
def bankPerform (s : State) (x : Warp) (c : Access) (ps : List AccPart) : State × List (Nat × Nat × List Byte) :=
  let blk := c.bank.getD 0
  let foreign := blk != x.blk
  let off (a : Nat) : Nat := a % 2 ^ 21
  match c.kind with
  | .load => (s, ps.map (fun p => (p.lane, p.off, withForward x c p (spRead s blk (off p.addr) p.size))))
  | .store fe =>
    let s1 := if foreign then endEligible s x.blk else s
    (ps.foldl (fun t p => spWrite t blk foreign (off p.addr) p.data fe) s1, [])
  | .atomic _ _ | .cas =>
    let s1 := if foreign || decide (1 < c.scope.toNat) then endEligible s x.blk else s
    let run := atomicRun c (fun a n => spRead s blk (off a) n) ps []
    (run.2.foldl (fun t e => spWrite t blk foreign (off e.1) e.2 0) s1, run.1)
  | _ => (s, [])

/-- The lanes of an LDF or STE at one bank whose word is in the awaited state, served in lane order (R116, R128). -/
def fePerform (s : State) (x : Warp) (c : Access) : List AccPart → List Nat → State × List AccPart × List (Nat × Nat × List Byte)
  | [], _ => (s, [], [])
  | p :: ps, blocked =>
    let blk := c.bank.getD 0
    let off := p.addr % 2 ^ 21
    let wantFull := c.kind == .loadFe
    if blocked.contains off || spFull s blk off != wantFull then fePerform s x c ps (off :: blocked)
    else
      let foreign := blk != x.blk
      let bs := spRead s blk off 4
      let s1 := endEligible (if wantFull then spWrite s blk foreign off bs 1 else spWrite s blk foreign off p.data 2) x.blk
      let r := fePerform s1 x c ps blocked
      (r.1, p :: r.2.1, (p.lane, p.off, bs) :: r.2.2)

/-- Own-scratchpad access: the parts at one bank, delivered at once. -/
def ownBankAccess (s : State) (w : Nat) (x : Warp) (c : Access) (k : Nat) : State :=
  let ps := partsAt c k
  if ps.isEmpty || !mayPerform x c ps then s
  else
    let r := bankPerform s x c ps
    let c' := { c.without ps with got := c.got ++ r.2 }
    afterAccess (r.1.setWarp w ((r.1.warp w).progress c')) w

/-! ### The events -/

/-- The outstanding access an event names. -/
def eventAccess (s : State) : Option (Warp × Access) :=
  let x := s.warp s.ev.w
  (x.accs.find? (fun c => c.id == s.ev.id)).map (fun c => (x, c))

/-- LOAD_DATA_RETURN (R117): the data of a load or atomic returns from one sector or one bank of the own scratchpad. -/
def execLoadDataReturn (s : State) : Result :=
  .next (match eventAccess s with
    | none => s
    | some (x, c) =>
      if isRemote x c || c.stage != .waiting then s
      else match c.kind with
        | .load | .atomic _ _ | .cas =>
          if c.bank.isNone then globalReturn s s.ev.w x c s.ev.sector s.ev.flag else ownBankAccess s s.ev.w x c s.ev.sector
        | _ => s)

/-- A cached store performed in one sector (R118): the core's L2 holds all 2048 tokens. -/
def globalStore (s : State) (w : Nat) (x : Warp) (c : Access) (sec : Nat) : State :=
  let ps := partsAt c sec
  if ps.isEmpty || !mayPerform x c ps then s
  else if !satisfied s (coreAgent s x.core) sec true then startRequest s (coreAgent s x.core) sec true x.cls
  else
    let s1 := coreWrite (endEligible s x.blk) x.core sec (ps.map (fun p => (p.addr % 64, p.data)))
    afterAccess (s1.setWarp w ((s1.warp w).progress (c.without ps))) w

/-- STORE_PERFORMED (R118, R195): a cached store in one sector, or a scratchpad store in one bank of the own block. -/
def execStorePerformed (s : State) : Result :=
  .next (match eventAccess s with
    | none => s
    | some (x, c) =>
      if isRemote x c || c.stage != .waiting then s
      else match c.kind with
        | .store _ => if c.bank.isNone then globalStore s s.ev.w x c s.ev.sector else ownBankAccess s s.ev.w x c s.ev.sector
        | _ => s)

/-- REMOTE_BANK_ACCESS (R118): another block's bank performs the parts aimed at it; its reply is still to come. -/
def execRemoteBankAccess (s : State) : Result :=
  .next (match eventAccess s with
    | none => s
    | some (x, c) =>
      let ps := partsAt c s.ev.sector
      if !isRemote x c || c.stage != .waiting || ps.isEmpty || !mayPerform x c ps || isArrival c.kind then s
      else match c.kind with
        | .loadFe | .storeFe => s
        | _ =>
          let r := bankPerform s x c ps
          let c1 := { c.without ps with got := c.got ++ r.2 }
          let c2 := if c1.parts.isEmpty then { c1 with stage := .replied } else c1
          r.1.setWarp s.ev.w ((r.1.warp s.ev.w).setAccess c2))

/-- SCRATCHPAD_REMOTE_REPLY (R132): the owning bank's reply arrives. -/
def execScratchpadRemoteReply (s : State) : Result :=
  .next (match eventAccess s with
    | none => s
    | some (x, c) =>
      let partial_ := (c.kind == .loadFe || c.kind == .storeFe) && isRemote x c && !c.got.isEmpty
      if c.stage == .replied || partial_ then afterAccess (s.setWarp s.ev.w (x.progress c)) s.ev.w else s)

/-- FE_WAIT_COMPLETE (R128): lanes of an LDF or STE at one bank find their words in the awaited state. -/
def execFeWaitComplete (s : State) : Result :=
  .next (match eventAccess s with
    | none => s
    | some (x, c) =>
      let ps := partsAt c s.ev.sector
      if (c.kind != .loadFe && c.kind != .storeFe) || c.stage != .waiting || !mayPerform x c ps then s
      else
        let r := fePerform s x c ps []
        let c1 := { c.without r.2.1 with got := c.got ++ r.2.2 }
        let y := r.1.warp s.ev.w
        if isRemote x c then
          r.1.setWarp s.ev.w (y.setAccess (if c1.parts.isEmpty then { c1 with stage := .replied } else c1))
        else afterAccess (r.1.setWarp s.ev.w (y.progress c1)) s.ev.w)

/-- POSTED_WRITE_ACK (R125): an acknowledgement returns; the counter falls, and with the last one the path's issue is done. -/
def execPostedWriteAck (s : State) : Result :=
  .next (match s.tok.acks[s.ev.k]? with
    | none => s
    | some (w, id) =>
      let s1 := { s with tok := { s.tok with acks := dropAt s.tok.acks s.ev.k } }
      let x := s1.warp w
      let y := { x with acks := x.acks - 1,
                        accs := x.accs.map (fun (c : Access) => if c.id == id then { c with acks := c.acks - 1 } else c) }
      let isOver := y.accs.any (fun c => c.id == id && c.acks == 0)
      afterAccess (s1.setWarp w (if isOver then y.finishAccess id else y)) w)

end Sys2Proof.Machine
end

