-- ==== Sys2Proof/Machine/VecMem.lean ====
section
/-! DEFINITION. The loads and stores of a warp (R112 to R125, R128): what a slot checks, hands out and waits for. -/

namespace Sys2Proof.Machine

/-! ### Pieces -/

/-- The pieces of one lane's access: one, or two where an LDU or STU crosses a multiple of its size (R121). -/
def lanePieces (split : Bool) (size lane va : Nat) (helper : Bool) : List Piece :=
  let head := size - va % size
  if split && va % size != 0 then
    [⟨lane, va, 0, head, helper⟩, ⟨lane, (va + head) % 2 ^ 64, head, size - head, helper⟩]
  else [⟨lane, va, 0, size, helper⟩]

/-- The pieces of an issue: the selected lanes and, for loads, the helpers (R115). -/
def vmPieces (s : State) (o : VmOp) (x : Option MemX) (split helpers : Bool) (sel : Lanes) : List Piece :=
  let addr (l : Nat) : Nat := s.vmAddr o.base o.a (memOff o x) l
  (lanesOf sel).flatMap (fun l => lanePieces split (sizeBytes o.size) l (addr l) false)
    ++ (if helpers then (lanesOf s.cur.helpers).flatMap (fun l => lanePieces split (sizeBytes o.size) l (addr l) true) else [])

/-- The bytes of a register group of a lane. -/
def regBytes (s : State) (r : BitVec 8) (size lane : Nat) : List Byte :=
  (List.range ((size + 3) / 4)).flatMap (fun k => leSplit (min size 4) (s.vreg (r.toNat + k) lane).toNat)

/-- Placed pieces as parts: a lane of which some piece failed (a helper) takes no part. -/
def partsFrom (ps : List Placed) (data expect : Nat → List Byte) : List AccPart :=
  let lost := (ps.filter (fun p => (failsAt p).isSome)).map (fun p => p.1.lane)
  ps.filterMap (fun p =>
    match p.2 with
    | .ok da ros =>
      if lost.contains p.1.lane then none
      else some { lane := p.1.lane, va := p.1.va, addr := da, off := p.1.off, size := p.1.size, ros := ros,
                  helper := p.1.helper, data := ((data p.1.lane).drop p.1.off).take p.1.size, expect := expect p.1.lane }
    | _ => none)

/-- Helpers that take no part in a load receive 0 (R115). -/
def zeroHelpers (s : State) (d : BitVec 8) (regs : Nat) (lanes : Lanes) : State :=
  s.setArch (s.arch.setVs ((List.range regs).flatMap (fun k => (lanesOf lanes).map (fun l => (d.toNat + k, l, (0 : W32))))))

/-- The helpers of an issue without a part. -/
def idleHelpers (s : State) (parts : List AccPart) : Lanes :=
  filterLanes s.cur.helpers (fun l => !parts.any (fun p => p.lane == l))

/-- A blank access of a kind and its parts. -/
def newAccess (kind : AccKind) (bank : Option Nat) (dest : Option AccDest) (scope : BitVec 3) (parts : List AccPart) : Access :=
  { id := 0, kind := kind, lanes := 0, bank := bank, dest := dest, count := none, useL1 := false, scope := scope,
    parts := parts, got := [], stage := .waiting, acks := 0, snap := none, unit := 0, slotVec := true }

/-- An issue that would raise a path above 63 waits (R132). -/
def pathRoom (s : State) (path : Nat) (counted : Bool) (go : State → State) : State :=
  if counted && decide (63 ≤ pathCount s.cw path) then s.hold (.pathFull path) else go s

/-- Registers of a size. -/
def sizeRegs (size : Nat) : Nat := max 1 (size / 4)

/-! ### Global loads -/

/-- A global vector load: LD, LDU and LDC (R118, R121, R122). -/
def globalLoad (s : State) (o : VmOp) (x : Option MemX) (split useL1 : Bool) (count : Option (BitVec 12)) (scope : BitVec 3) :
    State :=
  let size := sizeBytes o.size
  let placed := placeGlobal s .load (if split then 1 else size) (vmPieces s o x split true s.cur.guard)
  onVerdict placed.2 false placed.1 (fun t =>
    pathRoom t 2 (t.cur.guard != 0) (fun t =>
      let parts := partsFrom placed.1 (fun _ => []) (fun _ => [])
      let t1 := zeroHelpers t o.d (sizeRegs size) (idleHelpers t parts)
      if parts.isEmpty then t1
      else
        let dest : AccDest := { scalar := false, reg := o.d.toNat, bytes := size, signed := !o.m.getLsbD 0 }
        let c := { newAccess .load none (some dest) scope parts with count := count, useL1 := useL1 }
        requestSectors (pushAccesses t1 [c] 2 (t.cur.guard != 0)) false parts))

/-- LD: a global load (R118). -/
def execVld (o : VmOp) (x : Option MemX) (s : State) : Result :=
  .next (withFence s (memOrder x) (memScope 3 x) (fun t => globalLoad t o x false true none (memScope 3 x)))

/-- LDU: an unaligned global load (R121). -/
def execVldu (o : VmOp) (x : Option MemX) (s : State) : Result :=
  .next (withFence s (memOrder x) (memScope 3 x) (fun t => globalLoad t o x true true none (memScope 3 x)))

/-- LDC: a load that counts its line's reads (R122). -/
def execVldc (o : VmOp) (count : BitVec 12) (off : BitVec 6) (s : State) : Result :=
  .next (globalLoad s o (some ⟨0, 3, off.signExtend 13⟩) false false (some count) 3)

/-! ### Global stores -/

/-- The sectors outside the module that an issue's parts touch (R213). -/
def farSectors (s : State) (parts : List AccPart) : List Nat :=
  ((parts.map (fun p => p.addr / 64)).filter (fun sec => moduleOf s.sys (sectorBase sec) != s.sys.modid.toNat)).eraseDups

/-- A touched table with one write counted for each sector (R213). -/
def touchSectors (s : State) (t : List Touch) (secs : List Nat) : List Touch :=
  secs.foldl (fun t sec =>
    touch t (BitVec.ofNat 3 (moduleOf s.sys (sectorBase sec))) (BitVec.ofNat 4 (homeIndex s.sys (sectorBase sec)))) t

/-- A warp's touched table as its posted writes that have not left will leave it. -/
def pendingTouches (s : State) (x : Warp) : List Touch :=
  (x.accs.filter (fun c => isPosted c.kind && c.stage == .waiting)).foldl (fun t c => touchSectors s t (farSectors s c.parts)) x.touched

/-- The touched table has no room for an issue (R213): a 17th home, or a count above 65,535. -/
def touchedFull (s : State) (parts : List AccPart) : Bool :=
  let t := touchSectors s (pendingTouches s s.cw) (farSectors s parts)
  !(farSectors s parts).isEmpty && (decide (16 < t.length) || t.any (fun e => decide (65535 < e.count)))

/-- The parts of the lowest lanes, as many as the touched table has room for. -/
def roomFor (s : State) (parts : List AccPart) : List AccPart :=
  let lanes := (parts.map (·.lane)).eraseDups
  let upTo (n : Nat) : List AccPart := parts.filter (fun p => (lanes.take n).contains p.lane)
  upTo (((List.range lanes.length).reverse.find? (fun n => !touchedFull s (upTo n))).getD 0)

/-- A posted access, with the acknowledgements it awaits (R125). -/
def postedAccess (kind : AccKind) (scope : BitVec 3) (parts : List AccPart) : Access :=
  let c := newAccess kind none none scope parts
  { c with acks := (accessSectors c).length }

/-- Hand out the parts of a store: cached where the home is of this module and `posted` is false, else posted (R125). -/
def handOut (s : State) (kind : AccKind) (posted : Bool) (scope : BitVec 3) (parts : List AccPart) (counted : Bool) : State :=
  let near := parts.filter (fun p => !posted && moduleOf s.sys p.addr == s.sys.modid.toNat)
  let far := parts.filter (fun p => posted || moduleOf s.sys p.addr != s.sys.modid.toNat)
  let cs := (if near.isEmpty then [] else [newAccess kind none none scope near])
    ++ (if far.isEmpty then [] else [postedAccess (if posted then kind else .posted) scope far])
  flushPosted (requestSectors (pushAccesses s cs 3 counted) true near) s.cur.w

/-- The store of an issue. Where the touched table has no room, `fence.rel.s` is performed first, and the issue proceeds in the new
round (R213). An issue too wide for an empty table hands out the lanes that fit, and performs the fence before the rest; it
counts on its path with its last lanes. DEDUCED (log entry 85). -/
def pushStores (s : State) (kind : AccKind) (posted : Bool) (scope : BitVec 3) (parts : List AccPart) : State :=
  if parts.isEmpty then s
  else if !touchedFull s parts then handOut (s.setUnit (fun v => { v with fe := 0 })) kind posted scope parts true
  else if !(pendingTouches s s.cw).isEmpty then s.hold (.fenceRel 4)
  else
    let first := roomFor s parts
    let rest := parts.filter (fun p => !first.any (fun q => q.lane == p.lane))
    ((handOut s kind posted scope first false).setUnit (fun v => { v with fe := maskOf (rest.map (·.lane)) })).hold (.fenceRel 4)

/-- A global vector store: ST, STU, STN and RED (R118, R121, R124). -/
def globalStoreOp (s : State) (o : VmOp) (x : Option MemX) (split : Bool) (kind : AccKind) (posted : Bool) : State :=
  let size := sizeBytes o.size
  let sel := if s.unit.fe = 0 then s.cur.guard else s.unit.fe
  let placed := placeGlobal s .store (if split then 1 else size) (vmPieces s o x split false sel)
  onVerdict placed.2 true placed.1 (fun t =>
    pathRoom t 3 (t.cur.guard != 0) (fun t =>
      pushStores t kind posted (memScope 3 x) (partsFrom placed.1 (fun l => regBytes s o.d size l) (fun _ => []))))

/-- ST: a global store (R118). -/
def execVst (o : VmOp) (x : Option MemX) (s : State) : Result :=
  .next (withFence s (memOrder x) (memScope 3 x) (fun t => globalStoreOp t o x false (.store 0) false))

/-- STU: an unaligned global store (R121). -/
def execVstu (o : VmOp) (x : Option MemX) (s : State) : Result :=
  .next (withFence s (memOrder x) (memScope 3 x) (fun t => globalStoreOp t o x true (.store 0) false))

/-- STN: a streaming store, performed at the home (R124). -/
def execVstn (o : VmOp) (x : Option MemX) (s : State) : Result :=
  .next (withFence s (memOrder x) (memScope 3 x) (fun t => globalStoreOp t o x false .posted true))

/-- RED: a value combined into memory at the home (R124). -/
def execVred (o : VmOp) (x : Option MemX) (s : State) : Result :=
  .next (withFence s (memOrder x) (memScope 3 x) (fun t => globalStoreOp t o x false (.red o.m) true))

/-! ### Scratchpads -/

/-- Checked pieces of a scratchpad access. -/
def scratchPlaced (s : State) (cluster : Bool) (ps : List Piece) : List Placed := ps.map (placeScratchPiece s cluster)

/-- The blocks that parts name, the own block apart. -/
def otherBanks (s : State) (parts : List AccPart) : List Nat :=
  ((parts.map (fun p => p.addr / 2 ^ 21)).eraseDups).filter (· != s.cw.blk)

/-- Hand out a scratchpad issue: one access for the own block on path 0, one for each other block on path 1 (R132). -/
def pushScratch (s : State) (kind : AccKind) (dest : Option AccDest) (scope : BitVec 3) (parts : List AccPart) : State :=
  let sel (ps : List AccPart) : Bool := ps.any (fun p => !p.helper)
  let own := parts.filter (fun p => p.addr / 2 ^ 21 == s.cw.blk)
  let far := parts.filter (fun p => p.addr / 2 ^ 21 != s.cw.blk)
  let s1 := if own.isEmpty then s else pushAccesses s [newAccess kind (some s.cw.blk) dest scope own] 0 (sel own)
  pushAccesses s1 ((otherBanks s parts).map (fun b =>
    newAccess kind (some b) dest scope (far.filter (fun p => p.addr / 2 ^ 21 == b)))) 1 (sel far)

/-- Both scratchpad paths have room for an issue. -/
def scratchRoom (s : State) (parts : List AccPart) (go : State → State) : State :=
  pathRoom s 0 (parts.any (fun p => !p.helper && p.addr / 2 ^ 21 == s.cw.blk)) (fun t =>
    pathRoom t 1 (parts.any (fun p => !p.helper && p.addr / 2 ^ 21 != t.cw.blk)) go)

/-- LDS and LDX (R118). -/
def scratchLoad (s : State) (o : VmOp) (x : Option MemX) (cluster : Bool) (scope : BitVec 3) : State :=
  let size := sizeBytes o.size
  let placed := scratchPlaced s cluster (vmPieces s o x false true s.cur.guard)
  onVerdict s false placed (fun t =>
    let parts := partsFrom placed (fun _ => []) (fun _ => [])
    scratchRoom t parts (fun t =>
      pushScratch (zeroHelpers t o.d (sizeRegs size) (idleHelpers t parts)) .load
        (some { scalar := false, reg := o.d.toNat, bytes := size, signed := !o.m.getLsbD 0 }) scope parts))

/-- STS and STX (R118, R119). -/
def scratchStore (s : State) (o : VmOp) (x : Option MemX) (cluster : Bool) (scope : BitVec 3) : State :=
  let placed := scratchPlaced s cluster (vmPieces s o x false false s.cur.guard)
  onVerdict s true placed (fun t =>
    let parts := partsFrom placed (fun l => regBytes s o.d (sizeBytes o.size) l) (fun _ => [])
    scratchRoom t parts (fun t => pushScratch t (.store o.m) none scope parts))

/-- LDS: a load from the own scratchpad (R118). -/
def execVlds (o : VmOp) (x : Option MemX) (s : State) : Result :=
  .next (withFence s (memOrder x) (memScope 1 x) (fun t => scratchLoad t o x false (memScope 1 x)))

/-- STS: a store to the own scratchpad (R118, R119). -/
def execVsts (o : VmOp) (x : Option MemX) (s : State) : Result :=
  .next (withFence s (memOrder x) (memScope 1 x) (fun t => scratchStore t o x false (memScope 1 x)))

/-- LDX: a load from a named block's scratchpad (R118). -/
def execVldx (o : VmOp) (x : Option MemX) (s : State) : Result :=
  .next (withFence s (memOrder x) (memScope 2 x) (fun t => scratchLoad t o x true (memScope 2 x)))

/-- STX: a store to a named block's scratchpad (R118, R119). -/
def execVstx (o : VmOp) (x : Option MemX) (s : State) : Result :=
  .next (withFence s (memOrder x) (memScope 2 x) (fun t => scratchStore t o x true (memScope 2 x)))

/-! ### Full/empty (R128, R129) -/

/-- LDF and STE hand out their lanes: all selected ones, or those that remained when the fragment was saved (R129). -/
def feIssue (s : State) (o : VmOp) (x : Option MemX) (load : Bool) (scope : BitVec 3) : State :=
  let sel := if s.unit.fe = 0 then s.cur.guard else s.unit.fe
  let placed := scratchPlaced s true (vmPieces s o x false false sel)
  onVerdict s true placed (fun t =>
    let parts := partsFrom placed (fun l => regBytes s o.d 4 l) (fun _ => [])
    scratchRoom t parts (fun t =>
      let t1 := zeroHelpers t o.d 1 t.cur.helpers
      if parts.isEmpty then t1
      else
        let dest : Option AccDest := if load then some { scalar := false, reg := o.d.toNat, bytes := 4, signed := true } else none
        let t2 := pushScratch t1 (if load then .loadFe else .storeFe) dest scope parts
        (t2.setUnit (fun v => { v with issued := true, fenced := false, fe := sel })).hold .fullEmpty))

/-- The slot of an LDF or STE: a release, the lanes' waits, an acquire. -/
def feAccess (s : State) (o : VmOp) (x : Option MemX) (load : Bool) : State :=
  let v := s.unit
  let order := memOrder x
  let scope := memScope 2 x
  if !v.issued && order == 2 && !v.fenced then s.hold (.fenceRel scope)
  else if !v.issued then
    let t := feIssue s o x load scope
    if t.cur.status == .ok && order == 1 then
      (t.setUnit (fun v => { v with issued := true, fenced := false })).hold (.fenceAcq scope)
    else t
  else if v.fe != 0 then s.hold .fullEmpty
  else if order == 1 && !v.fenced then s.hold (.fenceAcq scope)
  else s

/-- LDF: wait until the word is full, take it and set it empty (R128). -/
def execVldf (o : VmOp) (x : Option MemX) (s : State) : Result := .next (feAccess s o x true)

/-- STE: wait until the word is empty, store and set it full (R128). -/
def execVste (o : VmOp) (x : Option MemX) (s : State) : Result := .next (feAccess s o x false)

/-! ### Prefetch (R123) -/

/-- The home's data of a sector, when it is of this module, holds every token and is not poisoned. -/
def homeOffers (s : State) (sec : Nat) : Option SectorData :=
  let home := homeAgent s.sys (sectorBase sec)
  let h := holding s home sec
  if isHomeOf s home sec && h.tokens == 2048 && !h.poison then some h.data else none

/-- Prefetch one sector: a read token is requested for the L2, and level 1 copies it when the L2 holds it. A read-only-shared page
takes no token: level 1 copies what its home offers. -/
def prefetchSector (m : BitVec 2) (ros : Bool) (s : State) (sec : Nat) : State :=
  let core := s.cw.core
  let h := holding s (coreAgent s core) sec
  let fill (d : SectorData) : State := s.setCore core (l1Fill (s.core core) sec d)
  if m = 2 then s
  else if ros then (if m = 1 then ((homeOffers s sec).map fill).getD s else s)
  else if h.valid && decide (1 ≤ h.tokens) then (if m = 1 && !h.poison then fill h.data else s)
  else
    let k := s.core core
    let s1 := if m = 1 then s.setCore core { k with l1Wanted := (sec :: k.l1Wanted).eraseDups } else s
    startRequest s1 (coreAgent s core) sec false s.cw.cls

/-- The L2 of a core has received a sector that a prefetch wants in its L1 (R123). -/
def fillWanted (s : State) (agent : BitVec 13) (sec : Nat) : State :=
  let core := agentLocal agent
  let k := s.core core
  let h := holding s agent sec
  if 96 ≤ core || !isOwnAgent s.sys agent || !k.l1Wanted.contains sec || !h.valid then s
  else
    let k1 := { k with l1Wanted := k.l1Wanted.erase sec }
    s.setCore core (if h.poison then k1 else l1Fill k1 sec h.data)

/-- PFL: a prefetch, without traps, waits or order (R123). The offset is scaled by the size field, whose value is otherwise
ignored. A lane whose translation has to wait for tokens of its walk prefetches nothing, and the end of the walk changes nothing: the
manual says of such a lane only that PFL never waits. DESIGN CHOICE (log entry 84). -/
def execVpfl (o : VmOp) (x : Option MemX) (s : State) : Result :=
  let ps := (lanesOf s.cur.guard).map (fun l =>
    ({ lane := l, va := s.vmAddr o.base o.a (memOff o x) l, off := 0, size := 1, helper := true } : Piece))
  let placed := placeGlobal s .load 1 ps
  .next (placed.1.foldl (fun t p =>
    match p.2 with
    | .ok da ros => [da / 128 * 2, da / 128 * 2 + 1].foldl (prefetchSector o.m ros) t
    | _ => t) placed.2)

/-! ### Atomics (R126, R127) -/

/-- The parts of a global atomic handed out on path 2. -/
def globalAtomic (s : State) (kind : AccKind) (scope : BitVec 3) (d : BitVec 8) (size : Nat) (ps : List Piece)
    (data expect : Nat → List Byte) : State :=
  let placed := placeGlobal s .store size ps
  onVerdict placed.2 true placed.1 (fun t =>
    pathRoom t 2 (t.cur.guard != 0) (fun t =>
      let parts := partsFrom placed.1 data expect
      let t1 := zeroHelpers t d (sizeRegs size) t.cur.helpers
      if parts.isEmpty then t1
      else
        let dest : AccDest := { scalar := false, reg := d.toNat, bytes := size, signed := true }
        requestSectors (pushAccesses t1 [newAccess kind none (some dest) scope parts] 2 true) true parts))

/-- The parts of a scratchpad atomic handed out. -/
def bankAtomic (s : State) (kind : AccKind) (scope : BitVec 3) (d : BitVec 8) (size : Nat) (ps : List Piece)
    (data expect : Nat → List Byte) : State :=
  let placed := scratchPlaced s true ps
  onVerdict s true placed (fun t =>
    let parts := partsFrom placed data expect
    scratchRoom t parts (fun t =>
      let t1 := zeroHelpers t d (sizeRegs size) t.cur.helpers
      pushScratch t1 kind (some { scalar := false, reg := d.toNat, bytes := size, signed := true }) scope parts))

/-- A global atomic of form VM. -/
def vmAtomic (s : State) (o : VmOp) (x : Option MemX) (op : Nat) : Result :=
  .next (withFence s (memOrder x) (memScope 3 x) (fun t =>
    globalAtomic t (.atomic op (o.m.getLsbD 0)) (memScope 3 x) o.d (sizeBytes o.size) (vmPieces t o x false false t.cur.guard)
      (fun l => regBytes t o.d (sizeBytes o.size) l) (fun _ => [])))

/-- A scratchpad atomic of form VM. -/
def vmBankAtomic (s : State) (o : VmOp) (x : Option MemX) (op : Nat) : Result :=
  .next (withFence s (memOrder x) (memScope 2 x) (fun t =>
    bankAtomic t (.atomic op (o.m.getLsbD 0)) (memScope 2 x) o.d (sizeBytes o.size) (vmPieces t o x false false t.cur.guard)
      (fun l => regBytes t o.d (sizeBytes o.size) l) (fun _ => [])))

/-- AADD (R126). -/
def execVaadd (o : VmOp) (x : Option MemX) (s : State) : Result := vmAtomic s o x 0

/-- AMIN (R126). -/
def execVamin (o : VmOp) (x : Option MemX) (s : State) : Result := vmAtomic s o x 1

/-- AMAX (R126). -/
def execVamax (o : VmOp) (x : Option MemX) (s : State) : Result := vmAtomic s o x 2

/-- AAND (R126). -/
def execVaand (o : VmOp) (x : Option MemX) (s : State) : Result := vmAtomic s o x 3

/-- AOR (R126). -/
def execVaor (o : VmOp) (x : Option MemX) (s : State) : Result := vmAtomic s o x 4

/-- AXOR (R126). -/
def execVaxor (o : VmOp) (x : Option MemX) (s : State) : Result := vmAtomic s o x 5

/-- AXCH (R126). -/
def execVaxch (o : VmOp) (x : Option MemX) (s : State) : Result := vmAtomic s o x 6

/-- BADD (R126). -/
def execVbadd (o : VmOp) (x : Option MemX) (s : State) : Result := vmBankAtomic s o x 0

/-- BMIN (R126). -/
def execVbmin (o : VmOp) (x : Option MemX) (s : State) : Result := vmBankAtomic s o x 1

/-- BMAX (R126). -/
def execVbmax (o : VmOp) (x : Option MemX) (s : State) : Result := vmBankAtomic s o x 2

/-- BAND (R126). -/
def execVband (o : VmOp) (x : Option MemX) (s : State) : Result := vmBankAtomic s o x 3

/-- BOR (R126). -/
def execVbor (o : VmOp) (x : Option MemX) (s : State) : Result := vmBankAtomic s o x 4

/-- BXOR (R126). -/
def execVbxor (o : VmOp) (x : Option MemX) (s : State) : Result := vmBankAtomic s o x 5

/-- BXCH (R126). -/
def execVbxch (o : VmOp) (x : Option MemX) (s : State) : Result := vmBankAtomic s o x 6

/-- The pieces of a compare-and-swap: no offset field (R127). -/
def casPieces (s : State) (a : BitVec 8) (x : CasX) : List Piece :=
  (lanesOf s.cur.guard).map (fun l => ⟨l, s.vmAddr x.base a 0 l, 0, 4 * 2 ^ x.size.toNat, false⟩)

/-- ACAS (R127). -/
def execVacas (d a b : BitVec 8) (x : CasX) (s : State) : Result :=
  let n := 4 * 2 ^ x.size.toNat
  .next (withFence s x.order x.scope (fun t =>
    globalAtomic t .cas x.scope d n (casPieces t a x) (fun l => regBytes t d n l) (fun l => regBytes t b n l)))

/-- BCAS (R127). -/
def execVbcas (d a b : BitVec 8) (x : CasX) (s : State) : Result :=
  let n := 4 * 2 ^ x.size.toNat
  .next (withFence s x.order x.scope (fun t =>
    bankAtomic t .cas x.scope d n (casPieces t a x) (fun l => regBytes t d n l) (fun l => regBytes t b n l)))

/-! ### Scalar loads and stores (R120) -/

/-- sa + imm6 × 8. -/
def scalarAddr (s : State) (a i : BitVec 6) : Nat := wrap 64 (((s.sreg a.toNat).toNat : Int) + i.toInt * 8)

/-- The single piece of a scalar-slot access. -/
def scalarPiece (va size : Nat) : List Piece := [⟨64, va, 0, size, false⟩]

/-- LD in the scalar slot: sd ← M[sa + imm6 × 8] (R120). -/
def execSld (d a i : BitVec 6) (s : State) : Result :=
  scalarDo s (fun s =>
    let placed := placeGlobal s .load 8 (scalarPiece (scalarAddr s a i) 8)
    onVerdict placed.2 false placed.1 (fun t =>
      pathRoom t 2 true (fun t =>
        let parts := partsFrom placed.1 (fun _ => []) (fun _ => [])
        let c := { newAccess .load none (some { scalar := true, reg := d.toNat, bytes := 8, signed := false }) 3 parts
                   with useL1 := true }
        requestSectors (pushAccesses t [c] 2 true) false parts)))

/-- ST in the scalar slot: M[sa + imm6 × 8] ← sd (R120). -/
def execSst (d a i : BitVec 6) (s : State) : Result :=
  scalarDo s (fun s =>
    let placed := placeGlobal s .store 8 (scalarPiece (scalarAddr s a i) 8)
    onVerdict placed.2 true placed.1 (fun t =>
      pathRoom t 3 true (fun t =>
        pushStores t (.store 0) false 3 (partsFrom placed.1 (fun _ => leSplit 8 (t.sreg d.toNat).toNat) (fun _ => [])))))

end Sys2Proof.Machine
end

