-- ==== Sys2Proof/Machine/Control.lean ====
section
/-! DEFINITION. Control transfers (R138 to R145), parking and convergence (R105, R141), traps taken by instructions and
the return from one (R153 to R156). -/

namespace Sys2Proof.Machine

/-! ### Deciding a transfer (R138) -/

/-- The taken lanes of the issue. -/
def State.taken (s : State) : Lanes := if s.cur.gscope then s.cur.guard else s.cur.lanes

/-- Decide the transfer of the bundle; it takes effect after the vector slot (R40). -/
def State.decide (s : State) (x : Transfer) : State := { s with cur := { s.cur with xfer := some x } }

/-- The header at a word offset from the block's own. -/
def offTarget (s : State) (off : Int) : Nat := wrap 64 ((s.unit.pos.hdr : Int) + 8 * off)

def returnStack (a : WarpArch) (lane : Nat) : List Nat := Sparse.get [] a.rstk lane

/-- BRA: to the header at off18 words (R142). -/
def execSbra (off : BitVec 18) (s : State) : Result :=
  .next (s.decide { kind := .branch, taken := s.taken, dest := offTarget s off.toInt, rets := [], checked := false })

/-- CALL: as BRA, and each taken lane pushes the next header; a full stack raises the control trap, cause 1 (R142). -/
def execScall (off : BitVec 18) (s : State) : Result :=
  .next (
    if (lanesOf s.taken).any (fun l => decide (32 ≤ (returnStack s.arch l).length)) then s.trap { vec := 5, cause := 1 }
    else s.decide { kind := .call, taken := s.taken, dest := offTarget s off.toInt, rets := [], checked := false })

/-- RET: each taken lane goes to the address it pops; an empty stack raises the control trap, cause 2 (R142). -/
def execSret (s : State) : Result :=
  .next (
    if (lanesOf s.taken).any (fun l => (returnStack s.arch l).isEmpty) then s.trap { vec := 5, cause := 2 }
    else s.decide { kind := .ret, taken := s.taken, dest := 0, checked := false,
                    rets := (lanesOf s.taken).map (fun l => (l, (returnStack s.arch l).headD 0)) })

/-- BRX: to the address in sa, checked when the transfer takes effect (R143). -/
def execSbrx (a : BitVec 6) (s : State) : Result :=
  .next (s.decide { kind := .branch, taken := s.taken, dest := (s.sreg a.toNat).toNat, rets := [], checked := true })

/-- EXIT: taken lanes stop being live (R144). -/
def execSexit (s : State) : Result :=
  .next (s.decide { kind := .exit, taken := s.taken, dest := 0, rets := [], checked := false })

/-- REGANG: the bundle issues for the whole warp merged; the fragment enters the next header (R145). -/
def execSregang (s : State) : Result :=
  .next (s.decide { kind := .regang, taken := s.cur.lanes, dest := s.unit.nextHeader, rets := [], checked := false })

/-! ### Traps and returns (R152 to R156) -/

/-- ILLEGAL_INSTRUCTION: no slot executes and vector 1 is taken with the cause of R52. SLOT names the scalar slot, as in every trap
in which neither slot executes. DESIGN CHOICE (log entry 102). -/
def execIllegalInstruction (cause : Nat) (s : State) : Result := .next (s.trap { vec := 1, cause := cause })

/-- TRAP: vector 6 with its code; on return the scalar slot is skipped (R154, R155). -/
def execStrap (code : BitVec 12) (s : State) : Result :=
  scalarDo s (fun s => s.trap { vec := 6, cause := 0, code := code, skips := true })

/-- SYS nclr: NSTAT bits cleared by writing ones (R66, R155). -/
def execSsysNclr (a : BitVec 6) (s : State) : Result :=
  scalarDo s (fun s => s.setArch { s.arch with nstat := nstatClear s.arch.nstat (s.sreg a.toNat) })

/-- A SYS function that exists only at trap level (R155); with a guard that passes in no lane it has no effect (R187). -/
def atTrap (s : State) (f : TrapFrame → State → State) : Result :=
  match s.unit.trap with
  | none => scalarDo s (fun s => s.trap { vec := 1, cause := 3 })
  | some frame => scalarDo s (f frame)

/-- Every record of a frame is written: the sides of a divided handler share it (R154, R155). -/
def WarpArch.putFrame (a : WarpArch) (g : TrapFrame) : WarpArch :=
  let put (v : IUnit) : IUnit :=
    { v with trap := v.trap.map (fun f => if sameFrame f g then g else f),
             more := v.more.map (fun f => if sameFrame f g then g else f) }
  { a with units := a.units.map put, stack := a.stack.map put }

/-- SYS trd: sa receives a word of the trap frame (R154). -/
def execSsysTrd (a w : BitVec 6) (s : State) : Result := atTrap s (fun f s => s.setSreg a.toNat (f.word w.toNat))

/-- SYS twr: the RW fields of a word of the trap frame (R154, R155). -/
def execSsysTwr (a w : BitVec 6) (s : State) : Result :=
  atTrap s (fun f s => s.setArch (s.arch.putFrame (f.setWord w.toNat (s.sreg a.toNat))))

/-- SYS tret: a transfer that leaves trap level (R156). -/
def execSsysTret (s : State) : Result :=
  atTrap s (fun f s => s.decide { kind := .tret, taken := s.cur.lanes, dest := f.fres.toNat, rets := [], checked := false })

/-- SYS ctxid: the context number (R155). -/
def execSsysCtxid (a : BitVec 6) (s : State) : Result :=
  scalarDo s (fun s => s.setSreg a.toNat (s.cw.ctx.setWidth 64))

/-! ### Convergence (R104 to R106, R141, R145, R156) -/

/-- What must stand at a bundle before it executes. -/
inductive Conv where
  | none
  /-- Every live lane of the warp (REGANG, BAR, BARA, JOIN). -/
  | warp
  /-- The live lanes of every group that the issue touches: the lanes of a trap frame (TRET), quads (QXCH), and groups of `k`
  plies (0: none). -/
  | groups (frames quads : Bool) (k : Nat)
deriving DecidableEq, Repr, Inhabited

/-- The convergence a width asks for; `gang` asks for none (R104). -/
def convWidth (w : Option (BitVec 4)) : Conv :=
  match w with
  | some k => if k = 0 then .none else .groups false false k.toNat
  | none => .none

/-- The convergence that a vector instruction needs; QXCH's quads come on top of its width (R106). -/
def vectorConv : Instr → Conv
  | .vqxch _ _ _ w => .groups false true ((w.getD 0).toNat)
  | .vshfl _ _ _ w | .vshflVi _ _ _ w | .vshflVs _ _ _ w | .vshflup _ _ _ w | .vshfldn _ _ _ w | .vshflx _ _ _ w
  | .vvote _ _ _ _ w => convWidth w
  | .vballot _ w _ _ | .vwred _ _ w _ _ => convWidth (some w)
  | _ => .none

/-- TRET's frame beside what the vector slot needs. -/
def Conv.withFrames : Conv → Conv
  | .groups _ q k => .groups true q k
  | _ => .groups true false 0

/-- The convergence that a bundle needs: both slots'; a whole warp is enough for any vector slot. -/
def bundleConv (b : Bundle) (scalarRuns : Bool) : Conv :=
  match b.scalar with
  | some .sregang => .warp
  | some (.sbar _ _) => .warp
  | some (.sbara _ _) => .warp
  | some .sjoin => .warp
  | some .ssysTret => if scalarRuns then (vectorConv b.vector).withFrames else vectorConv b.vector
  | _ => vectorConv b.vector

/-- The hold of a unit parked for a convergence. -/
def convHold (b : Bundle) (c : Conv) : Hold :=
  match c, b.scalar with
  | .warp, some .sregang => .regang
  | .warp, _ => .wholeWarp
  | .groups true _ _, _ => .tret
  | _, _ => .cross

/-- The hold parks a unit (R141). -/
def isParked (h : Hold) : Bool :=
  match h with
  | .reconv | .cross | .regang | .wholeWarp | .tret => true
  | _ => false

/-- The bundle a unit issues next. -/
def IUnit.bundleAddr (v : IUnit) : Nat := v.pos.hdr + 8 * max 1 v.pos.idx

/-- The lanes of the trap frames in use. -/
def frameLanes (a : WarpArch) : List Lanes := ((a.units ++ a.stack).flatMap IUnit.frames).map (·.fact)

/-- The groups of lanes that a convergence asks for whole. -/
def convGroups (x : Warp) (c : Conv) : List Lanes :=
  match c with
  | .groups frames quads k =>
    let n := min k x.nply
    (if frames then frameLanes x.arch else [])
      ++ (if quads then (List.range 16).map quadMask else [])
      ++ (if k = 0 then [] else
        (List.range 8).filterMap (fun g => if g * n < x.nply then some (plyRangeMask (g * n) (min n (x.nply - g * n))) else none))
  | _ => []

/-- The bundle's convergence looks at join keys: a cross-lane bundle (R105), and not a whole-warp wait or a TRET. -/
def Conv.keyed : Conv → Bool
  | .groups frames _ _ => !frames
  | _ => false

/-- A parked unit may join the issue of `v` at its bundle: the same address, and for a cross-lane bundle the same join key (R105).
Trap level is no part of the rule: a unit in a handler and one below trap level join too (log entry 22). -/
def mayJoin (v : IUnit) (keyed : Bool) (q : IUnit) : Bool :=
  isParked q.hold && q.hold != .reconv && q.bundleAddr == v.bundleAddr && !q.entering && (!keyed || q.key == v.key)

/-- Grow a set of lanes by the parked units that hold a lane of a group the set touches. -/
def growLanes (groups : List Lanes) (cands : List IUnit) : Nat → Lanes → Lanes
  | 0, m => m
  | n + 1, m =>
    let need := (groups.filter (fun g => g &&& m != 0)).foldl (fun x g => x ||| g) (0 : Lanes)
    growLanes groups cands n ((cands.filter (fun v => v.lanes &&& need != 0)).foldl (fun x v => x ||| v.lanes) m)

/-- The groups of a list that a set of lanes touches, joined. -/
def touchedGroups (groups : List Lanes) (m : Lanes) : Lanes := (groups.filter (fun g => g &&& m != 0)).foldl (fun y g => y ||| g) (0 : Lanes)

/-- The lanes for which a bundle of unit `u` executes now; none while its convergence is not met. -/
def convLanes (x : Warp) (u : Nat) (c : Conv) : Option Lanes :=
  let a := x.arch
  let v := x.unit u
  let cands : List IUnit := (a.units ++ a.stack).filter (mayJoin v c.keyed)
  match c with
  | .none => some v.lanes
  | .warp =>
    let m := cands.foldl (fun m q => m ||| q.lanes) v.lanes
    if a.live &&& ~~~m = 0 then some m else none
  | .groups _ _ _ =>
    let groups := convGroups x c
    let m := growLanes groups cands 16 v.lanes
    if a.live &&& touchedGroups groups m &&& ~~~m = 0 then some m else none

/-- Merge the whole warp into one fragment with the root key (R141, R145): no splits, secondary slots or stacks. -/
def mergeWarp (x : Warp) (v : IUnit) (m : Lanes) : Warp :=
  let frag := joinFrames (x.arch.units ++ x.arch.stack) { v with sec := false, ply := 0, lanes := m, key := none, age := 0 }
  { x with arch := { x.arch with units := [frag], stack := [], splits := [] }, accs := relabel x.accs m }

/-- Merge the lanes for which a bundle executes; the index of the unit that issues it. The merged unit carries the nearest
common ancestor of the keys it merges, and an entry all of whose lanes it holds is free (R105, R140, R156, R184). -/
def converge (blk : Block) (x : Warp) (u : Nat) (c : Conv) (m : Lanes) : Warp × Nat :=
  let v := x.unit u
  if c = .warp then (mergeWarp x v m, 0)
  else if v.lanes = m then (x, u)
  else
    let sel (q : IUnit) : Bool := q.lanes &&& m != 0
    let sides := (x.arch.units ++ x.arch.stack).filter sel
    let keys := sides.map (·.key)
    let top := commonKey x.arch.splits v.key keys
    let above := keyPath x.arch.splits 64 top
    let gone := (keys.flatMap (keyPath x.arch.splits 64)).filter (fun e => !above.contains e)
    let a := gather (dissolve blk x.arch gone top) sel (joinFrames sides { v with key := top, hold := .none, age := 0 })
    let k := (indexOf sel a.units).getD u
    let y := { x with arch := shedKeys 64 a k, accs := relabel x.accs m }
    if gone.isEmpty then (y, k)
    else
      let z := arriveRekeyed blk y top
      (z, (indexOf sel z.arch.units).getD u)

/-! ### Transfers take effect (R40 step 4, R138 to R145, R156) -/

/-- Settle a warp after its units moved: header entries, refills, block instances but for the flags `kept` (R193). -/
def settle (s : State) (w : Nat) (kept : BitVec 12 := 0) : State :=
  let s1 := settleEntries entryFuel s w
  let x := s1.warp w
  settleInsts (s1.setWarp w { x with arch := normalise x.arch }) w kept

/-- The unit goes on at a header as a whole. -/
def goTo (v : IUnit) (dest : Nat) : IUnit :=
  { v with pos := { v.pos with hdr := dest, idx := 0, inst := 0 }, alsoIn := [], hold := .none, skip := false, xfer := none, fenced := false,
           issued := false, fe := 0, wake := none, passed := false, latch := [], arms := none, entering := true, jumped := jumpsTo v v.lanes }

/-- The checks of an address taken from a register (R143, R156): alignment, then an executable page. -/
def targetTrap (s : State) (ctx : BitVec 12) (dest : Nat) : Option TrapInfo :=
  if dest % 8 ≠ 0 then some { vec := 2, cause := 1, faddr := dest }
  else
    match translatePure s ctx dest .fetch with
    | .ok _ _ => none
    | _ => some { vec := 2, cause := 4, faddr := dest }

/-- The address of a new join key: the reconvergence block's word index, 0 for none (R139). -/
def keyAddr (blk : Block) (v : IUnit) : BitVec 24 :=
  if v.pos.head.rcoff = 0 then 0 else wordIndex blk (wrap 64 ((v.pos.hdr : Int) + 8 * v.pos.head.rcoff.toInt))

/-- Push and pop return addresses (R142). -/
def applyStacks (a : WarpArch) (t : Transfer) (next : Nat) : WarpArch :=
  match t.kind with
  | .call => { a with rstk := (lanesOf t.taken).foldl (fun m l => Sparse.set [] m l (next :: Sparse.get [] m l)) a.rstk }
  | .ret => { a with rstk := (lanesOf t.taken).foldl (fun m l => Sparse.set [] m l ((Sparse.get [] m l).drop 1)) a.rstk }
  | _ => a

/-- The sides of a transfer (R138). -/
def transferSides (v : IUnit) (t : Transfer) : List Side :=
  let stay := (v.nextHeader, v.lanes &&& ~~~t.taken)
  match t.kind with
  | .ret => sidesOf (stay :: t.rets.map (fun e => (e.2, laneBit e.1 &&& v.lanes)))
  | _ => sidesOf [stay, (t.dest, t.taken &&& v.lanes)]

/-- A trap raised when the transfer takes effect: it names the scalar slot. -/
def lateTrap (s : State) (w u : Nat) (t : TrapInfo) : State :=
  takeTrap (s.setWarp w ((s.warp w).setUnit u (fun v => { v with skip := false, xfer := none }))) w u t

/-- Branch, call and return (R138, R139, R142). A BRX that no lane takes checks no target. DESIGN CHOICE (log entry 101). -/
def applySides (s : State) (w u : Nat) (t : Transfer) : State :=
  let x := s.warp w
  let v := x.unit u
  match (if t.checked && t.taken != 0 then targetTrap s x.ctx t.dest else none) with
  | some e => lateTrap s w u e
  | none =>
    let sides := transferSides v t
    match sides with
    | [] => s
    | [(dest, _)] =>
      settle (s.setWarp w (({ x with arch := applyStacks x.arch t v.nextHeader }).setUnit u (goTo · dest))) w s.cur.cleared
    | _ =>
      if stackOverflows x.arch v sides then lateTrap s w u { vec := 5, cause := 3 }
      else
        let a := makeRoom (s.block x.blk) (applyStacks x.arch t v.nextHeader)
        let v' := { v with key := ((a.units[u]?).getD v).key }
        settle (s.setWarp w { x with arch := splitUnit a u v' sides (keyAddr (s.block x.blk) v) }) w s.cur.cleared

/-- EXIT (R144). -/
def applyExit (s : State) (w u : Nat) (t : Transfer) : State :=
  let x := (s.warp w).setUnit u (fun v => goTo v v.nextHeader)
  settle (s.setWarp w (exitLanes x t.taken)) w s.cur.cleared

/-- The checks of a frame's FRES, made at trap level (R156): those of BRX, then a header word. -/
def fresTrap (s : State) (ctx : BitVec 12) (f : TrapFrame) : Option TrapInfo :=
  if f.fres = f.fpc then none
  else
    match targetTrap s ctx f.fres.toNat with
    | some e => some e
    | none =>
      match headerAt s ctx f.fres.toNat with
      | .error e => if e.cause = 7 then none else some e
      | .ok _ => none

/-- The word at an address is a header. -/
def standsHeader (s : State) (ctx : BitVec 12) (va : Nat) : Bool := ((fetchWord s ctx va).map isHeaderWord).getD false

/-- A unit leaves trap level by one of its frames (R156): to the header at FRES, to a header at FPC, or to the trapped bundle. -/
def leaveTrap (s : State) (x : Warp) (f : TrapFrame) (v : IUnit) : IUnit :=
  if f.fres ≠ f.fpc then { goTo v f.fres.toNat with trap := none, more := [] }
  else if standsHeader s x.ctx f.fpc.toNat then { goTo v f.fpc.toNat with trap := none, more := [] }
  else { v.resume f with firstId := x.nextId }

/-- The lanes of a unit's frames: each frame's own, and lanes of no frame, which a merge at trap level brought in, with the first
(log entry 22). -/
def frameSides (v : IUnit) : List Side :=
  let named := v.frames.foldl (fun m f => m ||| f.fact) (0 : Lanes)
  (v.frames.zipIdx.map (fun e =>
    (e.2, v.lanes &&& (if e.2 = 0 then e.1.fact ||| ~~~named else e.1.fact)))).filter (fun e => e.2 != 0)

/-- TRET (R156): leave trap level. A unit that holds several frames divides again into the lanes of each, under its own key. -/
def applyTret (s : State) (w u : Nat) : State :=
  let x := s.warp w
  let v := x.unit u
  match v.frames with
  | [] => s
  | f :: fs =>
    match (f :: fs).findSome? (fresTrap s x.ctx) with
    | some e => lateTrap s w u e
    | none =>
      if fs.isEmpty then settle (s.setWarp w (x.setUnit u (leaveTrap s x f))) w s.cur.cleared
      else
        let sides := frameSides v
        if stackOverflows x.arch v sides then lateTrap s w u { vec := 5, cause := 3 }
        else
          let mk (sec : Bool) (p : Nat) (sd : Side) : IUnit :=
            { leaveTrap s x (((f :: fs)[sd.1]?).getD f) v with sec := sec, ply := if sec then p else 0, lanes := sd.2, age := 0 }
          settle (s.setWarp w { x with arch := placeSides x.arch u v sides mk }) w s.cur.cleared

/-- Both slots of the bundle have executed: the transfer takes effect, or the unit goes on. -/
def finishBundle (s : State) (w u : Nat) : State :=
  let x := s.warp w
  let v := x.unit u
  match v.xfer with
  | some t =>
    match t.kind with
    | .exit => applyExit s w u t
    | .tret => applyTret s w u
    | .regang | .join => settle (s.setWarp w (x.setUnit u (goTo · t.dest))) w s.cur.cleared
    | _ => applySides s w u t
  | none =>
    if v.pos.head.len.toNat ≤ v.pos.idx then settle (s.setWarp w (x.setUnit u (fun v => goTo v v.nextHeader))) w s.cur.cleared
    else
      s.setWarp w (x.setUnit u (fun v =>
        { v with pos := { v.pos with idx := v.pos.idx + 1 }, hold := .none, skip := false, xfer := none, fenced := false,
                 issued := false, fe := 0, wake := none, passed := false, latch := [], arms := none }))

end Sys2Proof.Machine
end

