-- ==== Sys2Proof/Machine/Sync.lean ====
section
/-! DEFINITION. Fences (R130, R131, R203, R213), WAITC (R133), monitors (R134, R135) and barriers (R146 to R148). -/

namespace Sys2Proof.Machine

/-! ### Fences -/

/-- The accesses of a unit's lanes that have not completed. -/
def unitAccesses (x : Warp) (v : IUnit) : List Access := x.accs.filter (fun c => c.lanes &&& v.lanes != 0)

/-- The load or atomic part of R130. -/
def loads (k : AccKind) : Bool :=
  match k with
  | .load | .loadFe | .atomic _ _ | .cas => true
  | _ => false

/-- A release may complete (R130): every earlier access of the fragment is performed, and at `.d` or wider every posted
write of the warp is acknowledged. -/
def releaseReady (x : Warp) (v : IUnit) (scope : BitVec 3) : Bool :=
  (unitAccesses x v).all (fun c => isPosted c.kind) && (decide (scope.toNat < 3) || x.acks == 0)

/-- An acquire may complete (R130): every earlier load and atomic of the fragment has returned. -/
def acquireReady (x : Warp) (v : IUnit) : Bool := (unitAccesses x v).all (fun c => !loads c.kind)

/-- A release or acquire wider than `.b` ends the block's rollback eligibility (R131, R307). -/
def wideEnds (s : State) (blk : Nat) (scope : BitVec 3) : State := if 1 < scope.toNat then endEligible s blk else s

/-- An acquire at `.c` or wider drops every line of the core's L1 (R130). -/
def acquireL1 (s : State) (core : Nat) (scope : BitVec 3) : State :=
  if 1 < scope.toNat then s.setCore core { s.core core with l1 := [] } else s

/-- A fence of unit `u` is done. -/
def fenceDone (s : State) (w u : Nat) : State :=
  s.setWarp w ((s.warp w).setUnit u (fun v => { v with hold := .none, fenced := true }))

/-- Send the queries of a closed round (R213). -/
def sendQueries (s : State) (x : Warp) (round : BitVec 32) (ts : List Touch) : State :=
  ts.foldl (fun t e => linkSend t (Config.linkTo e.module.toNat % 24) (.query (sourceId s x) round e)) s

/-- `fence.rel.s` closes the warp's round (R213): at once without homes, else with a gathered query. -/
def closeRound (s : State) (w u : Nat) : State :=
  let x := s.warp w
  if x.touched.isEmpty then fenceDone (s.setWarp w { x with round := x.round + 1 }) w u
  else
    let y := { x with round := x.round + 1, touched := [], query := some { round := x.round, waiting := x.touched, resendAt := 0 } }
    sendQueries (s.setWarp w (y.setUnit u (fun v => { v with hold := .fenceQuery x.round }))) x x.round x.touched

/-- The fence a unit waits for completes when its conditions are met (R130, R213). -/
def tryFence (s : State) (w u : Nat) : State :=
  let x := s.warp w
  let v := x.unit u
  match v.hold with
  | .fenceRel scope =>
    if !releaseReady x v scope then s
    else if scope = 4 then (if x.query.isSome then s else closeRound (wideEnds s x.blk scope) w u)
    else fenceDone (wideEnds s x.blk scope) w u
  | .fenceAcq scope =>
    if !acquireReady x v then s else fenceDone (acquireL1 (wideEnds s x.blk scope) x.core scope) w u
  | .fenceQuery r =>
    if (x.query.map (·.round)) == some r then s else fenceDone s w u
  | _ => s

/-- A fence as a slot of its own. -/
def fenceSlot (s : State) (h : Hold) : Result := scalarDo s (fun s => if s.unit.fenced then s else s.hold h)

/-- FENCE with order `.rel` (R130). -/
def execSfenceRel (scope : BitVec 3) (s : State) : Result := fenceSlot s (.fenceRel scope)

/-- FENCE with order `.acq` (R130). -/
def execSfenceAcq (scope : BitVec 3) (s : State) : Result := fenceSlot s (.fenceAcq scope)

/-- What a home's reply leaves of a query: a confirmed home is out; a count that falls short is asked for again after 1 µs. -/
def Query.hear (q : Query) (e : EventArgs) (now : Nat) (confirmed : Bool) : Query :=
  let here (t : Touch) : Bool := t.module.toNat == e.k && t.home.toNat == e.home
  let left := q.waiting.filter (fun t => !(here t && (confirmed || decide (t.count ≤ e.count))))
  { q with waiting := left, resendAt := if left.any here then now + 1000 else q.resendAt,
           short := (q.short.filter (!here ·)) ++ left.filter here }

/-- The query awaits a reply of this home for this round. -/
def Query.awaits (q : Query) (e : EventArgs) : Bool :=
  q.round == e.round && q.waiting.any (fun t => t.module.toNat == e.k && t.home.toNat == e.home)

/-- The reply to a warp's query. A home that was reset ends the release with the memory trap, cause 5, in the slot whose access or
FENCE the release belongs to. No address and no lane fails: FADDR is 0 and FMASK the unit's lanes. DESIGN CHOICE (log entry 105). -/
def hearWarp (s : State) (w : Nat) : State :=
  let x := s.warp w
  match x.query with
  | none => s
  | some q =>
    if !q.awaits s.ev || sourceId s x != s.ev.srcId then s
    else if s.ev.flag then
      ((List.range x.arch.units.length).filter (fun u => (x.unit u).hold == .fenceQuery q.round)).foldl
        (fun t u => takeTrap t w u { vec := 2, cause := 5, slotVec := (x.unit u).skip }) (s.setWarp w { x with query := none })
    else
      let q' := q.hear s.ev s.now false
      s.setWarp w { x with query := if q'.waiting.isEmpty then none else some q' }

/-- The reply to the launch unit's queries of a grid's ended warps (R236); a home that was reset confirms them. -/
def hearGrid (s : State) (g : Grid) : Grid :=
  let hear (r : W64 × Query) : W64 × Query :=
    if r.1 = s.ev.srcId ∧ r.2.awaits s.ev then (r.1, r.2.hear s.ev s.now s.ev.flag) else r
  { g with rounds := (g.rounds.map hear).filter (fun r => !r.2.waiting.isEmpty) }

/-- RELEASE_QUERY_REPLY (R213, R214): home `ev.home` of module `ev.k` reports `ev.count` arrivals of (`ev.srcId`, `ev.round`), or
with `ev.flag` that it was reset. The query is that of warp `ev.w` or of the launch unit. -/
def execReleaseQueryReply (s : State) : Result :=
  .next (hearWarp { s with grids := s.grids.map (fun (e : Nat × Grid) => (e.1, hearGrid s e.2)) } s.ev.w)

/-- Queries of ended warps that are due to be sent again, to the homes that fell short. -/
def resendGrid (s : State) (g : Nat × Grid) : State :=
  let due (r : W64 × Query) : Bool := decide (0 < r.2.resendAt) && decide (r.2.resendAt ≤ s.now)
  let s1 := (g.2.rounds.filter due).foldl (fun t r => r.2.short.foldl
    (fun t e => linkSend t (Config.linkTo e.module.toNat % 24) (.query r.1 r.2.round e)) t) s
  s1.setGrid g.1 { g.2 with rounds := g.2.rounds.map (fun (r : W64 × Query) => if due r then (r.1, { r.2 with resendAt := 0, short := [] }) else r) }

/-- RELEASE_QUERY_RESEND (R213): 1 µs after a reply that fell short, the query goes out again to the homes that fell
short: that of warp `ev.w`, and those of the launch unit for grid `ev.k`. -/
def execReleaseQueryResend (s : State) : Result :=
  .next (
    let s1 := match Sparse.find s.grids s.ev.k with
      | some g => resendGrid s (s.ev.k, g)
      | none => s
    let x := s1.warp s1.ev.w
    match x.query with
    | none => s1
    | some q =>
      if q.resendAt = 0 ∨ s1.now < q.resendAt then s1
      else sendQueries (s1.setWarp s1.ev.w { x with query := some { q with resendAt := 0, short := [] } }) x q.round q.short)

/-! ### WAITC (R133) -/

/-- WAITC: the fragment waits until a path's counter is at or below the threshold. -/
def execSwaitc (path : BitVec 3) (sn : BitVec 6) (z : Bool) (s : State) : Result :=
  scalarDo s (fun s =>
    let n := if z then 0 else (s.sreg sn.toNat).toNat
    if s.unit.passed || decide (pathCount s.cw path.toNat ≤ n) then s else s.hold (.waitc path.toNat n))

/-! ### Monitors (R134, R135) -/

/-- The two sectors of a 128-byte line. -/
def lineSectors (line : Nat) : List Nat := [2 * line, 2 * line + 1]

/-- Arm the warp's monitor once the core's L2 holds a token of each sector; until then the requests run. -/
def armMonitor (s : State) (va da : Nat) (ros : Bool) : State :=
  let x := s.cw
  let agent := coreAgent s x.core
  let need := if ros then [] else (lineSectors (da / 128)).filter (fun sec => !satisfied s agent sec false)
  if need.isEmpty then
    let s1 := s.setCw { x with mon := some ⟨va / 128 * 128, da / 128, ros, false⟩ }
    s1.setCore x.core (l1Drop (s1.core x.core) (da / 128))
  else ((need.foldl (fun t sec => startRequest t agent sec false x.cls) s).setUnit (fun v => { v with arms := some (da / 128) })).hold .walk

/-- MONARM: arms the warp's monitor on the line of sa, after the checks 2 to 5 of R114 (R134). -/
def execSmonarm (a : BitVec 6) (s : State) : Result :=
  scalarDo s (fun s =>
    if !(openLoads s.cw).isEmpty then s.hold .loads
    else
      let va := (s.sreg a.toNat).toNat
      let placed := placeGlobal s .load 1 (scalarPiece va 1)
      onVerdict placed.2 false placed.1 (fun t =>
        match placed.1 with
        | [(_, .ok da ros)] => armMonitor t va da ros
        | _ => t))

/-- MONWAIT: waits for the monitor and writes the reason to sd (R135). What disarms an armed monitor waits until the warp's
loads have returned (R303). -/
def execSmonwait (d a : BitVec 6) (s : State) : Result :=
  scalarDo s (fun s =>
    match s.unit.wake with
    | some r => s.setSreg d.toNat (r.setWidth 64)
    | none =>
      match s.cw.mon with
      | none => s.setSreg d.toNat 2
      | some m =>
        if m.ros then s.setSreg d.toNat 2
        else if !(openLoads s.cw).isEmpty then s.hold .loads
        else if m.triggered then (s.setCw { s.cw with mon := none }).setSreg d.toNat 0
        else
          let ns := (s.sreg a.toNat).toNat
          s.hold (.monwait (if ns = 0 then none else some (s.now + ns))))

/-- MONWAIT_TIMEOUT (R135): a fragment's wait ends with reason 1; the last one disarms the monitor. A warp that stands on no core
waits no longer: its fragments return reason 3. -/
def execMonwaitTimeout (s : State) : Result :=
  .next (
    let x := s.warp s.ev.w
    let v := x.unit s.ev.u
    match v.hold with
    | .monwait (some d) =>
      if v.wake.isSome ∨ s.now < d ∨ !isPlaced s x.blk then s
      else
        let y := x.setUnit s.ev.u (fun v => { v with wake := some 1 })
        s.setWarp s.ev.w (if (y.arch.units ++ y.arch.stack).any IUnit.awaitsMonitor then y
          else { y with mon := none })
    | _ => s)

/-! ### Barriers (R146 to R148) -/

/-- The fields of a barrier doubleword. -/
def barPhase (w : Nat) : Nat := bitsOf w 32 16
def barCount (w : Nat) : Nat := bitsOf w 16 16
def barExpect (w : Nat) : Nat := bitsOf w 0 16

/-- The barrier word at an offset of a block's scratchpad. -/
def barWord (s : State) (blk off : Nat) : Nat := leValue (spRead s blk off 8)

/-- PHASE and COUNT replaced; the reserved field reads 0. -/
def setBar (s : State) (blk : Nat) (foreign : Bool) (off phase count : Nat) : State :=
  spWrite s blk foreign off (leSplit 8 (barExpect (barWord s blk off) + count % 65536 * 65536 + phase % 65536 * 2 ^ 32)) 0

/-- The warps of a block that have not ended. -/
def unendedWarps (s : State) (blk : Nat) : Nat := (s.blockWarps blk).countP (fun e => !e.2.ended)

/-- Arrivals that complete a phase (R146). -/
def barNeed (s : State) (blk off : Nat) : Nat :=
  let e := barExpect (barWord s blk off)
  if e = 0 then unendedWarps s blk else e

/-- Units waiting on a barrier word whose PHASE now differs from theirs pass. -/
def wakeBarrier (s : State) (blk off : Nat) : State :=
  let now := barPhase (barWord s blk off)
  let wake (v : IUnit) : IUnit :=
    match v.hold with
    | .barrier b o ph _ => if b = blk ∧ o = off ∧ ph.toNat ≠ now then { v with hold := .none, passed := true } else v
    | _ => v
  { s with warps := s.warps.map (fun e => (e.1, { e.2 with arch := { e.2.arch with units := e.2.arch.units.map wake } })) }

/-- Note whether every arrival of the current phase is a BAR at `.b` of the block's own warps (R306). -/
def notePhase (b : Block) (off : Nat) (plain : Bool) : Block :=
  if b.phases.any (fun p => p.off == off) then
    { b with phases := b.phases.map (fun p => if p.off == off then { p with plain := p.plain && plain } else p) }
  else { b with phases := ⟨off, plain⟩ :: b.phases }

/-- Complete a phase: COUNT 0, PHASE advanced; a checkpoint phase wakes its warps only after the checkpoint (R306). -/
def completePhase (s : State) (blk off : Nat) (foreign rbar : Bool) : State :=
  let b := s.block blk
  let plain := b.phases.any (fun p => p.off == off && p.plain)
  let ckpt := plain && rbar && barExpect (barWord s blk off) == 0
  let s1 := setBar s blk foreign off (barPhase (barWord s blk off) + 1) 0
  let b1 := s1.block blk
  let s2 := s1.setBlock blk { b1 with phases := b1.phases.filter (fun p => p.off != off), ckptWait := if ckpt then some off else b1.ckptWait }
  if ckpt then s2 else wakeBarrier s2 blk off

/-- The arrival at the bank, indivisible. -/
def arriveAt (s : State) (w : Nat) (x : Warp) (c : Access) (bar : Bool) (scope : BitVec 3) (p : AccPart) : State :=
  let blk := c.bank.getD 0
  let off := p.addr % 2 ^ 21
  let foreign := blk != x.blk
  let ph := barPhase (barWord s blk off)
  let count := barCount (barWord s blk off) + 1
  let s0 := if foreign then endEligible s x.blk else s
  let s1 := s0.setBlock blk (notePhase (s0.block blk) off (bar && scope == 1 && !foreign))
  let units := (s1.warp w).arch.units.map (fun v =>
    if bar && v.hold == .arriving then { v with hold := .barrier blk off (BitVec.ofNat 16 ph) scope } else v)
  let rbar := bar && (units.any (fun v => v.pos.head.rbar && (match v.hold with
    | .barrier _ _ _ _ => true
    | _ => false)))
  let y := s1.warp w
  let s2 := s1.setWarp w ({ y with arch := { y.arch with units := units } }.finishAccess c.id)
  let s3 := setBar s2 blk foreign off ph count
  let s4 := if barNeed s3 blk off ≤ count then completePhase s3 blk off foreign rbar else s3
  afterAccess s4 w

/-- BARRIER_ARRIVAL (R148): an arrival of BAR or BARA is applied at the owning bank. -/
def execBarrierArrival (s : State) : Result :=
  .next (match eventAccess s with
    | none => s
    | some (x, c) =>
      match c.kind, c.parts with
      | .arrive bar scope, [p] => if mayPerform x c [p] then arriveAt s s.ev.w x c bar scope p else s
      | _, _ => s)

/-- A warp has ended: EXPECT-0 barriers of its block with arrivals need one less (R148). -/
def lowerBarriers (s : State) (blk : Nat) : State :=
  ((s.block blk).phases.map (·.off)).foldl (fun t off =>
    let w := barWord t blk off
    if barExpect w = 0 ∧ 0 < barCount w ∧ unendedWarps t blk ≤ barCount w then completePhase t blk off false false else t) s

/-- The checks of a barrier address (R148): alignment, validity, and for BAR the own block. -/
def barAddr (s : State) (bar : Bool) (va : Nat) : Except TrapInfo (Nat × Nat) :=
  if va % 8 ≠ 0 then .error { vec := 2, cause := 1, faddr := va }
  else
    match placeScratch s true va 8 with
    | .error c => .error { vec := 2, cause := c, faddr := va }
    | .ok (b, off) => if bar ∧ b ≠ s.cw.blk then .error { vec := 5, cause := 4 } else .ok (b, off)

/-- BAR and BARA, for the merged warp: checks, release, arrival; BAR then waits for the phase and acquires (R148). -/
def barrierOp (s : State) (bar : Bool) (a : BitVec 6) (scope : BitVec 3) : State :=
  let v := s.unit
  if v.passed then (if v.fenced then s else s.hold (.fenceAcq scope))
  else if v.issued then s.hold .arriving
  else
    match barAddr s bar (s.sreg a.toNat).toNat with
    | .error t => s.trap t
    | .ok (b, off) =>
      if !v.fenced then s.hold (.fenceRel scope)
      else
        let path := if b = s.cw.blk then 0 else 1
        pathRoom s path true (fun t =>
          let p : AccPart := { lane := 64, va := (s.sreg a.toNat).toNat, addr := b * 2 ^ 21 + off, off := 0, size := 8, ros := false,
                               helper := false, data := [], expect := [] }
          let t1 := pushAccesses t [newAccess (.arrive bar scope) (some b) none scope [p]] path true
          if bar then (t1.setUnit (fun v => { v with issued := true, fenced := false })).hold .arriving else t1)

/-- BAR (R147, R148). -/
def execSbar (a : BitVec 6) (scope : BitVec 3) (s : State) : Result := .next (barrierOp s true a scope)

/-- BARA (R147, R148). -/
def execSbara (a : BitVec 6) (scope : BitVec 3) (s : State) : Result := .next (barrierOp s false a scope)

end Sys2Proof.Machine
end

