-- ==== Sys2Proof/Machine/Matrix.lean ====
section
/-! DEFINITION. The matrix and sign-select instructions (R69 to R77, R157 to R166), the format-block registers (R167) and
batches (R168, R169). -/

namespace Sys2Proof.Machine

/-! ### The format-block register (R70 to R74) -/

/-- The fields of a format-block register. -/
structure FmtBlock where
  afmt : BitVec 4
  bfmt : BitVec 4
  ablk : Nat
  bblk : Nat
  ascl : Nat
  bscl : Nat
  abase : Nat
  bbase : Nat
  astr : Nat
  bstr : Nat
  kb0 : Nat
deriving DecidableEq, Repr, Inhabited

/-- A format-block register read (R70). -/
def readFmt (w : BitVec 128) : FmtBlock :=
  let f (lo n : Nat) : Nat := bitsOf w.toNat lo n
  { afmt := BitVec.ofNat 4 (f 0 4), bfmt := BitVec.ofNat 4 (f 4 4), ablk := if f 8 1 = 0 then 16 else 32,
    bblk := if f 9 1 = 0 then 16 else 32, ascl := f 10 2, bscl := f 12 2, abase := f 16 21, bbase := f 40 21, astr := f 64 16,
    bstr := f 80 16, kb0 := f 96 8 }

/-- The element types form a row of R73. -/
def typesFit (mss : Bool) (a b : BitVec 4) : Bool :=
  let x := a.toNat
  let y := b.toNat
  if mss then x == 8 && y == 7
  else (decide (x ≤ 2) && decide (y ≤ 3)) || (x == 3 && decide (y ≤ 3)) || (x == 4 && y == 4) || (x == 5 && y == 5)

/-- Bytes of one chunk of an operand (R158). -/
def chunkBytes (t : BitVec 4) : Nat := 64 * 32 * typeBits t / 8

/-- The scratchpad address of a scale byte (R71). -/
def scaleAddr (base stride kb0 row kb : Nat) : Nat := base + row * stride + kb0 + kb

/-- The k-blocks of an operand. -/
def blocksOf (kc blk : Nat) : Nat := 32 * kc / blk

/-- The addresses of an operand's scale bytes, by row and k-block at key 64 × k-block + row. -/
def scaleKeys (scl base stride kb0 n : Nat) : List (Nat × Nat) :=
  if scl = 0 then []
  else (List.range n).flatMap (fun kb => (List.range 64).map (fun r => (64 * kb + r, scaleAddr base stride kb0 r kb)))

/-- The lowest failing cause of the format trap (R74, R160). -/
def formatCause (f : FmtBlock) (mss : Bool) (kc spAlloc : Nat) : Option Nat :=
  let keys := scaleKeys f.ascl f.abase f.astr f.kb0 (blocksOf kc f.ablk) ++ scaleKeys f.bscl f.bbase f.bstr f.kb0 (blocksOf kc f.bblk)
  if !typesFit mss f.afmt f.bfmt then some 1
  else if f.ascl = 3 ∨ f.bscl = 3 then some 2
  else if 32 * kc % max f.ablk f.bblk ≠ 0 then some 3
  else if keys.any (fun e => decide (spAlloc ≤ e.2)) then some 4
  else if 65536 < kc * chunkBytes f.afmt ∨ 65536 < kc * chunkBytes f.bfmt then some 5
  else none

/-! ### Issue (R160, R161) -/

/-- The snapshot of an operand's scale bytes (R72). -/
def scaleSnapshot (s : State) (blk : Nat) (keys : List (Nat × Nat)) : Sparse Byte :=
  keys.foldl (fun m e => Sparse.set 0 m e.1 ((spRead s blk e.2 1).headD 0)) []

/-- W: the lanes where the guard passes, with the helpers of their quads (R161). -/
def matrixRows (s : State) : Lanes :=
  s.cur.guard ||| (s.cur.helpers &&& quadsOf s.cur.guard)

/-- An access of the unit that the snapshot must follow has not been performed (R72, R202): the table of R201 orders the snapshot as
a load, and an earlier store to the own scratchpad, whose bytes it may read, comes first. -/
def snapshotWaits (s : State) : Bool :=
  (unitAccesses s.cw s.unit).any (fun c => c.stage == .waiting && !isPosted c.kind && !isRemote s.cw c
    && (c.bank == some s.cw.blk || !isPureStore c.kind))

/-! ### The auditor's samples (R313) -/

/-- A core opens a batch of a warp: every 2^K-th one is sampled while auditing is enabled. -/
def openSample (s : State) (w : Nat) : State :=
  let x := s.warp w
  let k := s.core x.core
  let s1 := s.setCore x.core { k with opened := k.opened + 1 }
  if s.sys.audctl.getLsbD 63 && k.opened % 2 ^ bitsOf s.sys.audctl.toNat 0 5 == 0 then
    { s1 with audit := s1.audit ++ [{ core := x.core, warp := w, ctx := x.ctx, batch := x.arch.batch + 1, members := [], ops := [],
                                      sig := 0, bytes := 0, complete := false }] }
  else s1

/-- The auditor's buffer of an ashlar: 4 MiB of its last-level cache (R313). -/
def auditBuffer : Nat := 4194304

/-- The operand bytes of a matrix instruction. -/
def operandBytes (m : MatOp) : Nat × Nat :=
  let f := readFmt m.fmt
  (m.op.kc.toNat * chunkBytes f.afmt, m.op.kc.toNat * chunkBytes f.bfmt)

/-- What the auditor copies of a matrix instruction: operand bytes, the format block, scale bytes, and unless ZA its rows of W. -/
def auditBytes (m : MatOp) : Nat :=
  let f := readFmt m.fmt
  let kc := m.op.kc.toNat
  (operandBytes m).1 + (operandBytes m).2 + 16 + (scaleKeys f.ascl f.abase f.astr f.kb0 (blocksOf kc f.ablk)).length
    + (scaleKeys f.bscl f.bbase f.bstr f.kb0 (blocksOf kc f.bblk)).length + (if m.op.za then 0 else popcount 64 m.rows.toNat * 256)

/-- A matrix instruction joins the sampled batch of its warp; a batch that no longer fits its ashlar's buffer is skipped. -/
def joinSample (s : State) (w id bytes : Nat) : State :=
  let x := s.warp w
  let mine (a : AuditBatch) : Bool := a.warp == w && a.batch == x.arch.batch + 1
  if !s.audit.any mine then s
  else if ((s.audit.filter (fun a => ashlarOf a.core == ashlarOf x.core)).map (·.bytes)).sum + bytes ≤ auditBuffer then
    { s with audit := s.audit.map (fun a => if mine a then { a with members := a.members ++ [id], bytes := a.bytes + bytes } else a) }
  else
    { s with audit := s.audit.filter (fun a => !mine a), sys := { s.sys with audSkip := s.sys.audSkip + 1 } }

/-- MMA and MSS at issue: the checks, the snapshot, and the open batch. -/
def matrixIssue (s : State) (mss : Bool) (o : MmOp) : State :=
  let b := s.cblk
  if !b.fifoSet.getLsbD o.fa.toNat || !b.fifoSet.getLsbD o.fb.toNat then s.trap { vec := 1, cause := 9 }
  else
    let w := Sparse.get 0 s.arch.fmt o.fmt.toNat
    let f := readFmt w
    let kc := o.kc.toNat
    match formatCause f mss kc b.spAlloc with
    | some c => s.trap { vec := 3, cause := c }
    | none =>
      let rows := matrixRows s
      if rows = 0 then s
      else if (f.ascl ≠ 0 ∨ f.bscl ≠ 0) ∧ snapshotWaits s then s.hold .walk
      else
        let x := s.cw
        let m : MatOp := {
          warp := s.cur.w, id := x.nextId, mss := mss, op := o, fmt := w, rows := rows,
          scaleA := scaleSnapshot s x.blk (scaleKeys f.ascl f.abase f.astr f.kb0 (blocksOf kc f.ablk)),
          scaleB := scaleSnapshot s x.blk (scaleKeys f.bscl f.bbase f.bstr f.kb0 (blocksOf kc f.bblk)),
          started := false, aBytes := [], bBytes := [], arrays := 0 }
        let s1 := s.setBlock x.blk { b with mq := b.mq ++ [m] }
        joinSample
          (s1.setCw { x with arch := countOp x.arch s.cur.u x.nextId, nextId := x.nextId + 1, openBatch := x.openBatch ++ [x.nextId] })
          s.cur.w x.nextId (auditBytes m)

/-- MMA (R159 to R161). -/
def execVmma (o : MmOp) (s : State) : Result := .next (matrixIssue s false o)

/-- MSS (R159 to R161). -/
def execVmss (o : MmOp) (s : State) : Result := .next (matrixIssue s true o)

/-! ### Start (R161, R162) -/

def fifoOf (b : Block) (k : Nat) : List Byte := Sparse.get [] b.fifos k

/-- Both operands stand in their FIFOs. -/
def operandsReady (b : Block) (m : MatOp) : Bool :=
  let n := operandBytes m
  let fa := m.op.fa.toNat
  let fb := m.op.fb.toNat
  if fa = fb then decide (n.1 + n.2 ≤ (fifoOf b fa).length)
  else decide (n.1 ≤ (fifoOf b fa).length) && decide (n.2 ≤ (fifoOf b fb).length)

/-- Earlier matrix instructions, oldest first, allow this one to start. -/
def earlierAllow (before : List MatOp) (m : MatOp) : Bool :=
  before.all (fun e =>
    (e.started || !([e.op.fa, e.op.fb].any (fun k => k == m.op.fa || k == m.op.fb)))
      && !(e.warp == m.warp && e.op.acc == m.op.acc))

/-- An array in service: fewer than two fenced sub-arrays. -/
def inService (a : ArrayState) : Bool := decide (popcount 4 a.fenced.toNat < 2)

/-- A tile instruction that issued before a matrix instruction waits for the tile: the matrix instruction starts after it (R166). -/
def tileAwaited (x : Warp) (m : MatOp) : Bool :=
  (x.arch.units ++ x.arch.stack).any (fun v => v.hold == .tile m.op.acc.toNat && decide (v.firstId ≤ m.id))

/-- The arrays that take a matrix instruction now, as a mask; none while it must wait. The sign-select array is 3. -/
def chooseArrays (k : Core) (m : MatOp) : Option (BitVec 4) :=
  let arr (n : Nat) : ArrayState := (k.arrays[n]?).getD {}
  let free (n : Nat) : Bool := (arr n).busy.isNone && inService (arr n)
  let whole (n : Nat) : Bool := free n && (arr n).fenced == 0
  if m.mss then (if free 3 then some 8 else none)
  else
    let clean := ([0, 1, 2] : List Nat).filter whole
    match m.op.fuse, clean with
    | true, a :: b :: _ => some (BitVec.ofNat 4 (2 ^ a + 2 ^ b))
    | _, a :: _ => some (BitVec.ofNat 4 (2 ^ a))
    | _, [] => ((([0, 1, 2] : List Nat).find? free)).map (fun a => BitVec.ofNat 4 (2 ^ a))

/-- Mark arrays busy or free. -/
def setArrays (k : Core) (mask : BitVec 4) (busy : Option (Nat × Nat)) : Core :=
  { k with arrays := (List.range 4).map (fun n =>
      let a := (k.arrays[n]?).getD {}
      if mask.getLsbD n then { a with busy := busy } else a) }

/-- Remove the operands of a starting instruction from the FIFOs, A first. -/
def takeOperands (b : Block) (m : MatOp) : Block × MatOp :=
  let n := operandBytes m
  let a := fifoOf b m.op.fa.toNat
  let f1 := Sparse.set [] b.fifos m.op.fa.toNat (a.drop n.1)
  let c := Sparse.get [] f1 m.op.fb.toNat
  ({ b with fifos := Sparse.set [] f1 m.op.fb.toNat (c.drop n.2) }, { m with started := true, aBytes := a.take n.1, bBytes := c.take n.2 })

/-- MMA_START (R161): the k-th matrix instruction of a resident block starts. -/
def execMmaStart (s : State) : Result :=
  .next (
    let blk := s.ev.k
    let b := s.block blk
    match b.mq[s.ev.id]? with
    | none => s
    | some m =>
      let x := s.warp m.warp
      if m.started || b.status != .resident || !operandsReady b m || !earlierAllow (b.mq.take s.ev.id) m || tileAwaited x m || !loadsReturned x m.id then s
      else
        match chooseArrays (s.core b.core) m with
        | none => s
        | some mask =>
          let r := takeOperands b m
          let s1 := s.setBlock blk { r.1 with mq := setAt r.1.mq s.ev.id { r.2 with arrays := mask } }
          s1.setCore b.core (setArrays (s1.core b.core) mask (some (m.warp, m.id))))

/-! ### The sums (R75, R76) -/

/-- Element e of row r of an operand: chunk c holds 64 rows of 32 packed elements (R58, R158). -/
def operandElement (bytes : List Byte) (t : BitVec 4) (row k : Nat) : Nat :=
  let w := typeBits t
  let rowBytes := 32 * w / 8
  let start := k / 32 * chunkBytes t + row * rowBytes
  leValue ((bytes.drop start).take rowBytes) / 2 ^ (w * (k % 32)) % 2 ^ w

/-- An element's exact value with its flags. -/
def elementValue (t : BitVec 4) (w : Nat) : Flagged :=
  if isFloatCode t then ((fmtOf t).decode w, 0)
  else
    let r := intElement t w
    (FVal.ofInt r.1, r.2)

/-- A scale byte's value (R69); absent scales are 1. -/
def scaleValue (scl : Nat) (w : Byte) : Flagged :=
  match scl with
  | 0 => (.fin false 1 0, 0)
  | 1 => if w = 255 then (.nan, nfScnan) else (.fin false 1 ((w.toNat : Int) - 127), 0)
  | _ =>
    let v := fmtF8A.decode w.toNat
    (v, flagIf v.isNan nfScnan)

/-- One segment's products summed exactly, with its specials (R75): S and flags. -/
def segmentSum (ps : List (FVal × FVal)) : Flagged :=
  let prods := ps.map (fun p => fMul p.1 p.2)
  let bad := ps.any (fun p => p.1.isNan || p.2.isNan)
  let zeroInf := prods.any (fun p => p.2 != 0)
  let pos := prods.any (fun p => p.1 == .inf false)
  let neg := prods.any (fun p => p.1 == .inf true)
  let inv := flagIf (zeroInf || (pos && neg)) nfInv
  if bad || zeroInf || (pos && neg) then (.nan, inv)
  else if pos then (.inf false, 0)
  else if neg then (.inf true, 0)
  else (prods.foldl (fun acc p => (fAdd acc p.1).1) (.fin false 0 0), 0)

/-- T of a segment: S × sa × sb; an infinite S with a zero scale sets INV, also beside a scale that is NaN. -/
def scaleSum (x sa sb : Flagged) : Flagged :=
  let f := x.2 ||| sa.2 ||| sb.2
  if x.1.isInf && (sa.1.isZero || sb.1.isZero) then (.nan, f ||| nfInv)
  else if sa.1.isNan || sb.1.isNan then (.nan, f)
  else
    let p := fMul sa.1 sb.1
    let r := fMul x.1 p.1
    (r.1, f ||| r.2)

/-- One accumulator element over the segments from `g` on (R75). -/
def accumulate (m : MatOp) (f : FmtBlock) (i j seg : Nat) : Nat → Nat → Nat → NumFlags → Nat × NumFlags
  | 0, _, acc, fl => (acc, fl)
  | n + 1, g, acc, fl =>
    let ks := (List.range seg).map (fun e => g * seg + e)
    let els := ks.map (fun k => (elementValue f.afmt (operandElement m.aBytes f.afmt i k), elementValue f.bfmt (operandElement m.bBytes f.bfmt j k)))
    let elf := els.foldl (fun a e => a ||| e.1.2 ||| e.2.2) (0 : NumFlags)
    let s := segmentSum (els.map (fun e => (e.1.1, e.2.1)))
    let sa := scaleValue f.ascl (Sparse.get 0 m.scaleA (64 * (g * seg / f.ablk) + i))
    let sb := scaleValue f.bscl (Sparse.get 0 m.scaleB (64 * (g * seg / f.bblk) + j))
    let t := scaleSum s sa sb
    let sum := fAdd (fmtFP32.decode acc) t.1
    let r := roundFlagged fmtFP32 false sum
    accumulate m f i j seg n (g + 1) r.1 (fl ||| elf ||| t.2 ||| r.2)

/-- One accumulator element of an MSS without scales (R76). -/
def accumulateInt (m : MatOp) (f : FmtBlock) (i j : Nat) : Nat → Nat → Nat → NumFlags → Nat × NumFlags
  | 0, _, acc, fl => (acc, fl)
  | n + 1, k, acc, fl =>
    let a := intElement f.afmt (operandElement m.aBytes f.afmt i k)
    let t := intElement f.bfmt (operandElement m.bBytes f.bfmt j k)
    let y : Int := signed 32 acc + a.1 * t.1
    let out := decide (y < intLo true 32) || decide (intHi true 32 < y)
    accumulateInt m f i j n (k + 1) (wrap 32 y) (fl ||| a.2 ||| t.2 ||| flagIf out nfIovf)

/-- The new value of element (i, j) from its old one. -/
def matrixElement (m : MatOp) (i j old : Nat) : Nat × NumFlags :=
  let f := readFmt m.fmt
  let start := if m.op.za then 0 else old
  let k := 32 * m.op.kc.toNat
  if m.mss && f.ascl == 0 && f.bscl == 0 then accumulateInt m f i j k 0 start 0
  else
    let seg := min f.ablk f.bblk
    accumulate m f i j seg (k / seg) 0 start 0

/-- The rows of W computed from a tile: the new elements, and the flags. -/
def matrixResult (m : MatOp) (tile : Nat → Nat → W32) : List (Nat × Nat × W32) × NumFlags :=
  let els := (lanesOf m.rows).flatMap (fun i => (List.range 64).map (fun j => (i, j, matrixElement m i j (tile i j).toNat)))
  (els.map (fun e => (e.1, e.2.1, BitVec.ofNat 32 e.2.2.1)), els.foldl (fun f e => f ||| e.2.2.2) 0)

/-! ### Completion -/

/-- CRC-64 with the ECMA-182 polynomial, one bit at a time, most significant first (R315). -/
def crcBits : Nat → Nat → W64 → W64
  | 0, _, crc => crc
  | n + 1, v, crc =>
    let top := crc.getLsbD 63 != bitOf v n
    crcBits n v ((crc <<< 1) ^^^ (if top then 0x42F0E1EBA9EA3693 else 0))

/-- The signature of results in row and column order. -/
def signature (els : List (Nat × Nat × W32)) (crc : W64) : W64 := els.foldl (fun c e => crcBits 32 e.2.2.toNat c) crc

/-- Record a sampled instruction's start rows and results for the auditor (R313, R315). -/
def auditNote (s : State) (m : MatOp) (tile : Nat → Nat → W32) (els : List (Nat × Nat × W32)) : State :=
  let rows := (lanesOf m.rows).flatMap (fun i => (List.range 64).map (fun j => (64 * i + j, tile i j)))
  let old := rows.foldl (fun t e => Sparse.set 0 t e.1 e.2) ([] : Sparse W32)
  { s with audit := s.audit.map (fun a =>
      if a.warp == m.warp && a.members.contains m.id then
        { a with ops := a.ops ++ [(m, old)], sig := signature els a.sig }
      else a) }

/-- MMA_COMPLETE (R161): the rows in W hold their results; the flags wait for the batch (R67). -/
def execMmaComplete (s : State) : Result :=
  .next (
    let blk := s.ev.k
    let b := s.block blk
    match b.mq[s.ev.id]? with
    | none => s
    | some m =>
      if !m.started then s
      else
        let x := s.warp m.warp
        let t := m.op.acc.toNat
        let tile (i j : Nat) : W32 := x.arch.getAcc t i j
        let r := matrixResult m tile
        let put (a : WarpArch) : WarpArch := r.1.foldl (fun (a : WarpArch) e => a.setAcc t e.1 e.2.1 e.2.2) a
        let s1 := s.setBlock blk { b with mq := dropAt b.mq s.ev.id }
        let s2 := s1.setWarp m.warp { x.updArch m.id put with mflags := x.mflags ++ [(m.id, r.2.setWidth 64)] }
        let s3 := s2.setCore b.core (setArrays (s2.core b.core) m.arrays none)
        settleInsts (auditNote s3 m tile r.1) m.warp)

/-! ### Tiles and format blocks (R164 to R167) -/

/-- The unit waits while a matrix instruction of the warp that issued before it names the tile (R166). -/
def onTile (s : State) (acc : BitVec 2) (go : State → State) : Result :=
  .next (if s.cblk.mq.any (fun m => m.warp == s.cur.w && m.op.acc == acc && decide (m.id < s.unit.firstId)) then s.hold (.tile acc.toNat) else go s)

/-- ACCRD (R164). -/
def execVaccrd (o : AccOp) (s : State) : Result :=
  onTile s o.acc (fun s =>
    s.setArch (s.arch.setVs ((lanesOf s.written).flatMap (fun l => (List.range (o.nm1.toNat + 1)).map (fun j =>
      (o.v.toNat + j, l, s.arch.getAcc o.acc.toNat l (o.col.toNat + j)))))))

/-- ACCWR (R164). -/
def execVaccwr (o : AccOp) (s : State) : Result :=
  onTile s o.acc (fun s =>
    s.setArch ((lanesOf s.written).foldl (fun (a : WarpArch) l => (List.range (o.nm1.toNat + 1)).foldl (fun (a : WarpArch) j =>
      a.setAcc o.acc.toNat l (o.col.toNat + j) (s.vreg (o.v.toNat + j) l)) a) s.arch))

/-- ACCZ (R164). -/
def execVaccz (acc : BitVec 2) (s : State) : Result :=
  onTile s acc (fun s =>
    s.setArch ((lanesOf s.written).foldl (fun (a : WarpArch) l => (List.range 64).foldl (fun (a : WarpArch) j =>
      a.setAcc acc.toNat l j 0) a) s.arch))

/-- One requantised element (R165): an I8 or N8 byte and its flags. -/
def requantise (it u : Bool) (x scale : W32) : Nat × NumFlags :=
  let v := if it then FVal.ofInt x.toInt else fmtFP32.decode x.toNat
  let p := fMul v (fmtFP32.decode scale.toNat)
  if p.1.isNan then (0, nfInv) else floatToInt false true (!u) 8 p.1

/-- ACCQ (R165). -/
def execVaccq (d a : BitVec 8) (acc : BitVec 2) (col : BitVec 6) (it u : Bool) (s : State) : Result :=
  onTile s acc (fun s =>
    s.mapLanes d.toNat (fun l =>
      (List.range 4).foldl (fun r j =>
        let e := requantise it u (s.arch.getAcc acc.toNat l (col.toNat + j)) (s.vreg a.toNat l)
        (r.1 + e.1 % 256 * 2 ^ (8 * j), r.2 ||| e.2)) (0, 0)))

/-- FMTLD (R167). -/
def execVfmtld (fmt : BitVec 3) (a b : BitVec 8) (s : State) : Result :=
  .next (
    if s.cur.guard = 0 then s
    else
      let v : BitVec 128 := BitVec.ofNat 128 ((s.sreg a.toNat).toNat + (s.sreg b.toNat).toNat * 2 ^ 64)
      s.setArch { s.arch with fmt := Sparse.set 0 s.arch.fmt fmt.toNat v })

/-! ### Batches (R168, R169) -/

/-- The warp's stores, atomics and posted writes that are not yet performed or acknowledged; LDF is none of them. -/
def openWrites (x : Warp) : List Nat := (x.accs.filter (fun c => !isPureLoad c.kind && !isArrival c.kind)).map (·.id)

/-- MFENCE: the open batch closes and takes the next number (R168). -/
def execSmfence (d : BitVec 6) (flag : BitVec 4) (ck : Bool) (ctr : BitVec 5) (s : State) : Result :=
  scalarDo s (fun s =>
    if ck && !s.cblk.ctrSet.getLsbD ctr.toNat then s.trap { vec := 1, cause := 9 }
    else
      let s0 := if ck then endEligible s s.cw.blk else s
      let x := s0.cw
      let no := x.arch.batch + 1
      let b : Batch := { no := no, members := x.openBatch, flag := flag, ck := ck, ctr := ctr, writes := if ck then openWrites x else [],
                         id := x.nextId, done := false }
      let a := { x.arch.setS d.toNat no with batch := no, flags := clearFlag x.arch.flags flag }
      openSample ((s0.noteClear flag).setCw { x with arch := a, openBatch := [], batches := x.batches ++ [b], nextId := x.nextId + 1 }) s.cur.w)

/-- MWAIT: waits until batch min(sa, last closed) is complete (R169). -/
def execSmwait (a : BitVec 6) (s : State) : Result :=
  scalarDo s (fun s =>
    let n := min (s.sreg a.toNat).toNat s.arch.batch.toNat
    if s.unit.passed || s.cw.batches.all (fun b => b.done || decide (n < b.no.toNat)) then s else s.hold (.mwait n))

end Sys2Proof.Machine
end

