-- ==== Sys2Proof/Machine/Collect.lean ====
section
/-! DEFINITION. Giving tokens up (R250, R273), and collecting every token of a sector in one act by an agent that writes on
the module's own behalf: engines, the hub, the launch unit, the harts (R221, R236, R264, R274). -/

namespace Sys2Proof.Machine

/-! ### TLB shootdown (R250) -/

/-- Drop every translation of an ashlar that was built from a sector; none while an access in flight uses one. -/
def shootdown (s : State) (ashlar sec : Nat) : Option State :=
  let l2 := Sparse.get [] s.tlb2 ashlar
  let hit (e : TlbEntry) : Bool := e.sectors.contains sec
  if l2.any (fun e => hit e && tlbPageBusy s ashlar e) then none
  else
    let s1 := dropCopies s ashlar hit
    some { s1 with tlb2 := Sparse.set [] s1.tlb2 ashlar (l2.filter (fun e => !hit e)) }

/-- The watch of the launch unit: a donation that watches the sector's line ends (R241, R273). -/
def endWatch (s : State) (sec : Nat) : State :=
  { s with donations := s.donations.map (fun d => if d.watched.contains sec then { d with isOver := true } else d) }

/-- A hart whose cache loses the sector loses a reservation on it. -/
def loseReservation (s : State) (h sec : Nat) : State :=
  if (s.hart h).reserved = some sec then s.setHart h { s.hart h with reserved := none } else s

/-- A core's name cache drops the live results of a name-table sector (R262). -/
def dropResults (s : State) (core sec : Nat) : State :=
  let k := s.core core
  if k.names.any (fun n => !n.gone && n.sector == sec) then
    s.setCore core { k with names := k.names.filter (fun n => n.gone || n.sector != sec) }
  else s

/-- A line that leaves an L2 has no read count when it is fetched again (R122). -/
def endCount (s : State) (core line : Nat) : State :=
  let k := s.core core
  if k.counted.any (fun e => e.1 == line) then s.setCore core { k with counted := k.counted.filter (fun e => e.1 != line) } else s

/-- What an agent's loss of its tokens of a sector brings about: monitors trigger, read counts end, cached names and translations drop,
the donation watch fires (R122, R134, R250, R262, R273). None while it must wait. -/
def loseTokens (s : State) (agent : BitVec 13) (sec : Nat) : Option State :=
  let n := agentLocal agent
  if n < 96 then some (endCount (dropResults (triggerMonitors s n sec) n sec) n (sec / 2))
  else if 144 ≤ n ∧ n < 152 then shootdown s (n - 144) sec
  else if 152 ≤ n ∧ n < 216 then some (loseReservation s (n - 152) sec)
  else if n = 221 then some (endWatch s sec)
  else some s

/-! ### Collecting -/

/-- The agents of this module that hold tokens of a sector. -/
def holders (s : State) (sec : Nat) : List (BitVec 13) :=
  let home := homeAgent s.sys (sectorBase sec)
  (if isHomeOf s home sec && decide (0 < (holding s home sec).tokens) then [home] else [])
    ++ (s.tok.held.filter (fun e => e.1 % 2 ^ 46 == sec)).map (fun e => BitVec.ofNat 13 (e.1 / 2 ^ 46))

/-- Two holdings joined: data comes from the one that holds it. -/
def joinHolding (a b : Holding) : Holding :=
  let src := if b.owner || (b.valid && !a.valid) then b else a
  { tokens := a.tokens + b.tokens, owner := a.owner || b.owner, dirty := (a.owner && a.dirty) || (b.owner && b.dirty),
    valid := a.valid || b.valid, poison := src.poison, data := src.data }

/-- Move everything `src` holds of a sector to `agent`. -/
def moveTokens (s : State) (agent sec' : Nat) (src : BitVec 13) : Option State :=
  let a := BitVec.ofNat 13 agent
  if src = a then some s
  else
    match loseTokens s src sec' with
    | none => none
    | some t =>
      let h := holding t src sec'
      let mine := holding t a sec'
      some (setHolding (setHolding t src sec' {}) a sec' (joinHolding mine h))

/-- Take every token of a sector of this module at once; none when a pin, a census, an active persistent request of another
agent, the agent's own pending one, a message in flight or a translation in use stops it. -/
def collectAll (s : State) (agent : BitVec 13) (sec : Nat) : Option State :=
  if s.tok.pins.any (fun p => p.sector == sec && p.agent != agent) || blockedFor s agent sec || isPending s agent sec
      || s.tok.flights.any (fun f => f.msg.sector == sec) then none
  else
    let t := (holders s sec).foldl (fun (o : Option State) h => match o with
      | some t => moveTokens t agent.toNat sec h
      | none => none) (some s)
    match t with
    | some t => if (holding t agent sec).tokens = 2048 then some t else none
    | none => none

/-- Bytes written at a domain address with all tokens collected by an agent; the bytes stay within one sector. -/
def agentWrite (s : State) (agent : BitVec 13) (da : Nat) (bs : List Byte) : Option State :=
  (collectAll s agent (da / 64)).map (fun t => writeHeld t agent (da / 64) [(da % 64, bs)])

/-- Bytes read at a domain address under one token; the bytes stay within one sector. -/
def agentRead (s : State) (agent : BitVec 13) (da n : Nat) : Option (List Byte × Bool × State) :=
  (grabToken s agent (da / 64)).map (fun t =>
    let h := holding t agent (da / 64)
    (sectorBytes h.data (da % 64) n, h.poison, t))

/-- A hub write of the module's own: the sector's home collects and writes, as for a posted write (R274). -/
def hubWrite (s : State) (da : Nat) (bs : List Byte) : Option State := agentWrite s (homeAgent s.sys (da / 64 * 64)) da bs

/-! ### Scalar reads at issue (R114, R149, R150, R178) -/

/-- The bytes of a sector as the issuing unit sees them: its own earlier stores are forwarded (R197). -/
def forwardAll (x : Warp) (v : IUnit) (da : Nat) (bs : List Byte) : List Byte :=
  let mine := (unitAccesses x v).filter (fun e => e.stage == .waiting && isPureStore e.kind && e.bank.isNone)
  let parts := mine.flatMap (·.parts)
  (List.range bs.length).map (fun k =>
    parts.foldl (fun b q => if q.addr ≤ da + k ∧ da + k < q.addr + q.size then (q.data[da + k - q.addr]?).getD b else b)
      ((bs[k]?).getD 0))

/-- A scalar slot has read a sector. -/
def noteSector (s : State) (r : SectorRead) : State := { s with cur := { s.cur with reads := r :: s.cur.reads } }

/-- The data and poison of a sector that a scalar slot reads: as it has read it before it waited, under a token of the core's L2, whose
L1 drops the line (R197), or from the home of a read-only-shared page (R280), which sends it where the home is another module's;
nothing while it must wait. -/
def scalarSector (s : State) (sec : Nat) (ros : Bool) : Option (SectorData × Bool) × State :=
  let agent := coreAgent s s.cw.core
  let take (t : State) (d : SectorData) (p : Bool) : Option (SectorData × Bool) × State := (some (d, p), noteSector t ⟨sec, d, p, ros⟩)
  match s.unit.latch.find? (fun r => r.sec == sec) with
  | some r => take s r.data r.poison
  | none =>
    if ros then
      if isHomeOf s (homeAgent s.sys (sectorBase sec)) sec then
        match rosRead s s.cw.cls sec (0, false) with
        | (some e, t) => take t e.1 e.2
        | (none, t) => (none, t)
      else (none, s)
    else if satisfied s agent sec false then
      take (s.setCore s.cw.core (l1Drop (s.core s.cw.core) (sec / 2))) (holding s agent sec).data (holding s agent sec).poison
    else (none, startRequest s agent sec false s.cw.cls)

/-- The scalar slot waits, and keeps what it has read: each read is performed once, as soon as its token is there (R275). -/
def waitRead (s : State) : State := (s.setUnit (fun v => { v with latch := s.cur.reads })).hold .walk

/-- The slot's reads of ordinary lines counted, each line once (R122). -/
def countLines (s : State) : State :=
  (((s.cur.reads.filter (fun r => !r.ros)).map (fun r => r.sec / 2)).eraseDups).foldl (fun t l => countRead t t.cw.core l none)
    { s with cur := { s.cur with reads := [] } }

/-- Read `n` bytes within one sector at a placed address: the core's token is taken or waited for; poison traps with
cause 5. -/
def readPlaced (s : State) (va da n : Nat) (ros : Bool) (go : List Byte → State → State) : State :=
  match scalarSector s (da / 64) ros with
  | (none, t) => waitRead t
  | (some (d, poison), t) =>
    if poison then (noteConsumed t t.cw (da / 64) t.cur.lanes).trap { vec := 2, cause := 5, faddr := va / 64 * 64 }
    else
      let bs := sectorBytes d (da % 64) n
      go (if ros then bs else forwardAll s.cw s.unit da bs) t

/-- A scalar-slot read of `n` bytes aligned to `n`, with the checks of R114. -/
def readScalar (s : State) (va n : Nat) (go : List Byte → State → State) : State :=
  let placed := placeGlobal s .load n (scalarPiece va n)
  onVerdict placed.2 false placed.1 (fun t =>
    match placed.1 with
    | [(_, .ok da ros)] => readPlaced t va da n ros go
    | _ => t)

/-- A scalar-slot address that is to be stored to, aligned to `n`: the checks of R114, then its domain address. -/
def checkStore (s : State) (va n : Nat) (go : Nat → State → State) : State :=
  let placed := placeGlobal s .store n (scalarPiece va n)
  onVerdict placed.2 true placed.1 (fun t =>
    match placed.1 with
    | [(_, .ok da _)] => go da t
    | _ => t)

end Sys2Proof.Machine
end

