-- ==== Sys2Proof/Machine/Answer.lean ====
section
/-! DEFINITION. How a holder answers token requests and gives way to persistent ones (R272 to R274, R278), and what follows
tokens that arrive (R275, R319). -/

namespace Sys2Proof.Machine

/-! ### Accesses that may be performed at once (R275) -/

/-- A MONARM waits for the line of the sector, and its core now holds a token of each sector of it. -/
def armReady (s : State) (x : Warp) (sec : Nat) : Bool :=
  !x.ended && !x.stopped && (s.block x.blk).status == .resident && (openLoads x).isEmpty
    && x.arch.units.any (fun v => v.hold == .walk && v.arms == some (sec / 2)
      && (lineSectors (sec / 2)).all (fun k => satisfied s (coreAgent s x.core) k false))

/-- A core's access to a sector needs nothing more: later messages cannot undo it. -/
def coreAccessReady (s : State) (core sec : Nat) : Bool :=
  s.warps.any (fun w => w.2.core == core && (armReady s w.2 sec || w.2.accs.any (fun c =>
    c.stage == .waiting && c.bank.isNone && !isPosted c.kind
      && c.parts.any (fun p => p.addr / 64 == sec && !p.ros)
      && satisfied s (coreAgent s core) sec (isEffect c.kind)
      && mayPerform w.2 c ((partsAt c sec).filter (fun p => !p.ros)))))

/-- A census or a recreation of the sector is under way: the writes that wait at its home are not performed until it ends
(R327). -/
def censusHolds (s : State) (sec : Nat) : Bool := s.tok.census.any (fun c => c.sector == sec && c.phase != .deferred)

/-- A home's posted or host write waits for nothing but its turn. -/
def homeWriteReady (s : State) (sec : Nat) : Bool :=
  satisfied s (homeAgent s.sys (sectorBase sec)) sec true && !censusHolds s sec
    && (s.tok.posted.any (fun p => p.write.sector == sec)
        || (match s.tok.host with
            | r :: _ => r.sector == sec
            | [] => false))

/-- An access of the agent to the sector is satisfied and is performed before the agent gives tokens away. -/
def accessReady (s : State) (agent : BitVec 13) (sec : Nat) : Bool :=
  let n := agentLocal agent
  if isHomeOf s agent sec then homeWriteReady s sec
  else decide (n < 96) && coreAccessReady s n sec

/-! ### Answers (R272, R274) -/

/-- The agent answers requests of others for the sector: no persistent request is active, and no census holds it. -/
def canAnswer (s : State) (agent : BitVec 13) (sec : Nat) : Bool :=
  let a := actState s agent sec
  !a.frozen && a.winner.isNone

/-- All the tokens a holder has of a sector go to `dst`: TKD with the owner, else TOK. None while the surrender must wait
(R250, R273). -/
def giveAll (s : State) (src dst : BitVec 13) (sec : Nat) (reqid : BitVec 16) (tc : BitVec 2) : Option State :=
  let h := holding s src sec
  if h.tokens = 0 ∨ src = dst then some s
  else (loseTokens s src sec).map (fun t => sendTokens t src dst sec (if h.owner then 4 else 3) h.tokens h.owner h.owner reqid tc)

/-- The answer to RDS: the owner's holder sends one non-owner token with data, or the owner when it has nothing else. -/
def answerShared (s : State) (src : BitVec 13) (m : Msg) : Option State :=
  let h := holding s src m.sector
  if !h.owner then some s
  else if 2 ≤ h.tokens then some (sendTokens s src m.src m.sector 4 1 false true m.reqid m.tc)
  else giveAll s src m.src m.sector m.reqid m.tc

/-- The answer to RDX: every token. -/
def answerExclusive (s : State) (src : BitVec 13) (m : Msg) : Option State := giveAll s src m.src m.sector m.reqid m.tc

/-- The answer to a transient request. -/
def answer (s : State) (src : BitVec 13) (m : Msg) : Option State :=
  if !canAnswer s src m.sector then some s
  else if m.type = 1 then answerShared s src m else answerExclusive s src m

/-- An engine that pins a sector keeps a request for the release (R273). -/
def holdAtPin (s : State) (agent : BitVec 13) (m : Msg) : State :=
  { s with tok := { s.tok with pins := s.tok.pins.map (fun p =>
      if p.agent == agent && p.sector == m.sector then { p with waiting := p.waiting ++ [m] } else p) } }

/-- What an agent holds goes to the active winner of the sector, unless a census or a pin holds it (R278). -/
def applyWinner (s : State) (agent : BitVec 13) (sec : Nat) : Option State :=
  let a := actState s agent sec
  match a.winner with
  | some x => if a.frozen || pins s agent sec then some s else giveAll s agent x sec a.reqid a.tc
  | none => some s

/-- The requests a released pin held: the persistent one first, then in arrival order (R273). -/
def answerHeld (s : State) (agent : BitVec 13) (sec : Nat) (held : List Msg) : State :=
  let s1 := (applyWinner s agent sec).getD s
  (held.filter (fun m => m.type.toNat ≤ 2)).foldl (fun t m => (answer t agent m).getD t) s1

/-! ### Persistent requests at the home (R276 to R278) -/

/-- Send a message to every agent of the coherence domain but the home that sends it. -/
def broadcast (s : State) (home : BitVec 13) (m : Msg) : State :=
  let m' := { m with dst := 0x1FFF }
  let s1 := { s with tok := { s.tok with flights := s.tok.flights ++ [⟨m', (ownAgents s).filter (· != home), false, false⟩] } }
  (otherModules s).foldl (fun t k => linkSend t (Config.linkTo k % 24) (.token m')) s1

/-- The stage of an agent's request for a sector changed. -/
def setStage (s : State) (agent : BitVec 13) (sec : Nat) (reqid : BitVec 16) (stage : PersistStage) : State :=
  { s with tok := { s.tok with reqs := s.tok.reqs.map (fun r =>
      if r.agent == agent && r.sector == sec && r.reqid == reqid then { r with stage := stage } else r) } }

/-- Activate a persistent request: the next activation number, PAC to every agent, the home's tokens to the winner. -/
def activate (s : State) (sec : Nat) (p : PersistReq) (queue : List PersistReq) : State :=
  let home := homeAgent s.sys (sectorBase sec)
  let n := Sparse.get 0 s.tok.actNo sec + 1
  let e : PersistEntry := { sector := sec, winner := p, act := n, since := s.now, queue := queue, noted := false }
  let s1 := { s with tok := { s.tok with actNo := Sparse.set 0 s.tok.actNo sec n, persist := s.tok.persist ++ [e] } }
  let s2 := setAct s1 home sec { actState s1 home sec with last := some n, winner := some p.agent, reqid := p.reqid, tc := p.tc }
  let s3 := broadcast s2 home { plainMsg 0x12 sec p.agent 0 p.reqid p.tc with count := n }
  if p.agent = home then setStage s3 home sec p.reqid .active else (applyWinner s3 home sec).getD s3

/-- A request ranks before another: lower class, then lower agent number. -/
def ranksBefore (a b : PersistReq) : Bool :=
  decide (a.tc < b.tc) || (a.tc == b.tc && decide (a.agent < b.agent))

/-- The best of a queue. -/
def bestOf : List PersistReq → Option PersistReq
  | [] => none
  | p :: ps => match bestOf ps with
    | none => some p
    | some q => if ranksBefore q p then some q else some p

/-- The request to activate next: the first that has been passed over 8 times, else the best (R277). -/
def nextOf (q : List PersistReq) : Option PersistReq :=
  match q.find? (fun p => decide (8 ≤ p.passed)) with
  | some p => some p
  | none => bestOf q

/-- The active request of a sector has ended: PDA to every agent, and the next one is activated at once. -/
def endActive (s : State) (sec : Nat) : State :=
  let home := homeAgent s.sys (sectorBase sec)
  match s.tok.persist.find? (fun e => e.sector == sec) with
  | none => s
  | some e =>
    let s1 := { s with tok := { s.tok with persist := s.tok.persist.filter (fun x => x.sector != sec) } }
    let s2 := setAct s1 home sec { actState s1 home sec with last := some e.act, winner := none }
    let s3 := broadcast s2 home { plainMsg 0x13 sec e.winner.agent 0 e.winner.reqid e.winner.tc with count := e.act }
    match nextOf e.queue with
    | none => s3
    | some p => activate s3 sec p ((e.queue.erase p).map (fun q => { q with passed := q.passed + 1 }))

/-- Active entries of the home of a sector. -/
def persistCount (s : State) (sec : Nat) : Nat :=
  s.tok.persist.countP (fun e => homeAgent s.sys (sectorBase e.sector) == homeAgent s.sys (sectorBase sec))

/-- A persistent request reaches its home: activated, or queued; none while the table or the queue is full (R276). The
flag says that it is queued. -/
def takePersist (s : State) (sec : Nat) (p : PersistReq) : Option (State × Bool) :=
  match s.tok.persist.find? (fun e => e.sector == sec) with
  | some e =>
    if 16 ≤ e.queue.length then none
    else some ({ s with tok := { s.tok with persist := s.tok.persist.map (fun x =>
      if x.sector == sec then { x with queue := x.queue ++ [p] } else x) } }, true)
  | none => if 256 ≤ persistCount s sec then none else some (activate s sec p [], false)

/-! ### Satisfied requests (R275, R278) -/

/-- The waiting scalar slots of some warps go on. -/
def resumeUnits (s : State) (mine : Warp → Bool) : List Action :=
  s.warps.flatMap (fun e => if mine e.2 then
    ((List.range e.2.arch.units.length).filter (fun u => (e.2.unit u).hold == .walk)).map (fun u => .resume e.1 u) else [])

/-- The name operations of some askers take effect, the one handed over last first, so that the others keep their places. -/
def retryNames (s : State) (mine : NameAsker → Bool) : List Action :=
  ((List.range s.names.ops.length).reverse.filter (fun k => ((s.names.ops[k]?).map (fun o => mine o.asker)).getD false)).map
    (fun k => .event .nameOpComplete { k := k })

/-- The engine's commands that wait for tokens go on. -/
def retryCmds (s : State) (engine : Nat) : List Action :=
  (List.range s.cmds.length).filterMap (fun k =>
    match s.cmds[k]? with
    | none => none
    | some c =>
      if c.engine != engine then none
      else match c.stage with
        | .issued => some (.event .engineHandover { k := k, data := Config.freeSector s.free })
        | .running => some (if c.pos == c.segEnd then .event .engineSegmentStart { k := k } else .engineMove k (Config.freeSector s.free) false)
        | _ => none)

/-- The packets and round messages that have arrived are handled. -/
def retryArrivals (s : State) : List Action :=
  (List.range s.packets.length).reverse.map (fun k => .event .packetReceive { k := k })
    ++ (List.range s.roundMsgs.length).reverse.flatMap (fun k => [.event .prop { k := k }, .event .commit { k := k }])

/-- The graphs' nodes that may start or have ended, and the graphs that may end. -/
def retryNodes (s : State) : List Action :=
  s.graphs.flatMap (fun e =>
    ((List.range e.2.nodes.length).filter (fun n => ((e.2.nodes[n]?).map (fun v => v.ready && !v.running)).getD false)).map
        (fun n => .event .graphNodeStart { k := e.1, node := n })
      ++ (List.range (e.2.nodes.length + 1)).map (fun n => .event .graphNodeComplete { k := e.1, node := n }))

/-- What waits for the launch unit's reads and stores: FORK, `gx.launch`, kernel nodes, placements, grids that complete. -/
def retryLaunches (s : State) : List Action :=
  resumeUnits s (fun _ => true) ++ (s.harts.filter (fun e => e.2.launching)).map (fun e => .hart e.1) ++ retryNodes s
    ++ [.event .blockDispatch {}] ++ s.grids.map (fun e => .event .gridCompletion { k := e.1 })

/-- The actions by which the accesses of an agent that waited for a sector are performed: of a core's scalar slots and its warps' name
operations, an engine's commands and the packets that it writes, a TLB's walks, a hart, the walker, the launch unit, the hub at a home. A core's outstanding
accesses and a home's writes hold the tokens until they are performed (`accessReady`). -/
def retries (s : State) (agent : BitVec 13) : List Action :=
  let n := agentLocal agent
  if n < 96 then
    resumeUnits s (fun x => x.core == n) ++ retryNames s (fun a => match a with
      | .warp w _ _ => (s.warp w).core == n
      | .port _ | .hub => false)
  else if n < 144 ∨ 216 ≤ n ∧ n < 220 then retryCmds s n ++ retryArrivals s
  else if n < 152 then (s.tok.walks.filter (fun w => ashlarOf w.core == n - 144)).map .walk ++ retryArrivals s
  else if n < 216 then
    (match (s.hart (n - 152)).wait with
      | some op => [.event .hartMemoryAccess { hart := n - 152, hartOp := op }]
      | none => []) ++ (List.range (s.hart (n - 152)).buffer.length).map (.hartDrain (n - 152))
      ++ retryNames s (· == .port (n - 152))
  else if n = 220 then resumeUnits s (fun _ => true) ++ retryNodes s
  else if n = 221 then retryLaunches s
  else retryLaunches s ++ retryNames s (fun _ => true) ++ retryArrivals s

/-- The requests of an agent that a holding satisfies are over, and what waited for them is performed next, before any further
message; an active persistent one ends with PDQ (R278). -/
def settleRequests (s : State) (agent : BitVec 13) (sec : Nat) : State :=
  let isOver (r : TokenReq) : Bool :=
    r.agent == agent && r.sector == sec && (r.stage == .transient || r.stage == .active) && holdsEnough s agent sec r.write
  let done := s.tok.reqs.filter isOver
  let again := if done.isEmpty then [] else retries s agent
  let s0 := { s with tok := { s.tok with reqs := s.tok.reqs.filter (fun r => !isOver r) }, agenda := again ++ s.agenda,
                     free := if again.isEmpty then s.free else s.free + 1 }
  let s1 := fillWanted s0 agent sec
  let home := homeAgent s.sys (sectorBase sec)
  (done.filter (fun r => r.stage == .active)).foldl (fun t r =>
    if r.agent = home then endActive t sec
    else sendTo t (plainMsg 0x11 sec agent home r.reqid r.tc) false [home]) s1

/-- Settle an agent's requests; those of a home whose write is next end with that write. -/
def settleAt (s : State) (agent : BitVec 13) (sec : Nat) : State :=
  if isHomeOf s agent sec && homeWriteReady s sec then s else settleRequests s agent sec

/-! ### Tokens that arrive (R274, R319) -/

/-- Word 0 of a message's header (R270). -/
def headerWord0 (m : Msg) : W64 :=
  BitVec.ofNat 64 (m.dst.toNat * 2 ^ 41 + m.src.toNat * 2 ^ 28 + m.count.toNat * 2 ^ 16 + boolNat m.data.isSome * 2 ^ 15
    + m.tc.toNat * 2 ^ 13 + boolNat m.dirty * 2 ^ 12 + boolNat m.owner * 2 ^ 11 + m.serial.toNat * 2 ^ 8 + m.type.toNat)

/-- A message's tokens are of a serial that this agent no longer accepts (R319). -/
def isStale (s : State) (agent : BitVec 13) (m : Msg) : Bool :=
  s.tok.discard.any (fun d => d.agent == agent && d.sector == m.sector && d.serial == m.serial && decide (s.now < d.expiry))
    || (isHomeOf s agent m.sector && m.serial != serialOf s m.sector)

/-- The predictor learns who sent tokens (R275). -/
def learn (t : TokenState) (agent : BitVec 13) (sec : Nat) (src : BitVec 13) : TokenState :=
  let k := agent.toNat * 512 + sec / 64 % 512
  { t with predict := Sparse.set [] t.predict k ((src :: (Sparse.get [] t.predict k).filter (· != src)).take 4) }

/-- What a message carries, as a holding. -/
def carried (m : Msg) (poison : Bool) : Holding :=
  { tokens := m.count.toNat + boolNat m.owner, owner := m.owner, dirty := m.dirty, valid := m.data.isSome, poison := poison,
    data := m.data.getD 0 }

/-- The agent keeps the sector against eviction: a pin, a monitor, the donation watch, a satisfied access (R273). -/
def keptFromEviction (s : State) (agent : BitVec 13) (sec : Nat) : Bool :=
  let n := agentLocal agent
  pins s agent sec || (actState s agent sec).frozen || accessReady s agent sec
    || (decide (n < 96) && isWatched s n (sec / 2))
    || (n == 221 && s.donations.any (fun d => d.watched.contains sec))

/-- The agent returns its tokens of a sector to the home (R272), unless what it holds keeps them. -/
def evict (s : State) (agent : BitVec 13) (sec : Nat) : State :=
  if keptFromEviction s agent sec then s
  else match loseTokens s agent sec with
    | none => s
    | some t =>
      let n := agentLocal agent
      let t1 := if n < 96 then
          let k := t.core n
          t.setCore n { k with counted := k.counted.filter (fun e => e.1 != sec / 2) } else t
      returnTokens t1 agent sec

/-- The sectors of an L2: 2 MiB (R2). -/
def l2Sectors : Nat := 32768

/-- The sectors that a core's L2 holds. -/
def l2Held (s : State) (agent : BitVec 13) : List Nat :=
  (s.tok.held.filter (fun e => e.1 / 2 ^ 46 == agent.toNat && e.2.valid)).map (fun e => e.1 % 2 ^ 46)

/-- A core's L2 that holds more than its 2 MiB evicts a sector that nothing keeps, other than the one that came; which is not
stated. DESIGN CHOICE (log entry 91). -/
def trimL2 (s : State) (agent : BitVec 13) (sec : Nat) : State :=
  let mine := l2Held s agent
  if 96 ≤ agentLocal agent ∨ mine.length ≤ l2Sectors then s
  else
    let from_ := mine.filter (fun x => x != sec && !keptFromEviction s agent x)
    match from_[Config.victimOf s.free % max from_.length 1]? with
    | some x => evict { s with free := s.free + 1 } agent x
    | none => s

/-- Tokens reach an agent: discarded when stale, else added; sent on while another's request is active; requests they
satisfy are over. None while sending on must wait. -/
def acceptTokens (s : State) (m : Msg) (poison : Bool) (agent : BitVec 13) : Option State :=
  let sec := m.sector
  if isStale s agent m then
    some (recordEvent s 0x13 0 agent none (BitVec.ofNat 64 sec) (BitVec.ofNat 64 (m.count.toNat + boolNat m.owner)))
  else
    let s1 := setHolding s agent sec (joinHolding (holding s agent sec) (carried m poison))
    let t1 := learn s1.tok agent sec m.src
    let own := moduleOf s.sys (sectorBase sec) = s.sys.modid.toNat
    let s2 := { s1 with tok := if own then t1 else { t1 with serials := Sparse.set 0 t1.serials sec m.serial } }
    (applyWinner s2 agent sec).map (fun t => trimL2 (settleAt t agent sec) agent sec)

end Sys2Proof.Machine
end

