-- ==== Sys2Proof/Machine/Names.lean ====
section
/-! DEFINITION. Permanent names (R14, R178 to R180, R259 to R266): the table, the operations of warps and of the harts' name
ports. -/

namespace Sys2Proof.Machine

/-! ### The table (R259 to R261) -/

/-- The counter value of a name. -/
def nameCounter (n : BitVec 128) : Nat := n.toNat % 2 ^ 64

/-- The two buckets of a counter value. -/
def bucket0 (v : Nat) : Nat := bitsOf v 0 21
def bucket1 (v : Nat) : Nat := Nat.xor (Nat.xor (bitsOf v 0 21) (bitsOf v 21 21)) (bitsOf v 42 21)

/-- The entry keys of a counter value, in the order NNEW looks for a free one. -/
def nameKeys (v : Nat) : List Nat :=
  (List.range 8).map (8 * bucket0 v + ·) ++ (List.range 8).map (8 * bucket1 v + ·)

def nameEntry (s : State) (key : Nat) : NameEntry := Sparse.get {} s.names.table key

/-- The key of the entry that holds a counter value, live or tombstone. -/
def findEntry (s : State) (v : Nat) : Option Nat :=
  (nameKeys v).find? (fun k => (nameEntry s k).state != 0 && (nameEntry s k).counter.toNat == v)

/-- How a name resolves (R261). -/
inductive Resolved where
  | live (key : Nat)
  | gone
  | absent
deriving DecidableEq, Repr, Inhabited

def resolve (s : State) (n : BitVec 128) : Resolved :=
  let v := nameCounter n
  if n.toNat / 2 ^ 64 ≠ s.names.chip.toNat ∨ s.names.next.toNat ≤ v then .absent
  else
    match findEntry s v with
    | some k => if (nameEntry s k).state = 1 then .live k else .gone
    | none => .gone

/-- Drop cached results of an entry's sector: two entries share one (R262, R263). -/
def dropNames (s : State) (sector : Nat) : State :=
  let strip (c : Core) : Core := { c with names := c.names.filter (fun n => n.gone || n.sector != sector) }
  { s with cores := (s.cores.map (fun e => (e.1, strip e.2))).filter (fun e => e.2 != ({} : Core)) }

/-- An entry replaced, every cached copy of its sector dropped. -/
def setEntry (s : State) (key : Nat) (e : NameEntry) : State :=
  dropNames { s with names := { s.names with table := Sparse.set {} s.names.table key e } } (nameSector key)

/-- An entry written once its home has collected every token of its sector (R263, R269); none while it must wait. -/
def writeEntry (s : State) (key : Nat) (e : NameEntry) : Option State :=
  (collectAll s (homeAgent s.sys (sectorBase (nameSector key))) (nameSector key)).map (fun t => setEntry t key e)

/-- The acting context may use the name (R179): its partition is the creator's, or it is privileged. -/
def mayUse (s : State) (ctx : BitVec 12) (e : NameEntry) : Bool := isPrivileged s ctx || partOf s ctx == partOf s e.ctx

def bodyKind (w0 : W64) : Nat := bitsOf w0.toNat 56 8
def bodyBase (w0 : W64) : Nat := bitsOf w0.toNat 0 56
def bodyGen (w1 : W64) : Nat := bitsOf w1.toNat 48 16
def bodyRight (w1 : W64) (k : Nat) : Bool := bitOf w1.toNat (40 + k)
def bodySize (w1 : W64) : Nat := bitsOf w1.toNat 0 40

/-- A body's word 1 as an entry holds it: GEN replaced, RIGHTS bits 5 to 7 zero (R178). -/
def withGen (w1 : W64) (g : Nat) : W64 := BitVec.ofNat 64 (setBits (setBits w1.toNat 48 16 g) 45 3 0)

/-- A lookup as FORK, GWALK, EPKT and `gx.launch` make it (R179): the entry's key, or status 1 or 2. -/
def lookupFor (s : State) (ctx : BitVec 12) (n : BitVec 128) : Except Nat Nat :=
  match resolve s n with
  | .live k => if mayUse s ctx (nameEntry s k) then .ok k else .error 2
  | .gone => .error 1
  | .absent => .error 2

/-! ### Reclaim (R264) -/

/-- RECLAIM.EN. -/
def reclaimOn (s : State) : Bool := s.names.reclaim.getLsbD 0

/-- Where a reclaim record is written. -/
def reclaimAddr (s : State) : Nat := bitsOf s.names.reclaim.toNat 12 40 * 4096 + 32 * s.names.recHead.toNat

/-- Ask for every token of an entry's sector by its home. -/
def askEntry (s : State) (key : Nat) : State :=
  startRequest s (homeAgent s.sys (sectorBase (nameSector key))) (nameSector key) true 0

/-- Work of the hub's own that waits for tokens: counter value `v` (R263, R264). -/
def hubOp (s : State) (kind : NameOpKind) (v : W64) : State :=
  let o : NameOp := { asker := .hub, kind := kind, ctx := 0, name := v.setWidth 128, b0 := 0, b1 := 0, n0 := 0, n1 := 0, out := none, waitFlash := false }
  if s.names.ops.contains o && kind == .reclaim then s else { s with names := { s.names with ops := s.names.ops ++ [o] } }

/-- The entry is a drained tombstone whose record may be written: RECLAIM is on and the log has room (R264). -/
def mayReclaim (s : State) (key : Nat) : Bool :=
  let e := nameEntry s key
  e.state == 2 && e.holds == 0 && reclaimOn s && s.names.recHead + 1 != s.names.recTail

/-- The reclaim record of an entry. -/
def reclaimRecord (e : NameEntry) : List Byte := leSplit 8 e.counter.toNat ++ leSplit 8 e.ctx.toNat ++ leSplit 8 e.w0.toNat ++ leSplit 8 e.w1.toNat

/-- The record is written, then RECHEAD advances, then the entry is free; none while tokens are missing. -/
def reclaimNow (s : State) (key da : Nat) : Option State :=
  (hubWrite s da (reclaimRecord (nameEntry s key))).bind
    (fun t => writeEntry { t with names := { t.names with recHead := t.names.recHead + 1 } } key {})

/-- A drained tombstone has its record written and is freed, when the log has room (R264); the hub does so later where tokens are
missing now. -/
def reclaimEntry (s : State) (key : Nat) : State :=
  if mayReclaim s key then
    match domainAddr s.sys (reclaimAddr s) with
    | none => s
    | some da => (reclaimNow s key da).getD (hubOp s .reclaim (nameEntry s key).counter)
  else s

/-- Every drained tombstone reclaimed, as far as the log has room. -/
def reclaimAll (s : State) : State := (s.names.table.map (·.1)).foldl reclaimEntry s

/-- One hold released (R263); none while tokens are missing. -/
def releaseHold (s : State) (v : Nat) : Option State :=
  match findEntry s v with
  | none => some s
  | some k =>
    let e := nameEntry s k
    (writeEntry s k { e with holds := e.holds - 1 }).map (fun t => reclaimEntry t k)

/-- One hold released by the module, later where tokens are missing now. -/
def dropHold (s : State) (v : Nat) : State := (releaseHold s v).getD (hubOp s .drop (BitVec.ofNat 64 v))

/-- One hold taken on a live entry with fewer than 65,535 (R263); none while it must wait. -/
def takeHold (s : State) (key : Nat) : Option State :=
  let e := nameEntry s key
  if e.holds = 65535 then none else writeEntry s key { e with holds := e.holds + 1 }

/-! ### Issue (R178, R179) -/

/-- A name of 16 bytes. -/
def nameOf (bs : List Byte) : BitVec 128 := BitVec.ofNat 128 (leValue bs)

def word0 (bs : List Byte) : W64 := BitVec.ofNat 64 (leValue (bs.take 8))
def word1 (bs : List Byte) : W64 := BitVec.ofNat 64 (leValue ((bs.drop 8).take 8))

/-- The registers that an operation writes as it completes (R179), pending until then (R117): sd, and of a look also sd + 1 and
sd + 2, which R178 leaves unsaid. DEDUCED (log entry 112). -/
def nameDests (kind : NameOpKind) (sd : Nat) : List Nat :=
  match kind with
  | .look | .lookHold => [sd, sd + 1, sd + 2]
  | .release | .new | .delete | .cas | .drop | .reclaim => [sd]

/-- Hand a warp's operation over: what its slot has read is counted (R122), its destinations are pending, path nlk raised. -/
def pushNameOp (s0 : State) (kind : NameOpKind) (sd : BitVec 6) (name : BitVec 128) (body new : List Byte) (out high : Nat) : State :=
  let s := countLines s0
  let x := s.cw
  let op : NameOp := {
    asker := .warp s.cur.w x.nextId sd, kind := kind, ctx := x.ctx, name := name, b0 := word0 body, b1 := word1 body,
    n0 := word0 new, n1 := word1 new, out := some (out, high), waitFlash := false }
  let y := { x with arch := countOp x.arch s.cur.u x.nextId, nextId := x.nextId + 1, spend := x.spend ++ (nameDests kind sd.toNat).map (fun r => (r, x.nextId)),
                    paths := x.paths ++ [⟨5, x.nextId, [], false⟩] }
  { s.setCw y with names := { s.names with ops := s.names.ops ++ [op] } }

/-- A name instruction waits for the warp's loads (R303) and for room on its path. -/
def nameIssue (s : State) (go : State → State) : State :=
  if !(openLoads s.cw).isEmpty then s.hold .loads else pathRoom s 5 true go

/-- NLOOK in one of its three forms. -/
def nameLook (s : State) (kind : NameOpKind) (d a : BitVec 6) : Result :=
  scalarDo s (fun s => nameIssue s (fun s =>
    readScalar s (s.sreg a.toNat).toNat 16 (fun bs t =>
      let t1 := if kind == .look then t else endEligible t t.cw.blk
      pushNameOp t1 kind d (nameOf bs) [] [] 0 0)))

/-- NLOOK (R179). -/
def execSnlook (d a : BitVec 6) (s : State) : Result := nameLook s .look d a

/-- NLOOK that takes a hold (R179, R263). -/
def execSnlookHold (d a : BitVec 6) (s : State) : Result := nameLook s .lookHold d a

/-- NLOOK that releases a hold (R179, R263). -/
def execSnlookRelease (d a : BitVec 6) (s : State) : Result := nameLook s .release d a

/-- NNEW, NDEL and NCAS act between a release and an acquire at `.d` (R180); the acquire follows the operation's end. -/
def fencedName (s : State) (go : State → State) : Result :=
  scalarDo s (fun s =>
    let v := s.unit
    if !v.issued then
      if !v.fenced then s.hold (.fenceRel 3)
      else
        let t := nameIssue s go
        if t.cur.status == .ok then (t.setUnit (fun v => { v with issued := true, fenced := false })).hold .walk else t
    else if !v.fenced then s.hold (.fenceAcq 3)
    else s)

/-- A body of two 64-bit words, each read as a scalar access of its own (R178). -/
def readBody (s : State) (va : Nat) (go : List Byte → State → State) : State :=
  readScalar s va 8 (fun lo t => readScalar t ((va + 8) % 2 ^ 64) 8 (fun hi t => go (lo ++ hi) t))

/-- NNEW (R179). -/
def execSnnew (d a b : BitVec 6) (s : State) : Result :=
  fencedName s (fun s =>
    checkStore s (s.sreg a.toNat).toNat 16 (fun da t =>
      readBody t (t.sreg b.toNat).toNat (fun body t => pushNameOp t .new d 0 body [] da (da + 8))))

/-- NDEL (R179). -/
def execSndel (d a : BitVec 6) (s : State) : Result :=
  fencedName s (fun s => readScalar s (s.sreg a.toNat).toNat 16 (fun bs t => pushNameOp t .delete d (nameOf bs) [] [] 0 0))

/-- NCAS (R179): the expected body, then the new one, at sb. -/
def execSncas (d a b : BitVec 6) (s : State) : Result :=
  fencedName s (fun s =>
    readScalar s (s.sreg a.toNat).toNat 16 (fun bs t =>
      let vb := (t.sreg b.toNat).toNat
      readBody t vb (fun body t =>
        readBody t ((vb + 16) % 2 ^ 64) (fun new t =>
          checkStore t vb 8 (fun lo t => checkStore t ((vb + 8) % 2 ^ 64) 8 (fun hi t =>
            pushNameOp t .cas d (nameOf bs) body new lo hi))))))

/-! ### Completion -/

/-- What an operation answers: a status, the body words of a look, and a store it still makes. -/
structure NameAnswer where
  status : Nat
  body : Option (W64 × W64)
  store : Option (List Byte)
deriving DecidableEq, Repr, Inhabited

/-- The holds of an asker. -/
def askerHolds (s : State) (o : NameOp) : List W64 :=
  match o.asker with
  | .warp w _ _ => (s.warp w).holds
  | .port h => ((s.port h).holds.filter (fun e => e.1 == o.ctx)).map (·.2)
  | .hub => []

/-- An asker's holds gain or lose one. -/
def setAskerHold (s : State) (o : NameOp) (take : Bool) (v : W64) : State :=
  match o.asker with
  | .warp w _ _ =>
    let x := s.warp w
    s.setWarp w { x with holds := if take then x.holds ++ [v] else x.holds.erase v }
  | .port h =>
    let p := s.port h
    s.setPort h { p with holds := if take then p.holds ++ [(o.ctx, v)] else p.holds.erase (o.ctx, v) }
  | .hub => s

/-- A release at the table (R263): an asker without a hold on the name gets status 3. -/
def releaseOp (s : State) (o : NameOp) : Option (NameAnswer × State) :=
  let v : W64 := BitVec.ofNat 64 (nameCounter o.name)
  let allowed := match findEntry s v.toNat with
    | some k => mayUse s o.ctx (nameEntry s k)
    | none => true
  if o.name.toNat / 2 ^ 64 ≠ s.names.chip.toNat ∨ !(askerHolds s o).contains v ∨ !allowed then some (⟨3, none, none⟩, s)
  else (releaseHold (setAskerHold s o false v) v.toNat).map (fun t => (⟨0, none, none⟩, t))

/-- The asker may hold no more: a warp holds at most 16, an entry at most 65,535 (R179, R263). -/
def holdLimit (s : State) (o : NameOp) (e : NameEntry) : Bool :=
  e.holds == 65535 || (match o.asker with
    | .warp _ _ _ => decide (16 ≤ (askerHolds s o).length)
    | .port _ | .hub => false)

/-- A look with or without a hold at the table (R179, R261, R263); none while the hold waits for tokens. -/
def lookOp (s : State) (o : NameOp) : Option (NameAnswer × State) :=
  match resolve s o.name with
  | .absent => some (⟨2, none, none⟩, s)
  | .gone => some (⟨1, none, none⟩, s)
  | .live k =>
    let e := nameEntry s k
    if !mayUse s o.ctx e then some (⟨3, none, none⟩, s)
    else if o.kind == .lookHold then
      if holdLimit s o e then some (⟨4, none, none⟩, s)
      else (takeHold (setAskerHold s o true (BitVec.ofNat 64 (nameCounter o.name))) k).map (fun t => (⟨0, some (e.w0, e.w1), none⟩, t))
    else some (⟨0, some (e.w0, e.w1), none⟩, s)

/-- KIND is one that an entry may hold (R178). -/
def isKind (kind : Nat) : Bool := decide (1 ≤ kind) && decide (kind ≤ 7)

/-- The kinds an asker may create (R179, R266). -/
def mayCreate (s : State) (o : NameOp) : Bool :=
  let kind := bodyKind o.b0
  let device := kind == 2 || kind == 7
  match o.asker with
  | .warp _ _ _ => device
  | .port _ => device || (partOf s o.ctx == 0 && isKind kind)
  | .hub => false

/-- NNEW at the table (R259, R265). -/
def newOp (s : State) (o : NameOp) : Option (NameAnswer × State) :=
  if !mayCreate s o then some (⟨3, none, none⟩, s)
  else
    let v := s.names.next.toNat
    match (nameKeys v).find? (fun k => (nameEntry s k).state == 0) with
    | none => some (⟨4, none, none⟩, s)
    | some k =>
      let e : NameEntry := { counter := s.names.next, state := 1, ctx := o.ctx, holds := 0, w0 := o.b0, w1 := withGen o.b1 0 }
      (writeEntry { s with names := { s.names with next := s.names.next + 1 } } k e).map
        (fun t => (⟨0, none, some (leSplit 8 v ++ leSplit 8 s.names.chip.toNat)⟩, t))

/-- NDEL at the table (R179, R264). -/
def deleteOp (s : State) (o : NameOp) : Option (NameAnswer × State) :=
  match resolve s o.name with
  | .absent => some (⟨2, none, none⟩, s)
  | .gone => some (⟨1, none, none⟩, s)
  | .live k =>
    let e := nameEntry s k
    if !(isPrivileged s o.ctx || (mayUse s o.ctx e && bodyRight e.w1 3)) then some (⟨3, none, none⟩, s)
    else (writeEntry s k { e with state := 2 }).map (fun t => (⟨0, none, none⟩, reclaimEntry t k))

/-- NCAS at the table (R179, R263). A KIND that no entry may hold is not written: status 3. DESIGN CHOICE (log entry 92). -/
def casOp (s : State) (o : NameOp) : Option (NameAnswer × State) :=
  match resolve s o.name with
  | .absent => some (⟨2, none, none⟩, s)
  | .gone => some (⟨1, none, none⟩, s)
  | .live k =>
    let e := nameEntry s k
    if !(isPrivileged s o.ctx || (mayUse s o.ctx e && bodyRight e.w1 4)) then some (⟨3, none, none⟩, s)
    else if e.w0 = o.b0 ∧ e.w1 = o.b1 then
      if !isKind (bodyKind o.n0) then some (⟨3, none, none⟩, s)
      else (writeEntry s k { e with w0 := o.n0, w1 := withGen o.n1 (bodyGen o.b1 + 1) }).map (fun t => (⟨0, none, none⟩, t))
    else some (⟨5, none, some (leSplit 8 e.w0.toNat ++ leSplit 8 e.w1.toNat)⟩, s)

/-- The hub's own work: a hold released, or a tombstone reclaimed. -/
def ownOp (s : State) (o : NameOp) : Option (NameAnswer × State) :=
  let v := nameCounter o.name
  match o.kind, findEntry s v with
  | .drop, _ => (releaseHold s v).map (fun t => (⟨0, none, none⟩, t))
  | .reclaim, some k =>
    if !mayReclaim s k then some (⟨0, none, none⟩, s)
    else match domainAddr s.sys (reclaimAddr s) with
      | none => some (⟨0, none, none⟩, s)
      | some da => (reclaimNow s k da).map (fun t => (⟨0, none, none⟩, t))
  | _, _ => some (⟨0, none, none⟩, s)

/-- The operation at the table; none while it must wait for tokens. -/
def nameOpAt (s : State) (o : NameOp) : Option (NameAnswer × State) :=
  match o.kind with
  | .look | .lookHold => lookOp s o
  | .release => releaseOp s o
  | .new => newOp s o
  | .delete => deleteOp s o
  | .cas => casOp s o
  | .drop | .reclaim => ownOp s o

/-- A core's name cache no longer needs its token of a sector: it returns it unless another live result rests on it (R262). -/
def returnResult (s : State) (core sec : Nat) : State :=
  if (s.core core).names.any (fun n => !n.gone && n.sector == sec) then s else returnTokens s (coreAgent s core) sec

/-- A result enters a core's name cache; what was used longest ago leaves a full one (R262). -/
def keepResult (s : State) (core : Nat) (e : NameCacheEntry) : State :=
  let k := s.core core
  let all := e :: k.names.filter (fun n => n.counter != e.counter)
  let s1 := s.setCore core { k with names := all.take 256 }
  ((all.drop 256).filter (fun n => !n.gone)).foldl (fun t n => returnResult t core n.sector) s1

/-- A core's name cache keeps a look's result (R262): a live one under a read token of the entry's sector. -/
def cacheName (s : State) (o : NameOp) (a : NameAnswer) : State :=
  match o.asker with
  | .port _ | .hub => s
  | .warp w _ _ =>
    let c := (s.warp w).core
    let v : W64 := BitVec.ofNat 64 (nameCounter o.name)
    match a.status, a.body, findEntry s v.toNat with
    | 0, some b, some key =>
      match (grabToken s (coreAgent s c) (nameSector key)).map (fun t => trimL2 t (coreAgent s c) (nameSector key)) with
      | some t => keepResult t c ⟨v, false, (nameEntry s key).ctx, b.1, b.2, nameSector key⟩
      | none => s
    | 1, _, _ => keepResult s c ⟨v, true, 0, 0, 0, 0⟩
    | _, _, _ => s

/-- Deliver the answer: sd and, for a look, sd + 1 and sd + 2; or the port's registers. -/
def answerName (s : State) (o : NameOp) (a : NameAnswer) : State :=
  let st : W64 := BitVec.ofNat 64 (a.status * 2 ^ 56)
  match o.asker with
  | .warp w id sd =>
    let x := s.warp w
    let put (b : WarpArch) : WarpArch :=
      let b1 := b.setS sd.toNat st
      match o.kind, a.body with
      | .look, some v | .lookHold, some v => (b1.setS (sd.toNat + 1) v.1).setS (sd.toNat + 2) v.2
      | _, _ => b1
    let y := (x.updArch id put).finishPath id
    settleInsts (s.setWarp w { y with spend := y.spend.filter (fun p => p.2 != id) }) w
  | .port h =>
    let p := s.port h
    let p1 := { p with npst := st }
    s.setPort h (match a.body with
      | some v => { p1 with npw0 := v.1, npw1 := v.2 }
      | none => p1)
  | .hub => s

/-- NNEW would take the last value of its reservation, or stands behind one that does (R265). -/
def needsFlash (s : State) (o : NameOp) : Bool :=
  o.kind == .new && mayCreate s o && (s.names.flashBusy || decide (s.names.resEnd.toNat ≤ s.names.next.toNat + 1))

/-- Bytes stored by an agent that collects every token of their sector: a core's L2 as any store of the core does (R122, R134,
R200), or the hart's cache. -/
def askerWrite (s : State) (o : NameOp) (da : Nat) (bs : List Byte) : Option State :=
  match o.asker with
  | .warp w _ _ =>
    let c := (s.warp w).core
    (collectAll s (coreAgent s c) (da / 64)).map (fun t => trimL2 (coreWrite t c (da / 64) [(da % 64, bs)]) (coreAgent s c) (da / 64))
  | .port h => agentWrite s (ownAgent s.sys (152 + h % 64)) da bs
  | .hub => some s

/-- The two words that an operation stores, each in one act. -/
def storeWords (s : State) (o : NameOp) (bs : List Byte) : Option State :=
  match o.out with
  | none => some s
  | some a => (askerWrite s o a.1 (bs.take 8)).bind (fun t => askerWrite t o a.2 (bs.drop 8))

/-- A port's operands read from physical memory: the name at NPA, the bodies at NPB. -/
def portOperands (s : State) (o : NameOp) (p : NamePort) : NameOp :=
  let words (a n : Nat) : List Byte := (List.range n).flatMap (fun k => leSplit 8 (physWord s (a + 8 * k)))
  let body := words p.npb.toNat 4
  { o with name := nameOf (words p.npa.toNat 2), b0 := word0 body, b1 := word1 body, n0 := word0 (body.drop 16), n1 := word1 (body.drop 16),
           fetch := false }

/-- The sectors of a port's operands. -/
def operandSectors (s : State) (p : NamePort) : List Nat :=
  ((((List.range 2).map (fun k => p.npa.toNat + 8 * k) ++ (List.range 4).map (fun k => p.npb.toNat + 8 * k)).filterMap
    (domainAddr s.sys)).map (· / 64)).eraseDups

/-- The entry whose sector an operation writes at the table now. -/
def entryOf (s : State) (o : NameOp) : Option Nat :=
  match o.kind with
  | .look => none
  | .new => (nameKeys s.names.next.toNat).find? (fun k => (nameEntry s k).state == 0)
  | _ => findEntry s (nameCounter o.name)

/-- An operation that lacks tokens at the table asks for them (R275): the entry's home, and the home of the reclaim record. -/
def askTable (s : State) (o : NameOp) : State :=
  let t := match entryOf s o with
    | some k => askEntry s k
    | none => s
  match o.kind, domainAddr s.sys (reclaimAddr s) with
  | .reclaim, some da => startRequest t (homeAgent t.sys (da / 64 * 64)) (da / 64) true 0
  | _, _ => t

/-- The agent that stores for an operation, and its class. -/
def storerOf (s : State) (o : NameOp) : Option (BitVec 13 × BitVec 2) :=
  match o.asker with
  | .warp w _ _ => some (coreAgent s (s.warp w).core, (s.warp w).cls)
  | .port h => some (ownAgent s.sys (152 + h % 64), 0)
  | .hub => none

/-- An operation whose stores lack tokens asks for them. -/
def askStores (s : State) (o : NameOp) : State :=
  match o.out, storerOf s o with
  | some a, some (agent, cls) => ([a.1 / 64, a.2 / 64].eraseDups).foldl (fun t sec => startRequest t agent sec true cls) s
  | _, _ => s

/-- NAME_OP_COMPLETE for operation `k` with its operands: it takes effect at the table, with its store, and answers; where tokens are
missing it asks for them and waits. -/
def completeName (s : State) (k : Nat) (o : NameOp) : State :=
  if needsFlash s o then
    { s with names := { s.names with flashBusy := true, ops := setAt s.names.ops k { o with waitFlash := true } } }
  else
    match nameOpAt s o with
    | none => askTable s o
    | some (a, r) =>
      match (match a.store with
        | none => some r
        | some bs => storeWords r o bs) with
      | none => askStores s o
      | some t =>
        let t1 := { t with names := { t.names with ops := dropAt t.names.ops k } }
        answerName (cacheName t1 o a) o a

/-- NAME_OP_COMPLETE (R178): the k-th operation takes effect at the table and answers; a port's operands are read first. -/
def execNameOpComplete (s : State) : Result :=
  .next (match s.names.ops[s.ev.k]? with
    | none => s
    | some o =>
      if !o.fetch then completeName s s.ev.k o
      else
        match o.asker with
        | .port h =>
          let agent := ownAgent s.sys (152 + h % 64)
          let secs := operandSectors s (s.port h)
          if secs.all (canRead s agent) then
            { takeTokens s agent secs with names := { s.names with ops := setAt s.names.ops s.ev.k (portOperands s o (s.port h)) } }
          else secs.foldl (fun t sec => startRequest t agent sec false 0) s
        | _ => s)

/-- FLASH_WRITE_COMPLETE (R265): the next reservation stands in flash, or the write failed and the waiting NNEWs end with
status 4. -/
def execFlashWriteComplete (s : State) : Result :=
  .next (
    if !s.names.flashBusy then s
    else if s.ev.flag then
      let waiting := s.names.ops.filter (·.waitFlash)
      let s1 := { s with names := { s.names with flashBusy := false, ops := s.names.ops.filter (fun o => !o.waitFlash) } }
      waiting.foldl (fun t o => answerName t o ⟨4, none, none⟩) s1
    else
      let e := s.names.resEnd + BitVec.ofNat 64 (2 ^ 24)
      { s with names := { s.names with flashBusy := false, resEnd := e, flashEnd := e,
                                       ops := s.names.ops.map (fun o => { o with waitFlash := false }) } })

/-! ### The harts' name ports (R266) -/

/-- Start an operation of a hart's port: context and OP from NPCMD, the name at NPA and the bodies at NPB read from physical
memory. A write to a busy port is ignored. -/
def portOp (s : State) (kind : NameOpKind) : State :=
  let h := s.ev.hart
  let p := s.port h
  if bitsOf p.npst.toNat 56 8 = 255 then s
  else
    let out := domainAddr s.sys (if kind == .new then p.npa.toNat else p.npb.toNat)
    let o : NameOp := { asker := .port h, kind := kind, ctx := s.ev.ctx, name := 0, b0 := 0, b1 := 0, n0 := 0, n1 := 0,
                        out := out.map (fun a => (a, a + 8)), waitFlash := false, fetch := true }
    let agent := ownAgent s.sys (152 + h % 64)
    let ready := (operandSectors s p).all (canRead s agent)
    let s1 := (if ready then takeTokens s agent (operandSectors s p) else s).setPort h { p with npst := BitVec.ofNat 64 (255 * 2 ^ 56) }
    { s1 with names := { s1.names with ops := s1.names.ops ++ [if ready then portOperands s o p else o] } }

/-- A port operation while the module is in service. -/
def portEvent (s : State) (kind : NameOpKind) : Result := .next (if s.sys.span == .service then portOp s kind else s)

/-- NAME_PORT_LOOK (R266). -/
def execNamePortLook (s : State) : Result := portEvent s .look

/-- NAME_PORT_LOOK_HOLD (R266). -/
def execNamePortLookHold (s : State) : Result := portEvent s .lookHold

/-- NAME_PORT_RELEASE (R266). -/
def execNamePortRelease (s : State) : Result := portEvent s .release

/-- NAME_PORT_NEW (R266). -/
def execNamePortNew (s : State) : Result := portEvent s .new

/-- NAME_PORT_DELETE (R266). -/
def execNamePortDelete (s : State) : Result := portEvent s .delete

/-- NAME_PORT_CAS (R266). -/
def execNamePortCas (s : State) : Result := portEvent s .cas

end Sys2Proof.Machine
end

