-- ==== Sys2Proof/Machine/Engine.lean ====
section
/-! DEFINITION. The commands of the copy and block-transfer engines (R170 to R177, R216 to R220): issue, hand-over, segments,
the movement of bytes, completion, and the chunk counters and batches (R168, R170). -/

namespace Sys2Proof.Machine

/-! ### Which engine (R171, R268) -/

/-- The copy engine that serves a core. -/
def engineOf (core : Nat) : Nat := 96 + 6 * ashlarOf core + core % 12 / 2

/-- The engine's agent number. -/
def engineAgent (s : State) (engine : Nat) : BitVec 13 := ownAgent s.sys (engine % 512)

/-- The command is a step of a collective. -/
def CmdKind.isStep : CmdKind → Bool
  | .epkt _ _ => true
  | _ => false

/-- The destination is global memory and is pinned. -/
def CmdKind.toGlobal : CmdKind → Bool
  | .ecpy _ toSp _ => !toSp
  | .ered _ _ => true
  | .eblkGet => true
  | _ => false

/-- The source is a scratchpad. -/
def CmdKind.fromScratch : CmdKind → Bool
  | .ecpy fromSp _ _ => fromSp
  | .efill fromSp _ => fromSp
  | _ => false

/-! ### Issue (R171, R174 to R177) -/

/-- The writes of the issuing fragment that the hand-over awaits (R171). -/
def handoverWaits (s : State) : List Nat :=
  ((unitAccesses s.cw s.unit).filter (fun c => match c.kind with
    | .load | .loadFe | .arrive _ _ => false
    | _ => true)).map (·.id)

/-- The next place in the order of issue: after every command that is under way or has put bytes that no flush has followed. -/
def nextSeq (s : State) : Nat := (s.cmds.map (·.seq) ++ s.poolPend.map (·.1)).foldl max 0 + 1

/-- A new command of the issuing warp. -/
def newCmd (s : State) (o : EngOp) (kind : CmdKind) (engine : Nat) (x y : W64) (len : Nat) : Cmd :=
  { seq := nextSeq s, owner := .warp s.cur.w s.cw.nextId, engine := engine, core := s.cw.core, blk := s.cw.blk, ctx := s.cw.ctx, cls := s.cw.cls,
    kind := kind, x := x, y := y, len := len, sd := o.sd, cf := o.cf, stage := .issued, waits := handoverWaits s, pos := 0,
    segEnd := 0, pins := [], pages := [], buf := [], stop := none, parked := false, desc := [], comm := none, name := none,
    pair := none, round := none }

/-- Hand a command out: SD pending, path eng raised, its flag cleared (R171). -/
def pushCmd (s : State) (o : EngOp) (c : Cmd) (ends : Bool) : State :=
  pathRoom s 4 true (fun s =>
    let s1 := if ends then endEligible s s.cw.blk else s
    let x := s1.cw
    let a := countOp { x.arch with flags := clearFlag x.arch.flags o.cf } s1.cur.u x.nextId
    let y := { x with arch := a, nextId := x.nextId + 1, spend := x.spend ++ [(o.sd.toNat, x.nextId)],
                      paths := x.paths ++ [⟨4, x.nextId, [], false⟩] }
    { (s1.noteClear o.cf).setCw y with cmds := s1.cmds ++ [c] })

/-- An engine slot: nothing where the guard passes in no lane; it waits for the warp's loads (R303). -/
def engineSlot (s : State) (go : State → State) : Result :=
  .next (if s.cur.guard = 0 then s else if !(openLoads s.cw).isEmpty then s.hold .loads else go s)

/-- A range of scratchpad bytes in the cluster form, all valid (R112, R171). -/
def clusterRangeOk (s : State) (va len : Nat) : Bool :=
  decide (va + len ≤ 2 ^ 23) && (List.range 4).all (fun k =>
    let lo := max va (k * 2 ^ 21)
    let hi := min (va + len) ((k + 1) * 2 ^ 21)
    decide (hi ≤ lo) || (match clusterBlock s k with
      | some b => decide (hi - k * 2 ^ 21 ≤ (s.block b).spAlloc)
      | none => false))

/-- The operands that are no multiple of 4 or out of range (R171): memory trap, cause 1, with the first one. -/
def badOperand (vals : List (W64 × Bool)) (len unit : Nat) : Option Nat :=
  match vals.find? (fun v => v.2 && v.1.toNat % 4 != 0) with
  | some v => some v.1.toNat
  | none => if len = 0 ∨ 2 ^ 32 < len ∨ len % unit ≠ 0 then some len else none

/-- The checks of a command that moves bytes, then the command. The trap's FMASK is the lanes of the unit: R154 puts failing lanes
there, and an operand of the one command of an issue fails in no lane alone (DEDUCED, log entry 106). -/
def moveCmd (s : State) (o : EngOp) (kind : CmdKind) (engine : Nat) (x : Option W64) (toSp ends : Bool) (unit : Nat) : State :=
  let y := s.sreg o.y.toNat
  let len := (s.sreg o.z.toNat).toNat
  match badOperand [(y, true), (x.getD 0, x.isSome)] len unit with
  | some a => s.trap { vec := 2, cause := 1, faddr := a }
  | none =>
    if kind.fromScratch && !clusterRangeOk s y.toNat len then s.trap { vec := 2, cause := 2, faddr := y.toNat }
    else if toSp && !clusterRangeOk s (x.getD 0).toNat len then s.trap { vec := 2, cause := 2, faddr := (x.getD 0).toNat }
    else pushCmd s o (newCmd s o kind engine (x.getD 0) y len) ends

/-- The destination of a scratchpad command lies in the issuing block's own allocation. -/
def ownScratch (s : State) (va : Nat) : Bool := clusterBlock s (va / 2 ^ 21) == some s.cw.blk

/-- ECPY (R174). -/
def execVecpy (o : EngOp) (fromSp toSp : Bool) (fe : BitVec 2) (s : State) : Result :=
  engineSlot s (fun s =>
    let x := s.sreg o.x.toNat
    moveCmd s o (.ecpy fromSp toSp fe) (engineOf s.cw.core) (some x) toSp (!toSp || !ownScratch s x.toNat) 4)

/-- EFILL (R174). A FIFO outside the block's set raises the header error before the operands are looked at (DESIGN CHOICE, log entry
107). -/
def execVefill (o : EngOp) (fromSp : Bool) (fifo : BitVec 3) (s : State) : Result :=
  engineSlot s (fun s =>
    if !s.cblk.fifoSet.getLsbD fifo.toNat then s.trap { vec := 1, cause := 9 }
    else moveCmd s o (.efill fromSp fifo) (engineOf s.cw.core) none false false 32)

/-- ERED (R175). -/
def execVered (o : EngOp) (op type : BitVec 4) (s : State) : Result :=
  engineSlot s (fun s => moveCmd s o (.ered op type) (engineOf s.cw.core) (some (s.sreg o.x.toNat)) false true 4)

/-- EPKT (R176). A counter outside the block's set raises the header error before the descriptor's address is looked at (DESIGN CHOICE,
log entry 107). -/
def execVepkt (o : EngOp) (t : Bool) (ctr : BitVec 5) (s : State) : Result :=
  engineSlot s (fun s =>
    let y := s.sreg o.y.toNat
    if t && !s.cblk.ctrSet.getLsbD ctr.toNat then s.trap { vec := 1, cause := 9 }
    else if y.toNat % 64 ≠ 0 then s.trap { vec := 2, cause := 1, faddr := y.toNat }
    else pushCmd s o (newCmd s o (.epkt t ctr) (engineOf s.cw.core) (if t then s.sreg o.x.toNat else 0) y 0) true)

/-- The block-transfer engine of a command; which of the four is the hub's choice (R171). -/
def blockEngine (s : State) : Nat := 216 + Config.blockEngineOf s.cw.core % 4

/-- EBLK get (R177). -/
def execVeblkGet (o : EngOp) (s : State) : Result :=
  engineSlot s (fun s => moveCmd s o .eblkGet (blockEngine s) (some (s.sreg o.x.toNat)) false true 4)

/-- EBLK put (R177). -/
def execVeblkPut (o : EngOp) (s : State) : Result :=
  engineSlot s (fun s => moveCmd s o .eblkPut (blockEngine s) (some (s.sreg o.x.toNat)) false true 4)

/-- EBLK flush (R177). -/
def execVeblkFlush (o : EngOp) (s : State) : Result :=
  engineSlot s (fun s => pushCmd s o (newCmd s o .eblkFlush (blockEngine s) 0 0 0) false)

/-! ### The end of a command (R172, R173) -/

/-- Release sectors that a command pins: those it wrote whole are no longer poisoned (R301). -/
def releasePins (s : State) (c : Cmd) (lo hi : Nat) : State :=
  let agent := engineAgent s c.engine
  let whole (p : Nat × Nat) (sec : Nat) : Bool :=
    let va := p.1 + (sectorBase sec - p.2)
    decide (p.2 ≤ sectorBase sec) && decide (sectorBase sec < p.2 + 65536) && decide (lo ≤ va) && decide (va + 64 ≤ hi)
  let clear (t : State) (sec : Nat) : State :=
    let h := holding t agent sec
    if h.poison && c.pages.any (fun p => whole p sec) then setHolding t agent sec { h with poison := false } else t
  let s1 := match c.kind with
    | .ered _ _ => s
    | _ => c.pins.foldl clear s
  let mine (p : Pin) : Bool := p.agent == agent && c.pins.contains p.sector
  let s2 := { s1 with tok := { s1.tok with pins := s1.tok.pins.filter (fun p => !mine p) } }
  (s1.tok.pins.filter mine).foldl (fun t p => answerHeld t agent p.sector p.waiting) s2

/-- A command's place in the list taken. -/
def dropCmd (s : State) (k : Nat) : State := { s with cmds := dropAt s.cmds k }

def setCmd (s : State) (k : Nat) (c : Cmd) : State := { s with cmds := setAt s.cmds k c }

/-- The status word (R173). -/
def statusWord (st info : Nat) : W64 := BitVec.ofNat 64 (st * 2 ^ 56 + info % 2 ^ 56)

/-- Deliver a command's status: SD, its flag and path eng of the issuing warp; or the node's result. -/
def deliverStatus (s : State) (c : Cmd) (st : W64) : State :=
  match c.owner with
  | .warp w id =>
    match Sparse.find s.warps w with
    | none => s
    | some x =>
      let put (a : WarpArch) : WarpArch := { a.setS c.sd.toNat st with flags := setFlag a.flags c.cf }
      let y := (x.updArch id put).finishPath id
      settleInsts (s.setWarp w { y with spend := y.spend.filter (fun p => p.2 != id) }) w
  | .node g n =>
    match Sparse.find s.graphs g with
    | none => s
    | some gr => s.setGraph g { gr with nodes := modAt gr.nodes n (fun e => { e with result := some st }) }

/-! ### Chunk counters (R170) -/

/-- The step names a block's counter. -/
def onCounter (blk : Nat) (ctr : BitVec 5) (c : Cmd) : Bool :=
  c.blk == blk && c.kind == .epkt true ctr

/-- The command that arms a counter next: the first in issue order of those not yet started; none while another is armed, or while
that one has not been handed over (R170). -/
def nextToArm (s : State) (blk : Nat) (ctr : BitVec 5) : Option Nat :=
  let mine (c : Cmd) : Bool := onCounter blk ctr c && (c.stage == .issued || c.stage == .waitArm)
  let first := ((s.cmds.filter mine).map (·.seq)).foldl min (nextSeq s)
  indexOf (fun c => mine c && c.stage == .waitArm && c.seq == first) s.cmds

/-- A counter that is not armed is armed by the next command. -/
def armNext (s : State) (blk : Nat) (ctr : BitVec 5) : State :=
  let b := s.block blk
  let t := Sparse.get ({} : ChunkCtr) b.ctrs ctr.toNat
  if t.armed then s
  else match nextToArm s blk ctr with
    | none => s
    | some k =>
      let target : BitVec 16 := ((s.cmds[k]?).map (fun c => c.x.setWidth 16)).getD 0
      { s with cmds := modAt s.cmds k (fun c => { c with stage := .armed }) }.setBlock blk
        { b with ctrs := Sparse.set {} b.ctrs ctr.toNat { t with armed := true, target := target } }

/-- While the armed counter has reached its target: its step may start, and the next one arms it. -/
def fireCounter : Nat → State → Nat → BitVec 5 → State
  | 0, s, _, _ => s
  | n + 1, s, blk, ctr =>
    let s1 := armNext s blk ctr
    let b := s1.block blk
    let t := Sparse.get ({} : ChunkCtr) b.ctrs ctr.toNat
    if !t.armed || decide (t.count.toNat < t.target.toNat) then s1
    else
      let cmds1 := s1.cmds.map (fun c => if onCounter blk ctr c && c.stage == .armed then { c with stage := .queued } else c)
      let t1 : ChunkCtr := { armed := false, target := t.target, count := t.count - t.target }
      fireCounter n ({ s1 with cmds := cmds1 }.setBlock blk { b with ctrs := Sparse.set {} b.ctrs ctr.toNat t1 }) blk ctr

/-- A counter arms and fires as far as it can. -/
def runCounter (s : State) (blk : Nat) (ctr : BitVec 5) : State := fireCounter (s.cmds.length + 1) s blk ctr

/-- COUNT rises by one, up to 65,535 (R168, R170). -/
def bumpCounter (s : State) (blk : Nat) (ctr : BitVec 5) : State :=
  let b := s.block blk
  let t := Sparse.get ({} : ChunkCtr) b.ctrs ctr.toNat
  let t1 := { t with count := if t.count = 65535 then t.count else t.count + 1 }
  runCounter (s.setBlock blk { b with ctrs := Sparse.set {} b.ctrs ctr.toNat t1 }) blk ctr

/-- A step that has been placed: with T = 1 it arms its counter, or waits until those before it have started (R170, R176). -/
def armStep (s : State) (k : Nat) (c : Cmd) : State :=
  match c.kind with
  | .epkt true ctr => runCounter (setCmd s k { c with stage := .waitArm }) c.blk ctr
  | _ => setCmd s k { c with stage := .queued }

/-- What the end of a command means for its chunk counter: a step that reached local completion raises it (R220), and one that ended
before it armed lets the next one arm it. -/
def stepEnds (s : State) (c : Cmd) (st : Nat) : State :=
  match c.kind with
  | .epkt true ctr =>
    if (Sparse.find s.blocks c.blk).isNone then s
    else if st = 0 && (c.stage == .running || c.stage == .finishing) then bumpCounter s c.blk ctr
    else if c.stage == .issued then runCounter s c.blk ctr else s
  | _ => s

/-- The k-th command ends with a status: its pins, the room of its chunk and the hold on its communicator are released. -/
def endCmd (s : State) (k : Nat) (st info : Nat) : State :=
  match s.cmds[k]? with
  | none => s
  | some c =>
    let s1 := dropCmd (freeChunk (releasePins s c (c.x.toNat) (c.x.toNat + c.pos)) c) k
    let s2 := match c.name with
      | some v => dropHold s1 v.toNat
      | none => s1
    stepEnds (deliverStatus s2 c (statusWord st info)) c st

/-! ### Batches (R67, R168) -/

/-- The batch may complete: its members have, and every batch before it. -/
def batchReady (s : State) (w : Nat) (x : Warp) (b : Batch) : Bool :=
  let mq := (s.block x.blk).mq
  x.batches.all (fun e => decide (b.no ≤ e.no) || e.done)
    && b.members.all (fun i => !mq.any (fun m => m.warp == w && m.id == i)) && loadsReturned x b.id

/-- The batch completes: its members' flags go to NSTAT and its flag is set. Without CK it is gone. -/
def completeBatch (s : State) (w : Nat) (b : Batch) : State :=
  let x := s.warp w
  let mine := x.mflags.filter (fun e => b.members.contains e.1)
  let bits := mine.foldl (fun (v : W64) e => v ||| e.2) 0
  let put (a : WarpArch) : WarpArch := { a with nstat := a.nstat ||| bits, flags := setFlag a.flags b.flag }
  let y := { x.updArch b.id put with mflags := x.mflags.filter (fun e => !b.members.contains e.1) }
  let rest := if b.ck then y.batches.map (fun e => if e.no == b.no then { e with done := true } else e)
    else y.batches.filter (fun e => e.no != b.no)
  let s1 := s.setWarp w { y with batches := rest }
  { s1 with audit := s1.audit.map (fun e => if e.warp == w && e.batch == b.no then { e with complete := true } else e) }

/-- BATCH_COMPLETE (R168): the oldest batch that is not complete completes; a complete one with CK raises its counter once the
warp's earlier writes are performed or acknowledged. -/
def execBatchComplete (s : State) : Result :=
  .next (
    let w := s.ev.w
    let x := s.warp w
    match x.batches[s.ev.k]? with
    | none => s
    | some b =>
      if !b.done then (if batchReady s w x b then completeBatch s w b else s)
      else if x.accs.any (fun c => b.writes.contains c.id) then s
      else bumpCounter (s.setWarp w { x with batches := x.batches.filter (fun e => e.no != b.no) }) x.blk b.ctr)

end Sys2Proof.Machine
end

