-- ==== Sys2Proof/Machine/Packets.lean ====
section
/-! DEFINITION. Collectives at a module (R287 to R291): the channel table and communicator objects, packets and their
operation entries, chunk status words, and the messages of agreement rounds. -/

namespace Sys2Proof.Machine

/-! ### Communicators (R289) -/

/-- An object of the channel table: its physical base, the receiving context, and its word 0. -/
structure CommObject where
  base : Nat
  ctx : BitVec 12
  w0 : Nat
deriving DecidableEq, Repr, Inhabited

def commCid (w0 : Nat) : Nat := bitsOf w0 48 16
def commVersion (w0 : Nat) : Nat := bitsOf w0 16 32
def commMembers (w0 : Nat) : Nat := bitsOf w0 8 8

/-- The object of a channel pair. -/
def commOf (s : State) (pair : Nat) : Option CommObject :=
  let e := (Sparse.get 0 s.sys.channels pair).toNat
  if bitOf e 63 then
    let base := bitsOf e 12 40 * 4096
    some ⟨base, BitVec.ofNat 12 e, physWord s base⟩
  else none

/-- The agent by which the hub reads an object: the home of its word 0, or its own home where another module holds it. -/
def objectAgent (s : State) (sec : Nat) : BitVec 13 :=
  let home := homeAgent s.sys (sectorBase sec)
  if isOwnAgent s.sys home then home else ownAgent s.sys 520

/-- What needs the object of a channel pair goes on once its reader holds a token of its word 0, with valid data (R267). -/
def withObject (s : State) (pair : Nat) (go : State → State) : State :=
  let e := (Sparse.get 0 s.sys.channels pair).toNat
  match (if bitOf e 63 then domainAddr s.sys (bitsOf e 12 40 * 4096) else none) with
  | none => go s
  | some da =>
    match grabToken s (objectAgent s (da / 64)) (da / 64) with
    | some t => go t
    | none => startRequest s (objectAgent s (da / 64)) (da / 64) false 0

/-! ### Combining (R175) -/

/-- One element of `type` combined by OP. -/
def redElement (op type : BitVec 4) (old new : Nat) : Nat :=
  let f := fmtOf type
  match op.toNat with
  | 0 => (old + new) % 2 ^ typeBits type
  | 1 => atomicNew 1 (!isSignedCode type) 4 old new
  | 2 => atomicNew 2 (!isSignedCode type) 4 old new
  | 3 => (roundFlagged f false (fAdd (f.decode old) (f.decode new))).1
  | 4 => fMinMax f true old new
  | _ => fMinMax f false old new

/-- Bytes combined element by element. -/
def redBytes (op type : BitVec 4) (old new : List Byte) : List Byte :=
  let n := typeBits type / 8
  (List.range (new.length / n)).flatMap (fun k =>
    leSplit n (redElement op type (leValue ((old.drop (n * k)).take n)) (leValue ((new.drop (n * k)).take n))))

/-! ### Writing a chunk (R288, R291) -/

/-- A range cut at sector boundaries: offsets and lengths; `fuel` bounds their number. -/
def sectorCuts : Nat → Nat → Nat → Nat → List (Nat × Nat)
  | 0, _, _, _ => []
  | fuel + 1, va, off, n =>
    if n = 0 then []
    else
      let m := min n (64 - (va + off) % 64)
      (off, m) :: sectorCuts fuel va (off + m) (n - m)

/-- The sector pieces of a range. -/
def pieces (va n : Nat) : List (Nat × Nat) := sectorCuts (n / 64 + 2) va 0 n

/-- An agent that writes holds every token of the sectors, or asks for what it lacks; a sector that a command pins is waited for
(R172). -/
def takeSectors (s : State) (agent : BitVec 13) : List Nat → Bool × State
  | [] => (true, s)
  | sec :: rest =>
    if (pinnedBy s sec).isSome then (false, s)
    else if satisfied s agent sec true then takeSectors s agent rest
    else
      match collectAll s agent sec with
      | some t => takeSectors t agent rest
      | none => (false, startRequest s agent sec true 0)

/-- Bytes written at placed pieces: domain address, offset, length. -/
def putBytes (s : State) (agent : BitVec 13) (bs : List Byte) (ps : List (Nat × Nat × Nat)) : State :=
  ps.foldl (fun t e => writeHeld t agent (e.1 / 64) [(e.1 % 64, (bs.drop e.2.1).take e.2.2)]) s

/-- The part of placed pieces that holds the `n` bytes from offset `lo`, by offset from `lo`. -/
def piecesAt (ps : List (Nat × Nat × Nat)) (lo n : Nat) : List (Nat × Nat × Nat) :=
  ps.filterMap (fun e =>
    let a := max e.2.1 lo
    let b := min (e.2.1 + e.2.2) (lo + n)
    if a < b then some (e.1 + (a - e.2.1), a - lo, b - a) else none)

/-- Element `k` of a chunk combined with the destination, wherever sector boundaries cut it. -/
def redAt (s : State) (agent : BitVec 13) (p : Packet) (ps : List (Nat × Nat × Nat)) (k : Nat) : State :=
  let n := typeBits p.type / 8
  let at_ := piecesAt ps (n * k) n
  let old := at_.flatMap (fun e => sectorBytes (holding s agent (e.1 / 64)).data (e.1 % 64) e.2.2)
  putBytes s agent (redBytes p.op p.type old ((p.payload.drop (n * k)).take n)) at_

/-- The bytes of a chunk written, or its elements combined in increasing address order, at placed pieces (R288). An element that the
pieces do not hold whole stays as it is. -/
def putChunk (s : State) (agent : BitVec 13) (p : Packet) (red : Bool) (ps : List (Nat × Nat × Nat)) : State :=
  if red then (List.range ((ps.map (·.2.2)).sum / (typeBits p.type / 8))).foldl (fun t k => redAt t agent p ps k) s
  else putBytes s agent p.payload ps

/-- A chunk's status word after an entry (R291). -/
def chunkStatus (s : State) (o : CommObject) (p : Packet) (red final : Bool) (old : Nat) : Nat :=
  let members := commMembers o.w0
  let contrib := if red then Nat.lor (if bitsOf old 8 2 = 0 then 2 ^ s.sys.modid.toNat else bitsOf old 0 8) p.contrib.toNat else p.contrib.toNat
  let state := if (!red && final) || contrib = members then 2 else 1
  p.version.toNat * 2 ^ 32 + state * 256 + contrib

/-- Write a chunk and update its status word; none while tokens are missing. -/
def landChunk (s : State) (agent : BitVec 13) (o : CommObject) (p : Packet) (red final : Bool) (ps : List (Nat × Nat × Nat)) :
    Bool × State :=
  let pa := o.base + 0x1000 + 8 * p.chix.toNat
  match domainAddr s.sys pa with
  | none => (true, s)
  | some da =>
    let r := takeSectors s agent ((ps.map (fun e => e.1 / 64)).eraseDups)
    if !r.1 then (false, r.2)
    else
      let t := putChunk r.2 agent p red ps
      match hubWrite t da (leSplit 8 (chunkStatus t o p red final (coherentWord t da))) with
      | some u => (true, u)
      | none => (false, startRequest r.2 (homeAgent s.sys (da / 64 * 64)) (da / 64) true 0)

/-! ### Entries (R286) -/

def entryAct (e : Nat) : Nat := bitsOf e 13 3
def entryLink (e : Nat) : Nat := bitsOf e 8 5
def entryFinal (e : Nat) : Bool := bitOf e 7
def entryMod (e : Nat) : Nat := bitsOf e 4 3

/-- The packet with its next entry popped. -/
def popEntry (p : Packet) : Packet := { p with ops := p.ops >>> 16, nrem := p.nrem - 1 }

/-- The engine that writes a chunk received here: of the ashlar that homes DSTC (R288). -/
def receiver (s : State) (p : Packet) (da : Nat) : Nat :=
  let h := homeIndex s.sys da
  96 + 6 * (if h < 8 then h else p.cid.toNat % 8) + p.cid.toNat % 6

/-- A discarded packet is recorded (R288, R325). -/
def discardPacket (s : State) (p : Packet) : State :=
  recordEvent s 0x15 1 (Config.recordSource 0x15) none p.dstc p.dstc

/-- The channel pair of a packet. -/
def packetPair (p : Packet) : Nat := p.cid.toNat % 16

/-- A link input's buffer for one channel pair: 1 MiB (R289). -/
def pairBuffer : Nat := 2 ^ 20

/-- The next hop's buffer for the packet's pair has room for the whole chunk, or the link is not trained (R289). -/
def hopRoom (s : State) (link pair bytes : Nat) : Bool :=
  !(s.link link).trained || decide (Sparse.get 0 (s.link link).used pair + bytes ≤ pairBuffer)

/-- Room at the next hop's buffer taken (R289). -/
def takeRoom (s : State) (link pair bytes : Nat) : State :=
  let k := s.link link
  s.setLink link { k with used := Sparse.set 0 k.used pair (Sparse.get 0 k.used pair + bytes) }

/-- Send a packet on whose room at the next hop is taken: a link that is not trained discards it. -/
def sendOn (s : State) (link : Nat) (p : Packet) (owner : Option CmdOwner) : State :=
  if (s.link link).trained then linkSend s link (.packet p owner) else discardPacket s p

/-- Send a packet on, its room at the next hop taken: a link that is not trained discards it. -/
def forwardPacket (s : State) (link : Nat) (p : Packet) (owner : Option CmdOwner) : State :=
  if (s.link link).trained then sendOn (takeRoom s link (packetPair p) p.payload.length) link p owner else discardPacket s p

/-- Bytes that packets take in one link input's buffer for a pair. -/
def inputUsed (s : State) (link pair : Nat) : Nat :=
  ((s.packets.filter (fun e => e.1 == link && packetPair e.2 == pair)).map (fun e => e.2.payload.length)).sum

/-- A packet arrives over a link; the link layer refuses it while its pair's buffer has no room. -/
def arrivePacket (s : State) (link : Nat) (p : Packet) : State :=
  if inputUsed s link (packetPair p) + p.payload.length ≤ pairBuffer then { s with packets := s.packets ++ [(link, p)] } else s

/-- The object that a packet's entry may act on at this module. -/
def packetObject (s : State) (p : Packet) : Option CommObject :=
  match commOf s (p.cid.toNat % 16) with
  | none => none
  | some o => if entryMod (p.ops.toNat % 65536) = s.sys.modid.toNat ∧ commCid o.w0 = p.cid.toNat ∧ commVersion o.w0 = p.version.toNat then some o else none

/-- The pieces of a destination with their domain addresses; none when a byte has no translation with W. -/
def placeChunk (s : State) (ctx : BitVec 12) (va n : Nat) : Option (List (Nat × Nat × Nat)) :=
  (pieces va n).foldr (fun e o =>
    match o, translatePure s ctx ((va + e.1) % 2 ^ 64) .store with
    | some l, .ok da _ => some ((da, e.1, e.2) :: l)
    | _, _ => none) (some [])

/-- The sectors of the tables that place a packet's destination at a receiving module. -/
def chunkTables (s : State) (ctx : BitVec 12) (va n : Nat) : List Nat :=
  ((pieces va n).flatMap (fun e => walkSectors s ctx ((va + e.1) % 2 ^ 64))).eraseDups

/-- The agent that walks for an arriving packet: the TLB of the ashlar whose engine the packet names. The walk is kept in no TLB.
DESIGN CHOICE (log entry 111). -/
def hopAgent (s : State) (p : Packet) : BitVec 13 := tlbAgent s (p.cid.toNat % 8)

/-- An arriving packet at this module: whether it is dealt with, and the state after. -/
def receivePacket (s : State) (p : Packet) : Bool × State :=
  match packetObject s p with
  | none => (true, discardPacket s p)
  | some o =>
    let e := p.ops.toNat % 65536
    let rest := popEntry p
    match entryAct e with
    | 0 => if hopRoom s (entryLink e) (packetPair p) p.payload.length then (true, forwardPacket s (entryLink e) rest none) else (false, s)
    | 1 | 2 | 3 =>
      if entryAct e == 3 && !hopRoom s (entryLink e) (packetPair p) p.payload.length then (false, s)
      else
        let w := readUnderTokens s (hopAgent s p) (chunkTables s o.ctx p.dstc.toNat p.payload.length)
        if !w.1 then w
        else match placeChunk w.2 o.ctx p.dstc.toNat p.payload.length with
        | none => (true, discardPacket w.2 p)
        | some ps =>
          let agent := ownAgent s.sys (receiver s p ((ps.head?).map (·.1) |>.getD 0))
          let r := landChunk w.2 agent o p (entryAct e == 2) (entryFinal e) ps
          if r.1 && entryAct e == 3 then (true, forwardPacket r.2 (entryLink e) rest none) else r
    | _ => (true, discardPacket s p)

/-- Two packets concern one chunk. -/
def sameChunk (p q : Packet) : Bool := p.cid == q.cid && p.chix == q.chix

/-- PACKET_RECEIVE (R288): the k-th packet of the link inputs is handled; those on one chunk in arrival order. -/
def execPacketReceive (s : State) : Result :=
  .next (match s.packets[s.ev.k]? with
    | none => s
    | some (_, p) =>
      if s.sys.span != .service || (s.packets.take s.ev.k).any (fun e => sameChunk p e.2) then s
      else
        withObject s (packetPair p) (fun t =>
          let r := receivePacket t p
          if r.1 then { r.2 with packets := dropAt r.2.packets s.ev.k } else r.2))

/-! ### Agreement rounds (R290) -/

/-- The types of round messages: 0 PROP, 1 ACK, 2 NAK, 3 RELEASE, 4 COMMIT, 5 DONE. -/
def sendRound (s : State) (type : BitVec 3) (m : RoundMsg) : State :=
  if m.dst = s.sys.modid then { s with roundMsgs := s.roundMsgs ++ [(type, m)] }
  else linkSend s (Config.linkTo m.dst.toNat % 24) (.round type m)

/-- A message to every module of a mask. -/
def sendRounds (s : State) (type : BitVec 3) (pair : BitVec 4) (version : BitVec 32) (mask : BitVec 8) (dsts : BitVec 8) : State :=
  ((List.range 8).filter (fun k => dsts.getLsbD k)).foldl
    (fun t k => sendRound t type ⟨s.sys.modid, BitVec.ofNat 3 k, pair, version, mask⟩) s

/-- The message an event names, removed from the inputs. -/
def takeRound (s : State) (type : BitVec 3) (go : RoundMsg → State → State) : Result :=
  .next (match s.roundMsgs[s.ev.k]? with
    | none => s
    | some (t, m) => if t = type ∧ s.sys.span = .service then go m { s with roundMsgs := dropAt s.roundMsgs s.ev.k } else s)

/-- The reply to a message. -/
def replyRound (s : State) (type : BitVec 3) (m : RoundMsg) (dst : BitVec 3) : State :=
  sendRound s type ⟨s.sys.modid, dst, m.pair, m.version, m.mask⟩

def heldFor (s : State) (pair : BitVec 4) (version : BitVec 32) : Option HeldRound :=
  s.rounds.find? (fun r => r.pair == pair && r.version == version)

def setHeldRound (s : State) (r : HeldRound) : State :=
  { s with rounds := r :: s.rounds.filter (fun e => !(e.pair == r.pair && e.version == r.version)) }

/-- No packet of a pair and version that this module sent waits in its own links, and no step that has started has more to send. -/
def ownPacketsGone (s : State) (pair : BitVec 4) (version : BitVec 32) : Bool :=
  let mine (x : LinkItem) : Bool := match x with
    | .packet p _ => p.srcmod == s.sys.modid && p.cid.toNat % 16 == pair.toNat && p.version == version
    | _ => false
  s.links.all (fun e => !(e.2.queue ++ e.2.replay).any mine)
    && s.packets.all (fun e => !(e.2.srcmod == s.sys.modid && packetPair e.2 == pair.toNat && e.2.version == version))
    && s.cmds.all (fun c => !(c.pair == some pair && c.round.isNone && (c.stage == .running || decide (0 < c.pos)) && BitVec.ofNat 32 (leValue ((c.desc.drop 16).take 4)) == version))

/-- PROP at a receiver (R290). The round is noted at the first look; ACK goes out at a look with `ev.flag`, when every packet of
the version that this module sent has been written at its last hop. -/
def propAt (s : State) (m : RoundMsg) : State :=
  let back := { s with roundMsgs := s.roundMsgs ++ [(0, m)] }
  match commOf s m.pair.toNat with
  | none => replyRound s 2 m m.src
  | some o =>
    if commVersion o.w0 ≠ m.version.toNat then replyRound s 2 m m.src
    else
      let r : HeldRound := ⟨m.pair, m.version, m.src, m.mask, false⟩
      match heldFor s m.pair m.version with
      | none => setHeldRound back r
      | some h =>
        if h.proposer = m.src then
          (if s.ev.flag && ownPacketsGone s m.pair m.version then replyRound (setHeldRound s { h with acked := true }) 1 m m.src else back)
        else if h.proposer.toNat < m.src.toNat then replyRound s 2 m m.src
        else
          let other (e : BitVec 3 × RoundMsg) : Bool :=
            e.1 == 0 && e.2.src == h.proposer && e.2.pair == m.pair && e.2.version == m.version
          let s1 := replyRound { back with roundMsgs := back.roundMsgs.filter (fun e => !other e) } 2 m h.proposer
          setHeldRound s1 r

/-- PROP (R290). -/
def execProp (s : State) : Result := takeRound s 0 (fun m t =>
  withObject { t with roundMsgs := t.roundMsgs ++ [(0, m)] } m.pair.toNat (fun u => propAt { u with roundMsgs := t.roundMsgs } m))

/-- The round in progress that a reply answers. -/
def roundCmd (s : State) (m : RoundMsg) : Option (Nat × Cmd × Round) :=
  match indexOf (fun (c : Cmd) => match c.round with
    | some r => r.pair == m.pair && r.version == m.version
    | none => false) s.cmds with
  | none => none
  | some k =>
    match s.cmds[k]? with
    | some c => c.round.map (fun r => (k, c, r))
    | none => none

def moduleBit (m : BitVec 3) : BitVec 8 := BitVec.ofNat 8 (2 ^ m.toNat)

/-- ACK at the proposer: with the last one it commits (R290). -/
def execAck (s : State) : Result :=
  takeRound s 1 (fun m s =>
    match roundCmd s m with
    | none => s
    | some (k, c, r) =>
      let r1 := { r with waitAck := r.waitAck &&& ~~~(moduleBit m.src) }
      let s1 := setCmd s k { c with round := some r1 }
      if r.waitAck ≠ 0 ∧ r1.waitAck = 0 then sendRounds s1 4 r.pair r.version r.mask r.waitDone else s1)

/-- NAK at the proposer: before it has committed it releases everyone and the step ends with status 3 (R290). -/
def execNak (s : State) : Result :=
  takeRound s 2 (fun m s =>
    match roundCmd s m with
    | none => s
    | some (k, _, r) =>
      if r.waitAck = 0 then s else endCmd (sendRounds s 3 r.pair r.version r.mask r.waitDone) k 3 0)

/-- RELEASE at a receiver: its held steps go on (R290). -/
def execRelease (s : State) : Result :=
  takeRound s 3 (fun m s =>
    { s with rounds := s.rounds.filter (fun r => !(r.pair == m.pair && r.version == m.version && r.proposer == m.src)),
             roundMsgs := s.roundMsgs.filter (fun e => !(e.1 == 0 && e.2.src == m.src && e.2.pair == m.pair && e.2.version == m.version)) })

/-- COMMIT at a receiver: VERSION and MEMBERS are written, held steps go on, DONE is answered (R290). The message carries the old
version; the new one is its successor. -/
def commitAt (s : State) (m : RoundMsg) : State :=
  let back := { s with roundMsgs := s.roundMsgs ++ [(4, m)] }
  match commOf s m.pair.toNat with
  | none => replyRound s 5 m m.src
  | some o =>
    let w := setBits (setBits o.w0 16 32 (m.version.toNat + 1)) 8 8 m.mask.toNat
    match domainAddr s.sys o.base with
    | none => replyRound s 5 m m.src
    | some da =>
      match hubWrite s da (leSplit 8 w) with
      | none => startRequest back (homeAgent s.sys (da / 64 * 64)) (da / 64) true 0
      | some t =>
        replyRound { t with rounds := t.rounds.filter (fun r => !(r.pair == m.pair && r.version == m.version)) } 5 m m.src

/-- COMMIT (R290). -/
def execCommit (s : State) : Result := takeRound s 4 (fun m t =>
  withObject { t with roundMsgs := t.roundMsgs ++ [(4, m)] } m.pair.toNat (fun u => commitAt { u with roundMsgs := t.roundMsgs } m))

/-- DONE at the proposer: with the last one the step ends with status 0 (R290). -/
def execDone (s : State) : Result :=
  takeRound s 5 (fun m s =>
    match roundCmd s m with
    | none => s
    | some (k, c, r) =>
      let r1 := { r with waitDone := r.waitDone &&& ~~~(moduleBit m.src) }
      if r1.waitDone = 0 then endCmd s k 0 0 else setCmd s k { c with round := some r1 })

end Sys2Proof.Machine
end

