-- ==== Sys2Proof/Machine/Segments.lean ====
section
/-! DEFINITION. How an engine carries its commands out (R171, R172, R176, R218 to R220, R286, R292, R293): hand-over, the choice at
a boundary, the start of a segment, the pieces it moves, and completion. -/

namespace Sys2Proof.Machine

/-! ### Reading a source (R172, R219, R305) -/

/-- What a read of a source comes to. -/
inductive SourceRead where
  | bytes (bs : List Byte)
  | wait
  /-- Check 5: the command parks. -/
  | park (va : Nat)
  /-- A failure, with the address of the failing byte. -/
  | fail (va : Nat)
deriving DecidableEq, Repr, Inhabited

/-- What a sector's data and poison give a read of `n` bytes at a virtual address that leads to `da`. -/
def sourceBytes (va da n : Nat) (v : SectorData × Bool) : SourceRead :=
  if v.2 then .fail (va / 64 * 64) else .bytes (sectorBytes v.1 (da % 64) n)

/-- Bytes of global memory within one sector, read by an engine under one token. A sector that another command of the engine pins is
waited for (R217). -/
def readGlobal (s : State) (c : Cmd) (va n : Nat) : SourceRead × State :=
  let r := translate s c.core c.cls c.ctx va .load
  match r.1 with
  | .wait => (.wait, r.2)
  | .fail 5 => (.park va, r.2)
  | .fail _ => (.fail va, r.2)
  | .ok da true =>
    match rosRead r.2 c.cls (da / 64) (s.ev.data, s.ev.flag) with
    | (some v, t) => (sourceBytes va da n v, t)
    | (none, t) => (.wait, t)
  | .ok da false =>
    let agent := engineAgent r.2 c.engine
    if pins r.2 agent (da / 64) && !c.pins.contains (da / 64) then (.wait, r.2)
    else if satisfied r.2 agent (da / 64) false then
      let h := holding r.2 agent (da / 64)
      (sourceBytes va da n (h.data, h.poison), r.2)
    else (.wait, startRequest r.2 agent (da / 64) false c.cls)

/-- The block and offset of a cluster address of a command. -/
def cmdScratch (s : State) (c : Cmd) (va : Nat) : Nat × Nat :=
  ((((s.block c.blk).cluster[va / 2 ^ 21]?).getD c.blk), va % 2 ^ 21)

/-- A byte of pool memory as a context reads it: its own puts, and those that a flush has followed (R177). -/
def poolByte (s : State) (ctx : BitVec 12) (a : Nat) : Byte :=
  (s.poolPend.filter (fun e => e.2.1 == ctx && e.2.2.1 == a)).foldl (fun _ e => e.2.2.2) (Sparse.get 0 s.pool a)

/-- At most `n` source bytes of a command from offset `off`, within one sector of its source. -/
def readSource (s : State) (c : Cmd) (off n : Nat) : SourceRead × State :=
  let va := c.y.toNat + off
  let m := min n (64 - va % 64)
  if c.kind.fromScratch then
    let b := cmdScratch s c va
    (.bytes (spRead s b.1 b.2 m), s)
  else if c.kind == .eblkGet then
    (.bytes ((List.range m).map (fun k => poolByte s c.ctx ((s.block c.blk).poolBase + va + k))), s)
  else readGlobal s c (va % 2 ^ 64) m

/-- A command parks on check 5 (R172, R253). Its destination is translated again when it goes on (R250). -/
def parkCmd (s : State) (k : Nat) (c : Cmd) (va : Nat) (write : Bool) : State :=
  setCmd (recordFault s c.core c.ctx va write true) k
    { c with parked := true, pages := [], segEnd := if c.kind.toGlobal then c.pos else c.segEnd }

/-! ### Hand-over (R171, R176, R217) -/

/-- The k-th command stands at the end of the list, in the order of hand-over. -/
def requeue (s : State) (k : Nat) (c : Cmd) : State := { s with cmds := dropAt s.cmds k ++ [c] }

/-- An earlier command of the same owner has not been handed over. -/
def behindEarlier (s : State) (k : Nat) (c : Cmd) : Bool :=
  (s.cmds.take k).any (fun e => e.stage == .issued && (match e.owner, c.owner with
    | .warp w _, .warp w' _ => w == w'
    | _, _ => false))

/-- Every write that a command's hand-over awaits is performed or acknowledged. -/
def writesDone (s : State) (c : Cmd) : Bool :=
  match c.owner with
  | .warp w id => (s.warp w).accs.all (fun a => !c.waits.contains a.id) && loadsReturned (s.warp w) id
  | .node _ _ => true

/-- The body of a communicator that a step names, with a hold taken (R176, R179). -/
def holdComm (s : State) (k : Nat) (c : Cmd) : State :=
  let name := BitVec.ofNat 128 (leValue (c.desc.take 16))
  match lookupFor s c.ctx name with
  | .error st => endCmd s k st 0
  | .ok key =>
    if bodyKind (nameEntry s key).w0 ≠ 4 then endCmd s k 6 0
    else match takeHold s key with
      | none => askEntry s key
      | some t => setCmd t k { c with name := some (BitVec.ofNat 64 (nameCounter name)) }

/-- The engine reads word 0 of the object that a step names, as a source (R172, R176), and goes on. The address is translated anew at
each read, so that no translation outlives it (R250). -/
def withComm (s : State) (k : Nat) (c : Cmd) (go : State → Nat → State) : State :=
  let base := match (c.name.bind (fun v => findEntry s v.toNat)) with
    | some key => bodyBase (nameEntry s key).w0
    | none => 0
  let r := readGlobal s c base 8
  match r.1 with
  | .wait => r.2
  | .park va => parkCmd r.2 k c va false
  | .fail va => endCmd r.2 k 4 va
  | .bytes bs => go r.2 (leValue bs)

/-- The object's word 0 gives the step its pair: it joins that queue (R176, R293). -/
def placeStep (s : State) (k : Nat) (c : Cmd) : State :=
  withComm s k c (fun s w0 =>
    let c1 := { c with comm := some w0, pair := some (BitVec.ofNat 4 (commCid w0)), len := leValue ((c.desc.drop 20).take 4) }
    let t := requeue s k c1
    armStep t (t.cmds.length - 1) c1)

/-- ENGINE_HANDOVER (R171): the k-th command goes to its engine once the earlier writes of its fragment are performed or
acknowledged. A step reads its descriptor, holds its communicator and joins the queue of its pair. -/
def execEngineHandover (s : State) : Result :=
  .next (match s.cmds[s.ev.k]? with
    | none => s
    | some c =>
      if c.stage != .issued || c.parked || behindEarlier s s.ev.k c || !writesDone s c then s
      else if !c.kind.isStep then requeue s s.ev.k { c with stage := .queued }
      else if c.desc.isEmpty then
        let r := readGlobal s c c.y.toNat 64
        match r.1 with
        | .wait => r.2
        | .park va => parkCmd r.2 s.ev.k c va false
        | .fail va => endCmd r.2 s.ev.k 4 va
        | .bytes bs => setCmd r.2 s.ev.k { c with desc := bs }
      else if c.name.isNone then holdComm s s.ev.k c
      else placeStep s s.ev.k c)

/-! ### The checks of a step (R176, R286, R290) -/

def descField (c : Cmd) (off n : Nat) : Nat := leValue ((c.desc.drop off).take n)

def stepVersion (c : Cmd) : Nat := descField c 16 4
def stepControl (c : Cmd) : Nat := descField c 56 8
def stepEntry (c : Cmd) (i : Nat) : Nat := descField c (40 + 2 * i) 2
def stepDst (c : Cmd) : Nat := descField c 32 8
def stepSrc (c : Cmd) : Nat := descField c 24 8
def stepAgree (c : Cmd) : Bool := bitOf (stepControl c) 36
def stepChunk (c : Cmd) : Nat := 2 ^ (12 + bitsOf (stepControl c) 12 4)

/-- Offsets of malformed fields of entry `i` of `n`. -/
def badEntry (s : State) (c : Cmd) (n i : Nat) : List Nat :=
  let e := stepEntry c i
  let act := entryAct e
  let last := decide (i + 1 = n)
  let writes := act == 1 || act == 2
  let low := e % 16 != 0 || (i == 0 && entryMod e != s.sys.modid.toNat) || (entryFinal e && (act == 0 || act == 2))
  let high := decide (3 < act) || writes != last || (if writes then entryLink e != 31 else decide (23 < entryLink e))
    || (i == 0 && (act == 0 || act == 3) && !(s.link (entryLink e)).trained)
  (if low then [40 + 2 * i] else []) ++ (if high then [41 + 2 * i] else [])

/-- The offset of the first malformed field of a step that is no agreement round (R286). -/
def badStep (s : State) (c : Cmd) : List Nat :=
  let ctl := stepControl c
  let n := ctl % 16
  let op : BitVec 4 := BitVec.ofNat 4 (ctl / 16)
  let type : BitVec 4 := BitVec.ofNat 4 (ctl / 256)
  let entries := if n = 0 ∨ 8 < n then [] else List.range n
  let chunks := (c.len + stepChunk c - 1) / stepChunk c
  let bits := typeBits type
  (if c.len = 0 ∨ c.len % 4 ≠ 0 ∨ (bits ≠ 0 ∧ 8 * c.len % bits ≠ 0) ∨ (bitsOf ctl 12 4 < 9 ∧ 4095 < bitsOf ctl 16 12 + chunks - 1) then [20] else [])
    ++ (if stepDst c = 0 ∧ entries.any (fun i => let a := entryAct (stepEntry c i); a == 1 || a == 2 || a == 3) then [32] else [])
    ++ entries.flatMap (badEntry s c n)
    ++ (if entries.isEmpty ∨ !redTypeOk op type then [56] else [])
    ++ (if 8 < bitsOf ctl 12 4 then [57] else [])
    ++ (if bitsOf ctl 37 3 ≠ 0 then [60] else []) ++ (if bitsOf ctl 48 16 ≠ 0 then [62] else [])

/-- The same for an agreement round (R290). -/
def badAgree (s : State) (c : Cmd) : List Nat :=
  let ctl := stepControl c
  (if c.len ≠ 4 then [20] else []) ++ (if stepDst c ≠ 0 then [32] else [])
    ++ (List.range 16).filterMap (fun k => if descField c (40 + k) 1 ≠ 0 then some (40 + k) else none)
    ++ (if bitsOf ctl 0 8 ≠ 0 then [56] else []) ++ (if bitsOf ctl 8 8 ≠ 0 then [57] else [])
    ++ (if bitsOf ctl 16 12 ≠ 0 then [58] else []) ++ (if bitsOf ctl 28 8 ≠ 0 then [59] else [])
    ++ (if bitsOf ctl 37 3 ≠ 0 then [60] else []) ++ (if !bitOf (bitsOf ctl 40 8) s.sys.modid.toNat then [61] else [])
    ++ (if bitsOf ctl 48 16 ≠ 0 then [62] else [])

/-- The engine begins a step's next chunk: the buffer room at the next hop that made it ready is taken at once, so that it waits on
none once chosen (R289, R293). -/
def startChunk (s : State) (k : Nat) (c : Cmd) : State :=
  let n := min (stepChunk c) (c.len - c.pos)
  let e := stepEntry c 0
  let c1 := { c with stage := .running, segEnd := c.pos + n }
  if (entryAct e == 0 || entryAct e == 3) && (s.link (entryLink e)).trained then
    setCmd (takeRoom s (entryLink e) (c.pair.getD 0).toNat n) k { c1 with room := some (entryLink e, n) }
  else setCmd s k c1

/-- A step that its engine has chosen: its checks, then its first chunk or its round (R176, R290). -/
def startStep (s : State) (k : Nat) (c : Cmd) : State :=
  match (if stepAgree c then badAgree s c else badStep s c) with
  | off :: rest => endCmd s k 4 (c.y.toNat + rest.foldl min off)
  | [] =>
    withComm s k c (fun s w0 =>
      if commVersion w0 ≠ stepVersion c then endCmd s k 3 0
      else if stepAgree c then
        let mask : BitVec 8 := BitVec.ofNat 8 (bitsOf (stepControl c) 40 8)
        let all : BitVec 8 := BitVec.ofNat 8 (commMembers w0) ||| mask
        let r : Round := { pair := c.pair.getD 0, version := BitVec.ofNat 32 (stepVersion c), mask := mask, waitAck := all, waitDone := all }
        sendRounds (setCmd s k { c with stage := .finishing, round := some r }) 0 r.pair r.version mask all
      else startChunk s k { c with comm := some w0 })

/-! ### The choice at a boundary (R293) -/

/-- An EFILL that its block's pre-emption has stopped: it goes on after the restore (R174). -/
def fillStopped (s : State) (c : Cmd) : Bool :=
  match c.kind with
  | .efill _ _ => (match Sparse.find s.blocks c.blk with
    | some b => b.status != .resident && b.status != .ended
    | none => false)
  | _ => false

/-- A step of an engine that stands in the queue of a pair. -/
def inPair (engine q : Nat) (c : Cmd) : Bool :=
  c.engine == engine && c.kind.isStep && c.pair == some (BitVec.ofNat 4 q) && (c.stage == .queued || c.stage == .armed || c.stage == .waitArm)

/-- A queue's head at an engine: of a pair's steps one that has started, or the first in issue order (R293); of the command queue (16)
the first in the order of hand-over, a stopped EFILL apart. -/
def queueHead (s : State) (engine : Nat) (q : Nat) : Option Nat :=
  if q = 16 then indexOf (fun (c : Cmd) => c.engine == engine && !c.kind.isStep && c.stage == .queued && !fillStopped s c) s.cmds
  else
    let steps := s.cmds.filter (inPair engine q)
    let first := (steps.map (·.seq)).foldl min (nextSeq s)
    let started := steps.any (fun c => decide (0 < c.pos))
    indexOf (fun c => inPair engine q c && (if started then decide (0 < c.pos) else c.seq == first)) s.cmds

/-- A step's next chunk has room at the next hop (R289). -/
def chunkRoom (s : State) (c : Cmd) : Bool :=
  let e := stepEntry c 0
  !(entryAct e == 0 || entryAct e == 3) || hopRoom s (entryLink e) (c.pair.getD 0).toNat (min (stepChunk c) (c.len - c.pos))

/-- A queued command waits: a step on a held round or on buffer room (R289, R290, R293), an EFILL on the return of its block (R174). -/
def headWaits (s : State) (c : Cmd) : Bool :=
  (c.kind.isStep && (!chunkRoom s c
      || (c.pos == 0 && (heldFor s (c.pair.getD 0) (BitVec.ofNat 32 (stepVersion c))).isSome)))
    || fillStopped s c

/-- An earlier command of the same warp has not started, and does not itself wait on what R293 lets others pass: commands of one warp
start in issue order (R172). DEDUCED (log entry 93). -/
def behindUnstarted (s : State) (c : Cmd) : Bool :=
  s.cmds.any (fun e => decide (e.seq < c.seq) && (match e.owner, c.owner with
      | .warp w _, .warp w' _ => w == w'
      | _, _ => false)
    && (e.stage == .issued || (e.stage == .queued && e.pos == 0 && !headWaits s e)))

/-- A step of the same engine that was issued earlier has not been handed over: its pair is not yet known and may be this one's, and
the steps of one pair start in issue order (R293). DEDUCED (log entry 93). -/
def behindUnplaced (s : State) (c : Cmd) : Bool :=
  c.kind.isStep && s.cmds.any (fun e => e.engine == c.engine && e.kind.isStep && e.stage == .issued && decide (e.seq < c.seq))

/-- The head may be chosen: not waiting on its counter, a page, a held round, buffer room, or an earlier command's start. -/
def headReady (s : State) (c : Cmd) : Bool :=
  c.stage == .queued && !c.parked && !headWaits s c && !(c.pos == 0 && (behindUnstarted s c || behindUnplaced s c))

/-- The ready heads of an engine: class, place in the round, index. -/
def readyHeads (s : State) (engine : Nat) : List (Nat × Nat × Nat) :=
  let last := Sparse.get 15 s.lastPair engine
  (List.range 17).filterMap (fun q =>
    match queueHead s engine q with
    | none => none
    | some k =>
      match s.cmds[k]? with
      | some c => if headReady s c then some (c.cls.toNat, (if q = 16 then 16 else (q + 15 - last) % 16), k) else none
      | none => none)

/-- The best of the ready heads: lowest class, then first in the round. -/
def bestHead : List (Nat × Nat × Nat) → Option (Nat × Nat × Nat)
  | [] => none
  | e :: es =>
    match bestHead es with
    | none => some e
    | some f => if f.1 < e.1 ∨ (f.1 = e.1 ∧ f.2.1 < e.2.1) then some f else some e

/-- Take the best ready queue. A step that ends at its start occupies no chunk: the engine chooses again at once (R296). -/
def chooseFrom : Nat → State → Nat → State
  | 0, s, _ => s
  | n + 1, s, engine =>
    match bestHead (readyHeads s engine) with
    | none => s
    | some (_, _, k) =>
      match s.cmds[k]? with
      | none => s
      | some c =>
        if !c.kind.isStep then setCmd s k { c with stage := .running }
        else
          let s1 := { s with lastPair := Sparse.set 15 s.lastPair engine (c.pair.getD 0).toNat }
          if c.pos ≠ 0 then startChunk s1 k c
          else
            let t := startStep s1 k c
            if t.cmds.length < s.cmds.length then chooseFrom n t engine else t

def chooseHead (s : State) (engine : Nat) : State := chooseFrom (s.cmds.length + 1) s engine

/-- ENGINE_CHUNK_BOUNDARY (R293): engine `ev.k`, which runs nothing, takes the ready queue of the lowest class. A command leaves the
engine at the end of each chunk or segment. -/
def execEngineChunkBoundary (s : State) : Result :=
  .next (if s.cmds.any (fun c => c.engine == s.ev.k && c.stage == .running) then s else chooseHead s s.ev.k)

/-! ### Segments (R172, R218) -/

/-- How the translation of a destination range comes out. -/
inductive PageEnd where
  | all
  | wait
  | park (va : Nat)
  | fail (va : Nat)
deriving DecidableEq, Repr, Inhabited

/-- The 64 KiB pages of a destination range placed in increasing order. -/
def placePages (c : Cmd) : Nat → Nat → Nat → State → List (Nat × Nat) → PageEnd × List (Nat × Nat) × State
  | 0, _, _, s, acc => (.all, acc, s)
  | fuel + 1, va, hi, s, acc =>
    if hi ≤ va then (.all, acc, s)
    else
      let r := translate s c.core c.cls c.ctx va .store
      match r.1 with
      | .wait => (.wait, acc, r.2)
      | .fail 5 => (.park va, acc, r.2)
      | .fail _ => (.fail va, acc, r.2)
      | .ok da _ => placePages c fuel ((va / 65536 + 1) * 65536) hi r.2 (acc ++ [(va / 65536 * 65536, da - va % 65536)])

/-- The domain address of a destination byte. -/
def destAddr (c : Cmd) (va : Nat) : Nat :=
  match c.pages.find? (fun p => p.1 == va / 65536 * 65536) with
  | some p => p.2 + va % 65536
  | none => 0

/-- Pin the sectors of a segment one at a time in increasing order; the list of those pinned, and whether all are. -/
def pinAll (agent : BitVec 13) (cls : BitVec 2) : List Nat → State → List Nat → Bool × List Nat × State
  | [], s, acc => (true, acc, s)
  | sec :: rest, s, acc =>
    if acc.contains sec then pinAll agent cls rest s acc
    else if (pinnedBy s sec).isSome then (false, acc, s)
    else if satisfied s agent sec true then
      pinAll agent cls rest { s with tok := { s.tok with pins := s.tok.pins ++ [⟨agent, sec, []⟩] } } (acc ++ [sec])
    else (false, acc, startRequest s agent sec true cls)

/-- The sectors of a destination range. -/
def destSectors (c : Cmd) (va n : Nat) : List Nat := ((pieces va n).map (fun e => destAddr c (va + e.1) / 64)).eraseDups

/-- The next segment of a command with a global destination. -/
def globalSegment (s : State) (k : Nat) (c : Cmd) (n : Nat) : State :=
  let va := c.x.toNat + c.pos
  let r := placePages c 18 va (va + n) s []
  let go (stop : Option Nat) : State :=
    let m := match stop with
      | some a => a - va
      | none => n
    let c1 := { c with pages := r.2.1 }
    let p := pinAll (engineAgent s c.engine) c.cls (destSectors c1 va m) r.2.2 c.pins
    if p.1 then setCmd p.2.2 k { c1 with pins := p.2.1, segEnd := c.pos + m, stop := stop }
    else setCmd p.2.2 k { c1 with pins := p.2.1 }
  match r.1 with
  | .wait => r.2.2
  | .park a => parkCmd r.2.2 k c a true
  | .fail a => go (some a)
  | .all => go none

/-- The pool range of an EBLK lies in the context's window (R177). -/
def poolRangeOk (s : State) (c : Cmd) : Bool :=
  let off := if c.kind == .eblkGet then c.y.toNat else c.x.toNat
  decide (off + c.len ≤ (s.block c.blk).poolSize)

/-- ENGINE_SEGMENT_START (R172): the running k-th command begins its next 1 MiB of destination, pinning the global sectors. With
`ev.flag` the pool device reports an error (R177). -/
def execEngineSegmentStart (s : State) : Result :=
  .next (match s.cmds[s.ev.k]? with
    | none => s
    | some c =>
      if c.stage != .running || c.kind.isStep || c.parked || c.pos != c.segEnd || c.stop.isSome || c.pos == c.len then s
      else
        let n := min (2 ^ 20 - c.pos % 2 ^ 20) (c.len - c.pos)
        let pool := c.kind == .eblkGet || c.kind == .eblkPut
        if pool && (s.ev.flag || !poolRangeOk s c) then endCmd s s.ev.k 5 0
        else if c.kind.toGlobal then globalSegment s s.ev.k c n
        else setCmd s s.ev.k { c with segEnd := c.pos + n })

/-! ### Moving bytes (R172, R174, R175, R218) -/

/-- The ranges of an ECPY overlap: its destination bytes are unspecified (R174). -/
def copyOverlaps (c : Cmd) : Bool :=
  match c.kind with
  | .ecpy fromSp toSp _ => fromSp == toSp && decide (c.x.toNat < c.y.toNat + c.len) && decide (c.y.toNat < c.x.toNat + c.len)
  | _ => false

/-- Bytes written at a pinned global destination, combined for ERED. -/
def writeDest (s : State) (c : Cmd) (bs : List Byte) : State :=
  let va := c.x.toNat + c.pos
  let agent := engineAgent s c.engine
  (pieces va bs.length).foldl (fun t e =>
    let da := destAddr c (va + e.1)
    let new := (bs.drop e.1).take e.2
    let out := match c.kind with
      | .ered op type => redBytes op type (sectorBytes (holding t agent (da / 64)).data (da % 64) e.2) new
      | _ => new
    writeHeld t agent (da / 64) [(da % 64, out)]) s

/-- Source bytes that belong to the segment; a sector that is read once may reach beyond it (R219). -/
def segBytes (c : Cmd) : List Byte := c.buf.take (c.segEnd - c.pos)

/-- The bytes that a copy puts, free where its ranges overlap. -/
def copyBytes (s : State) (c : Cmd) : List Byte × State :=
  if copyOverlaps c then (sectorBytes (Config.freeSector s.free) 0 (segBytes c).length, { s with free := s.free + 1 }) else (segBytes c, s)

/-- Bytes of the k-th command have been moved. At the end of its segment it releases its pins, and leaves the engine for the choice of
R293 unless it has come to its end (R172, R218). -/
def movedBytes (s : State) (k : Nat) (c : Cmd) (n : Nat) : State :=
  let c1 := { c with pos := c.pos + n, buf := c.buf.drop n }
  if c1.pos ≠ c1.segEnd then setCmd s k c1
  else setCmd (releasePins s c1 c1.x.toNat (c1.x.toNat + c1.pos)) k
    { c1 with pins := [], pages := [], stage := if c1.pos = c1.len ∨ c1.stop.isSome then .running else .queued }

/-- One piece of a segment: read from the source, each sector of it once (R219), or written at the destination. -/
def movePiece (s : State) (k : Nat) (c : Cmd) : State :=
  if c.buf.isEmpty then
    let r := readSource s c c.pos (c.len - c.pos)
    match r.1 with
    | .wait => r.2
    | .park va => parkCmd r.2 k c va false
    | .fail va => setCmd r.2 k { c with segEnd := c.pos, stop := some va }
    | .bytes bs => setCmd r.2 k { c with buf := bs }
  else
    let seg := segBytes c
    match c.kind with
    | .ecpy _ true fe =>
      let b := cmdScratch s c (c.x.toNat + c.pos)
      let d := copyBytes s c
      movedBytes (spWrite d.2 b.1 (b.1 != c.blk) b.2 (d.1.take 4) fe) k c 4
    | .efill _ fifo =>
      let b := s.block c.blk
      let q := fifoOf b fifo.toNat
      let n := min seg.length (65536 - q.length)
      if b.status == .ended || (Sparse.find s.blocks c.blk).isNone then movedBytes s k c seg.length
      else if b.status != .resident && (b.status != .stopping || c.pos % 32 == 0) then setCmd s k { c with stage := .queued, segEnd := c.pos }
      else if n = 0 then s
      else
        let m := if b.status == .stopping then min n (32 - c.pos % 32) else n
        movedBytes (s.setBlock c.blk { b with fifos := Sparse.set [] b.fifos fifo.toNat (q ++ seg.take m) }) k c m
    | .eblkPut =>
      let a := (s.block c.blk).poolBase + c.x.toNat + c.pos
      let new := (List.range seg.length).map (fun j => (c.seq, c.ctx, a + j, (seg[j]?).getD 0))
      movedBytes { s with poolPend := s.poolPend ++ new } k c seg.length
    | _ =>
      let d := copyBytes s c
      movedBytes (writeDest d.2 c d.1) k c seg.length

/-- The packet of a step's current chunk (R287). -/
def chunkPacket (s : State) (c : Cmd) : Packet :=
  let ctl := stepControl c
  let n := ctl % 16
  { dstc := BitVec.ofNat 64 (stepDst c + c.pos), cid := BitVec.ofNat 16 (commCid (c.comm.getD 0)),
    version := BitVec.ofNat 32 (stepVersion c), chix := BitVec.ofNat 12 (bitsOf ctl 16 12 + c.pos / stepChunk c),
    ops := BitVec.ofNat 64 (bitsOf (descField c 40 16) 0 (16 * n)), srcmod := s.sys.modid, bytes := BitVec.ofNat 21 (segBytes c).length,
    contrib := BitVec.ofNat 8 (bitsOf ctl 28 8), type := BitVec.ofNat 4 (ctl / 256), op := BitVec.ofNat 4 (ctl / 16),
    nrem := BitVec.ofNat 4 n, payload := segBytes c }

/-- The destination of a chunk at the issuing module, translated in the issuing context (R172, R288). -/
def placeLocal (c : Cmd) (va : Nat) : List (Nat × Nat) → State → PageEnd × List (Nat × Nat × Nat) × State
  | [], s => (.all, [], s)
  | e :: es, s =>
    let r := translate s c.core c.cls c.ctx ((va + e.1) % 2 ^ 64) .store
    match r.1 with
    | .wait => (.wait, [], r.2)
    | .fail 5 => (.park (va + e.1), [], r.2)
    | .fail _ => (.fail (va + e.1), [], r.2)
    | .ok da _ =>
      let q := placeLocal c va es r.2
      (q.1, (da, e.1, e.2) :: q.2.1, q.2.2)

/-- The chunk is sent: the step stands at a boundary, or all its chunks are sent (R293). -/
def chunkSent (s : State) (k : Nat) (c : Cmd) : State :=
  setCmd s k { c with pos := c.segEnd, buf := c.buf.drop (c.segEnd - c.pos), room := none, stage := if c.segEnd = c.len then .finishing else .queued }

/-- A step fails at an address within a chunk that entry 0 writes here: every byte below the failing one in copy order is written,
and no status word (R172, R288, R305). -/
def endWritten (s : State) (k : Nat) (c : Cmd) (p : Packet) (red : Bool) (ps : List (Nat × Nat × Nat)) (info : Nat) : State :=
  let agent := engineAgent s c.engine
  let r := takeSectors s agent ((ps.map (fun e => e.1 / 64)).eraseDups)
  if r.1 then endCmd (putChunk r.2 agent p red ps) k 4 info else r.2

/-- The source of a step fails at an address within its current chunk. -/
def failChunk (s : State) (k : Nat) (c : Cmd) (a : Nat) : State :=
  let p := chunkPacket s c
  let e := p.ops.toNat % 65536
  if (packetObject s p).isNone ∨ entryAct e = 0 then endCmd s k 4 a
  else
    let r := placeLocal c p.dstc.toNat (pieces p.dstc.toNat p.payload.length) s
    match r.1 with
    | .wait => r.2.2
    | .park va => parkCmd r.2.2 k c va true
    | .fail va => endWritten r.2.2 k c p (entryAct e == 2) r.2.1 va
    | .all => endWritten r.2.2 k c p (entryAct e == 2) r.2.1 a

/-- The chunk's packet goes to the first link, whose next hop has kept the room for it. -/
def forwardChunk (s : State) (c : Cmd) (p : Packet) : State :=
  let l := entryLink (p.ops.toNat % 65536)
  match c.room with
  | some _ => if (s.link l).trained then sendOn s l (popEntry p) (some c.owner) else discardPacket (freeChunk s c) (popEntry p)
  | none => forwardPacket s l (popEntry p) (some c.owner)

/-- Entry 0 of a whole chunk at the issuing module (R288). -/
def sendChunk (s : State) (k : Nat) (c : Cmd) : State :=
  let p := chunkPacket s c
  match packetObject s p with
  | none => chunkSent (discardPacket (freeChunk s c) p) k c
  | some o =>
    let e := p.ops.toNat % 65536
    let sends := entryAct e == 0 || entryAct e == 3
    if entryAct e = 0 then chunkSent (forwardChunk s c p) k c
    else
      let r := placeLocal c p.dstc.toNat (pieces p.dstc.toNat p.payload.length) s
      match r.1 with
      | .wait => r.2.2
      | .park va => parkCmd r.2.2 k c va true
      | .fail va => endWritten r.2.2 k c p (entryAct e == 2) r.2.1 va
      | .all =>
        let l := landChunk r.2.2 (engineAgent s c.engine) o p (entryAct e == 2) (entryFinal e) r.2.1
        if !l.1 then l.2
        else if sends then chunkSent (forwardChunk l.2 c p) k c
        else chunkSent l.2 k c

/-- One piece of a step's chunk: a source sector read once (R219), or the whole chunk sent. -/
def moveChunk (s : State) (k : Nat) (c : Cmd) : State :=
  let have_ := c.buf.length
  if c.segEnd - c.pos ≤ have_ then withObject s (c.pair.getD 0).toNat (fun t => sendChunk t k c)
  else
    let va := stepSrc c + c.pos + have_
    let r := readGlobal s c (va % 2 ^ 64) (min (c.len - c.pos - have_) (64 - va % 64))
    match r.1 with
    | .wait => r.2
    | .park a => parkCmd r.2 k c a false
    | .fail a => failChunk r.2 k c a
    | .bytes bs => setCmd r.2 k { c with buf := c.buf ++ bs }

/-- The running k-th command reads or writes its next piece. -/
def engineMove (s : State) (k : Nat) : State :=
  match s.cmds[k]? with
  | none => s
  | some c =>
    if c.stage != .running || c.parked || decide (c.segEnd ≤ c.pos) then s
    else if c.kind.isStep then moveChunk s k c else movePiece s k c

/-! ### Completion (R172, R177, R220, R292) -/

/-- Puts of a context that its flush has followed stand in the pool for every reader. -/
def flushPool (s : State) (ctx : BitVec 12) (seq : Nat) : State :=
  let mine (e : Nat × BitVec 12 × Nat × Byte) : Bool := e.2.1 == ctx && decide (e.1 < seq)
  { s with pool := (s.poolPend.filter mine).foldl (fun m e => Sparse.set 0 m e.2.2.1 e.2.2.2) s.pool,
           poolPend := s.poolPend.filter (fun e => !mine e) }

/-- ENGINE_COMMAND_COMPLETE (R172): the last write of the k-th command is performed, or its failing byte reached. A flush completes
when every earlier put of its context is written. -/
def execEngineCommandComplete (s : State) : Result :=
  .next (match s.cmds[s.ev.k]? with
    | none => s
    | some c =>
      if c.stage != .running || c.kind.isStep || c.pos != c.segEnd then s
      else
        match c.stop with
        | some a => endCmd s s.ev.k 4 a
        | none =>
          if c.pos ≠ c.len then s
          else if c.kind == .eblkFlush then
            (if s.cmds.any (fun e => decide (e.seq < c.seq) && e.ctx == c.ctx && e.kind == .eblkPut) then s
              else endCmd (flushPool s c.ctx c.seq) s.ev.k 0 0)
          else endCmd s s.ev.k 0 c.len)

/-- A packet of the command still waits for a link layer. -/
def packetWaits (s : State) (o : CmdOwner) : Bool :=
  s.links.any (fun e => e.2.queue.any (fun x => match x with
    | .packet _ (some w) => w == o
    | _ => false))

/-- EPKT_LOCAL_COMPLETION (R292): every packet of the k-th command's step has been accepted by its first link. -/
def execEpktLocalCompletion (s : State) : Result :=
  .next (match s.cmds[s.ev.k]? with
    | none => s
    | some c =>
      if c.stage != .finishing || !c.kind.isStep || c.round.isSome || packetWaits s c.owner then s else endCmd s s.ev.k 0 c.len)

end Sys2Proof.Machine
end

