-- ==== Sys2Proof/Machine/Launch.lean ====
section
/-! DEFINITION. Launches (R230 to R233, R149 to R151): launch records, grids and their queues, `gx.launch`, `gx.replay`, FORK,
JOIN, and task graphs (R150, R242, R243). -/

namespace Sys2Proof.Machine

/-! ### Reads of the launch unit and the walker -/

/-- What a read of the launch unit or the walker finds in a sector (R267, R280): its coherent data; on a read-only-shared page what the
home has once it holds every token, an unspecified value where that collection is stopped, or what another module's home has
sent. Nothing while the read waits for the home. -/
def hubSector (s : State) (sec : Nat) (ros : Bool) : Option (SectorData × Bool) :=
  let home := homeAgent s.sys (sectorBase sec)
  if !ros then some (coherentSector s sec)
  else if !isHomeOf s home sec then (s.tok.ros.find? (fun e => e.1 == sec)).map (·.2)
  else if (holding s home sec).tokens = 2048 then some ((holding s home sec).data, (holding s home sec).poison)
  else if (pinnedBy s sec).isSome || blockedFor s home sec then some (Config.freeSector (s.free + 2 ^ 64 * (sec + 1)), false)
  else none

/-- `n` bytes at a virtual address read without a replayable fault; none where a byte fails its checks or is poisoned. -/
def readVirtual (s : State) (ctx : BitVec 12) (va n : Nat) : Option (List Byte) :=
  (pieces va n).foldr (fun e o =>
    match o, translatePure s ctx (va + e.1) .load with
    | some l, .ok da ros =>
      (match hubSector s (da / 64) ros with
        | some (d, false) => some (sectorBytes d (da % 64) e.2 ++ l)
        | _ => none)
    | _, _ => none) (some [])

/-- The sectors that such a read needs: of the tables that place it, and its own, each with its page's ROS attribute. -/
def readSectors (s : State) (ctx : BitVec 12) (va n : Nat) : List (Nat × Bool) :=
  ((pieces va n).flatMap (fun e => (walkSectors s ctx (va + e.1)).map (fun sec => (sec, false)) ++ (match translatePure s ctx (va + e.1) .load with
    | .ok da ros => [(da / 64, ros)]
    | _ => []))).eraseDups

/-- The sectors of such a read for which `agent` must wait: it can have no token now (R267), or the home of a read-only-shared page has
not offered its data (R280). -/
def unreadable (s : State) (agent : BitVec 13) (ctx : BitVec 12) (va n : Nat) : List (Nat × Bool) :=
  (readSectors s ctx va n).filter (fun e => if e.2 then (hubSector s e.1 true).isNone else !canRead s agent e.1)

/-- The tokens of sectors asked for by an agent of class 0 (R270); the home of a read-only-shared page collects them. -/
def askFor (s : State) (agent : BitVec 13) (secs : List (Nat × Bool)) : State :=
  secs.foldl (fun t e =>
    let home := homeAgent t.sys (sectorBase e.1)
    if !e.2 then startRequest t agent e.1 false 0 else if isHomeOf t home e.1 then startRequest t home e.1 true 0 else t) s

/-- The agent reads under the tokens it takes (R267). -/
def takeRead (s : State) (agent : BitVec 13) (ctx : BitVec 12) (va n : Nat) : State :=
  let secs := readSectors s ctx va n
  let t := takeTokens s agent ((secs.filter (fun e => !e.2)).map (·.1))
  if secs.any (·.2) then { t with free := t.free + 1 } else t

/-- A store of the module's own at a virtual address, within a sector: it is made (`true`) under tokens of the tables that place it and
every token of its sector, or fails its checks (`false`), or asks for tokens and waits. -/
def storeVirtual (s : State) (agent : BitVec 13) (ctx : BitVec 12) (va : Nat) (bs : List Byte) : Option Bool × State :=
  match readUnderTokens s agent (walkSectors s ctx va) with
  | (false, t) => (none, t)
  | (true, t) =>
    match translatePure s ctx va .store with
    | .ok da _ =>
      match agentWrite t agent da bs with
      | some u => (some true, u)
      | none => (none, startRequest t agent (da / 64) true 0)
    | _ => (some false, t)

/-- The launch unit's agent (R268). -/
def launchAgent (s : State) : BitVec 13 := ownAgent s.sys 221

/-- The body of a name that the context may look up and whose KIND is `kind`; else status 1, 2 or 3. -/
def bodyOf (s : State) (ctx : BitVec 12) (name : BitVec 128) (kind : Nat) : Except Nat NameEntry :=
  match lookupFor s ctx name with
  | .error st => .error st
  | .ok key => if bodyKind (nameEntry s key).w0 = kind then .ok (nameEntry s key) else .error 3

/-! ### Launch records (R230, R231) -/

/-- Word k of a record. -/
def recWord (bs : List Byte) (k : Nat) : Nat := leValue ((bs.drop (8 * k)).take 8)

/-- The fields of a record whose code and handler are resolved. -/
def makeRec (bs : List Byte) (code : Nat) (handler : Option Nat) : LaunchRec :=
  let w4 := recWord bs 4
  let w5 := recWord bs 5
  { code := code, codeName := BitVec.ofNat 128 (leValue (bs.take 16)), handler := handler, handlerName := BitVec.ofNat 128 (leValue ((bs.drop 16).take 16)), gridM1 := BitVec.ofNat 32 w4,
    cluM1 := BitVec.ofNat 2 (bitsOf w4 32 2), warpM1 := BitVec.ofNat 4 (bitsOf w4 34 4), plyM1 := BitVec.ofNat 3 (bitsOf w4 38 3),
    liveM1 := BitVec.ofNat 6 (bitsOf w4 41 6), prio := BitVec.ofNat 2 (bitsOf w4 47 2), place := BitVec.ofNat 8 (bitsOf w4 56 8),
    spAlloc := bitsOf w5 0 21, fifos := BitVec.ofNat 8 (bitsOf w5 24 8), ctrs := BitVec.ofNat 32 (bitsOf w5 32 32),
    poolBase := BitVec.ofNat 64 (recWord bs 6), poolSize := recWord bs 7, done := BitVec.ofNat 64 (recWord bs 8) }

/-- The field checks of R231. -/
def recFieldsOk (r : LaunchRec) : Bool :=
  decide (r.liveM1.toNat < 8 * (r.plyM1.toNat + 1)) && r.spAlloc % 4096 == 0 && decide (r.spAlloc ≤ 0x180000)
    && (r.gridM1.toNat + 1) % (r.cluM1.toNat + 1) == 0 && r.done.toNat % 8 == 0

/-- The record of an object with a body of KIND 7, read once and checked, for a launching context; else status 3. -/
def recordAt (s : State) (ctx : BitVec 12) (w0 w1 : W64) : Except Nat LaunchRec :=
  if bodyBase w0 % 64 ≠ 0 ∨ bodySize w1 < 128 then .error 3
  else
    match readVirtual s ctx (bodyBase w0) 128 with
    | none => .error 3
    | some bs =>
      let hname := BitVec.ofNat 128 (leValue ((bs.drop 16).take 16))
      match bodyOf s ctx (BitVec.ofNat 128 (leValue (bs.take 16))) 1, (if hname = 0 then none else some (bodyOf s ctx hname 1)) with
      | .error _, _ => .error 3
      | _, some (.error _) => .error 3
      | .ok c, h =>
        let handler := match h with
          | some (.ok k) => some (bodyBase k.w0)
          | _ => none
        let r := makeRec bs (bodyBase c.w0) handler
        if recFieldsOk r then .ok r else .error 3

/-- The record that a name leads to; else status 1, 2 or 3. -/
def launchRecord (s : State) (ctx : BitVec 12) (name : BitVec 128) : Except Nat LaunchRec :=
  match bodyOf s ctx name 7 with
  | .error st => .error st
  | .ok e => recordAt s ctx e.w0 e.w1

/-- The sectors of a record that the launch unit cannot read now. -/
def recordWaits (s : State) (ctx : BitVec 12) (name : BitVec 128) : List (Nat × Bool) :=
  match bodyOf s ctx name 7 with
  | .ok e => unreadable s (launchAgent s) ctx (bodyBase e.w0) 128
  | .error _ => []

/-- The launch unit reads a name's record under the tokens it takes. -/
def takeRecord (s : State) (ctx : BitVec 12) (name : BitVec 128) : State :=
  match bodyOf s ctx name 7 with
  | .ok e => takeRead s (launchAgent s) ctx (bodyBase e.w0) 128
  | .error _ => s

/-! ### Grids and queues (R232, R233) -/

def queueKey (ctx : BitVec 12) (cls : BitVec 2) : Nat := 4 * ctx.toNat + cls.toNat

def queueOf (s : State) (ctx : BitVec 12) (cls : BitVec 2) : List Nat := Sparse.get [] s.queues (queueKey ctx cls)

/-- The words of a code object are as launched again (R199). -/
def cleanCode (s : State) (ctx : BitVec 12) (name : BitVec 128) : State :=
  if s.codeDirty.isEmpty then s
  else
    match bodyOf s ctx name 1 with
    | .error _ => s
    | .ok e =>
      let base := bodyBase e.w0
      let pages := (List.range (bodySize e.w1 / 65536 + 2)).filterMap (fun k =>
        match translatePure s ctx (base / 65536 * 65536 + 65536 * k) .fetch with
        | .ok da _ => some (da / 65536, base / 65536 + k)
        | _ => none)
      let within (w : Nat) : Bool := pages.any (fun p =>
        let va := p.2 * 65536 + 8 * w % 65536
        p.1 == 8 * w / 65536 && decide (base ≤ va + 7) && decide (va < base + bodySize e.w1))
      { s with codeDirty := s.codeDirty.filter (fun x => !within x.1) }

/-- Where the launch's copy of the data segment lies (R28) is not stated: a free value, aligned as far as the assembler can align
an item (R27), of which the launch unit takes only one that holds a copy of its own (`dataFits`). DEDUCED (log entry 86). -/
def dataBase (k : Nat) : W64 := BitVec.ofNat 64 ((Config.freeLong (k * 2 ^ 56)).toNat % 2 ^ 56 / 4096 * 4096)

/-- A grid created and queued. -/
def addGrid (s : State) (ctx : BitVec 12) (r : LaunchRec) (parent : GridParent) (doneVal s0 : W64) : State :=
  let g : Grid := { ctx := ctx, launch := r, parent := parent, doneVal := doneVal, s0 := s0, dbase := 0,
                    dispatched := 0, ended := 0, rounds := [], completed := false }
  let q := queueOf s ctx r.prio ++ [s.nextId]
  let s1 := cleanCode { (s.setGrid s.nextId g) with queues := Sparse.set [] s.queues (queueKey ctx r.prio) q, nextId := s.nextId + 1 }
    ctx r.codeName
  if r.handler.isSome then cleanCode s1 ctx r.handlerName else s1

/-! ### The harts' instructions (R232, R256) -/

def Hart.get (h : Hart) (r : BitVec 5) : W64 := Sparse.get 0 h.x r.toNat

/-- x0 stays 0. -/
def Hart.set (h : Hart) (r : BitVec 5) (v : W64) : Hart := if r = 0 then h else { h with x := Sparse.set 0 h.x r.toNat v }

/-- A control and status register of a hart, by its RISC-V number. -/
def Hart.csrAt (h : Hart) (n : Nat) : Nat := (Sparse.get 0 h.csr n).toNat

def Hart.setCsr (h : Hart) (n v : Nat) : Hart := { h with csr := Sparse.set 0 h.csr n (BitVec.ofNat 64 v) }

/-- The bits of `v` at `lo`, `n` of them, replaced by `x`. -/
def putBits (v lo n x : Nat) : Nat := v - bitsOf v lo n * 2 ^ lo + x % 2 ^ n * 2 ^ lo

/-- The encoding of a mode without its virtualization bit: user 0, supervisor 1, machine 3. -/
def HartMode.code : HartMode → Nat
  | .u | .vu => 0
  | .s | .vs => 1
  | .m => 3

def HartMode.virtual : HartMode → Bool
  | .vs | .vu => true
  | _ => false

/-- The hart's exception saves its pc, cause and instruction word in the three registers from `epc`, and its interrupt enable in the
status register `st`, whose enable is bit `ie`; the pc goes to the base in `tvec`, in vectored mode past it by four times the cause of
an interrupt. -/
def Hart.saveTrap (h : Hart) (epc st ie tvec cause word : Nat) : Hart :=
  let v := h.csrAt st
  let h1 := (((h.setCsr epc h.pc).setCsr (epc + 1) cause).setCsr (epc + 2) word).setCsr st
    (putBits (putBits v (ie + 4) 1 (bitsOf v ie 1)) ie 1 0)
  let base := h.csrAt tvec - h.csrAt tvec % 4
  { h1 with pc := if h.csrAt tvec % 4 = 1 ∧ 2 ^ 63 ≤ cause then base + 4 * (cause - 2 ^ 63) else base }

/-- The hart enters its trap handler in machine mode. -/
def Hart.enterM (h : Hart) (cause word : Nat) : Hart :=
  let t := h.saveTrap 0x341 0x300 3 0x305 cause word
  { t.setCsr 0x300 (putBits (putBits (t.csrAt 0x300) 11 2 h.mode.code) 39 1 (boolNat h.mode.virtual)) with mode := .m }

/-- The hart enters its trap handler in supervisor mode. -/
def Hart.enterS (h : Hart) (cause word : Nat) : Hart :=
  let t := h.saveTrap 0x141 0x300 1 0x105 cause word
  let t1 := t.setCsr 0x300 (putBits (t.csrAt 0x300) 8 1 h.mode.code)
  { t1.setCsr 0x600 (putBits (t1.csrAt 0x600) 7 1 (boolNat h.mode.virtual)) with mode := .s }

/-- The hart takes its illegal-instruction exception, cause 2, at the instruction `word` (R232, R256), as the RISC-V privileged
architecture has it: in machine mode, or by medeleg bit 2 in supervisor mode, or by hedeleg bit 2 too in virtual supervisor
mode. The manual names that architecture and does not repeat it (PRESUMED, log entry 94). -/
def Hart.illegalAt (h : Hart) (word : BitVec 32) : Hart :=
  let w := word.toNat
  if h.mode = .m ∨ bitsOf (h.csrAt 0x302) 2 1 = 0 then { h.enterM 2 w with illegal := some word }
  else if !h.mode.virtual || bitsOf (h.csrAt 0x602) 2 1 == 0 then { h.enterS 2 w with illegal := some word }
  else
    let t := h.saveTrap 0x241 0x200 1 0x205 2 w
    { t.setCsr 0x200 (putBits (t.csrAt 0x200) 8 1 h.mode.code) with mode := .vs, illegal := some word }

def hartResult (s : State) (d : BitVec 5) (v : W64) : State := s.setHart s.ev.hart ((s.hart s.ev.hart).set d v)

/-- A hart launches the record that the 16-byte name at `va` leads to. -/
def launchFrom (s0 : State) (ctx : BitVec 12) (d : BitVec 5) (va : Nat) (arg : W64) : State :=
  let s := if va % 16 = 0 then takeRead s0 (launchAgent s0) ctx va 16 else s0
  match (if va % 16 = 0 then readVirtual s0 ctx va 16 else none) with
  | none => s.setHart s.ev.hart { s.hart s.ev.hart with fault := some va }
  | some bs =>
    let t := takeRecord s ctx (nameOf bs)
    match launchRecord s0 ctx (nameOf bs) with
    | .error st => hartResult t d (statusWord st 0)
    | .ok r =>
      if 1024 ≤ (queueOf s0 ctx r.prio).length then hartResult t d (statusWord 4 0)
      else
        let q := Sparse.get 0 s0.seqs ctx.toNat + 1
        let s1 := { t with seqs := Sparse.set 0 t.seqs ctx.toNat q }
        hartResult (addGrid s1 ctx r .hart (q.setWidth 64) arg) d (q.setWidth 64)

/-- A hart's earlier accesses that a release at `.d` waits for (R221, R266): a store that is not performed, an access that lacks tokens,
an operation of its name port. -/
def hartOpen (s : State) (h : Nat) : Bool :=
  !(s.hart h).buffer.isEmpty || (s.hart h).wait.isSome || bitsOf (s.port h).npst.toNat 56 8 == 255

/-- The sectors of a name and its record that the launch unit cannot read now. -/
def launchWaits (s : State) (ctx : BitVec 12) (va : Nat) : List (Nat × Bool) :=
  if va % 16 ≠ 0 then []
  else match unreadable s (launchAgent s) ctx va 16 with
    | [] => (match readVirtual s ctx va 16 with
      | some bs => recordWaits s ctx (nameOf bs)
      | none => [])
    | secs => secs

/-- GX_LAUNCH (R232), once every earlier access of the hart is performed and the record can be read. The name is read where the
bound context maps it. -/
def execGxLaunch (d a b : BitVec 5) (s : State) : Result :=
  .next (
    let k := s.hart s.ev.hart
    if hartOpen s s.ev.hart then s
    else match k.ctx with
      | none => hartResult s d (statusWord 5 0)
      | some ctx =>
        match launchWaits s ctx (k.get a).toNat with
        | [] => launchFrom s ctx d (k.get a).toNat (k.get b)
        | secs => askFor s (launchAgent s) secs)

/-- The hart's `gx.launch` or `gx.replay` cannot be carried out yet, and does not retire. -/
def gxWaits (s : State) (i : Instr) : Bool :=
  let h := s.ev.hart
  match i with
  | .gxLaunch _ a _ => hartOpen s h || (match (s.hart h).ctx with
    | some ctx => !(launchWaits s ctx ((s.hart h).get a).toNat).isEmpty
    | none => false)
  | .gxReplay _ _ => (s.hart h).mode != .u && (s.hart h).mode != .vu && hartOpen s h
  | _ => false

/-- Units of a context parked on check 5 on the cores are driven again; how many there were (R256, R258). -/
def replayUnits (s : State) (ctx : BitVec 12) : Nat × State :=
  let mine (x : Warp) : Bool := x.ctx == ctx && (let b := s.block x.blk; b.status == .resident || b.status == .stopping)
  let parked (v : IUnit) : Bool := match v.hold with
    | .fault _ => true
    | _ => false
  let n := s.warps.foldl (fun n e => if mine e.2 then n + e.2.arch.units.countP parked + e.2.arch.stack.countP parked else n) 0
  let wake (v : IUnit) : IUnit := if parked v then { v with hold := .none } else v
  let go (x : Warp) : Warp := x.updArch 0 (fun a => { a with units := a.units.map wake, stack := a.stack.map wake })
  (n, { s with warps := s.warps.map (fun e => if mine e.2 then (e.1, go e.2) else e) })

/-- GX_REPLAY (R256, R257), once every earlier access of the hart is performed. In U-mode it raises the illegal-instruction
exception. -/
def execGxReplay (d a : BitVec 5) (s : State) : Result :=
  .next (
    let k := s.hart s.ev.hart
    if k.mode = .u ∨ k.mode = .vu then
      s.setHart s.ev.hart (k.illegalAt (BitVec.ofNat 32 (a.toNat * 2 ^ 15 + 2 ^ 12 + d.toNat * 2 ^ 7 + 0x0B)))
    else if hartOpen s s.ev.hart then s
    else
      let v := (k.get a).toNat
      let ctx : BitVec 12 := BitVec.ofNat 12 v
      let desc := descriptor s ctx
      if 4096 ≤ v ∨ !desc.valid ∨ (desc.part ≠ k.part ∧ k.part ≠ 0) then hartResult s d (statusWord 5 0)
      else
        let r := replayUnits s ctx
        let n := r.2.cmds.countP (fun c => c.ctx == ctx && c.parked)
        let t := { r.2 with cmds := r.2.cmds.map (fun c => if c.ctx == ctx then { c with parked := false } else c) }
        hartResult t d (statusWord 0 (r.1 + n)))

/-! ### FORK (R149) -/

/-- A name lookup of FORK or GWALK: one issue on path nlk, done at once; its counter falls once every older issue there is done
(R132, R149). -/
def Warp.countLookup (x : Warp) : Warp :=
  { x with paths := dropDone (x.paths ++ [⟨5, x.nextId, [], true⟩]) [], nextId := x.nextId + 1 }

/-- The FORK's and GWALK's release at `.d`, the wait for the warp's loads, room on path nlk, the lookup; its reads are counted once it is
done (R122). -/
def forkReady (s : State) (go : State → State) : State :=
  if !s.unit.fenced then s.hold (.fenceRel 3)
  else if !(openLoads s.cw).isEmpty then s.hold .loads
  else pathRoom s 5 true (fun t =>
    let u := go t
    if u.cur.status == .ok then (countLines u).setCw (countLines u).cw.countLookup else u)

/-- The argument words of the lanes, each lane's with its sector's poison and the unit's own stores forwarded; none while tokens are
missing. -/
def argWords : List (Nat × Nat × Bool) → State → Option (List (Nat × Nat × Bool × W64)) × State
  | [], s => (some [], s)
  | p :: ps, s =>
    match scalarSector s (p.2.1 / 64) p.2.2 with
    | (none, t) => (none, (argWords ps t).2)
    | (some (d, poison), t) =>
      let bs := sectorBytes d (p.2.1 % 64) 8
      let v : W64 := BitVec.ofNat 64 (leValue (if p.2.2 then bs else forwardAll s.cw s.unit p.2.1 bs))
      match argWords ps t with
      | (some vs, u) => (some ((p.1, p.2.1, poison, v) :: vs), u)
      | (none, u) => (none, u)

/-- The children of a FORK, one for each argument word. -/
def addChildren (s : State) (blk : Nat) (ctx : BitVec 12) (r : LaunchRec) (args : List W64) : State :=
  args.foldl (fun t v =>
    let b := t.block blk
    let t1 := t.setBlock blk { b with children := b.children + 1, nextChild := b.nextChild + 1 }
    addGrid t1 ctx r (.block blk b.nextChild) (BitVec.ofNat 64 b.nextChild) v) s

/-- The FORK under way is over: the hold that it has from its lookup is released (R179, R263). -/
def endFork (s : State) : State :=
  match s.unit.fork with
  | none => s
  | some f => dropHold (s.setUnit (fun v => { v with fork := none })) f.name.toNat

/-- FORK once its record is known: the argument words of the taken lanes, all checked before any child is created. -/
def forkArgs (s : State) (d : BitVec 6) (sb : Nat) (r : LaunchRec) : State :=
  let lanes := lanesOf s.taken
  let p := placeGlobal s .load 8 (lanes.map (fun l => ⟨l, (sb + 8 * l) % 2 ^ 64, 0, 8, false⟩))
  match verdict p.1 with
  | .wait => waitRead p.2
  | .trap c bad addr =>
    if c = 4 ∧ tornDown p.2 p.2.cw.ctx then endTorn p.2
    else (endFork p.2).trap { vec := 2, cause := c, fmask := some bad, faddr := addr }
  | .park vas => (recordFaults p.2 p.2.cw.core p.2.cw.ctx vas false false).hold (.fault false)
  | .pass =>
    let args := p.1.filterMap (fun e => match e.2 with
      | .ok da ros => some (e.1.lane, da, ros)
      | _ => none)
    match argWords args p.2 with
    | (none, t) => waitRead t
    | (some vs, t) =>
      let bad := vs.filter (·.2.2.1)
      if !bad.isEmpty then
        (noteConsumed (endFork t) t.cw ((bad.map (·.2.1)).headD 0 / 64) (maskOf (bad.map (·.1)))).trap
          { vec := 2, cause := 5, fmask := some (maskOf (bad.map (·.1))), faddr := (sb + 8 * (bad.map (·.1)).headD 0) / 64 * 64 }
      else if 4096 < (t.cblk).children + vs.length ∨ 1024 < (queueOf t t.cw.ctx r.prio).length + vs.length then
        (t.setUnit (fun v => { v with latch := t.cur.reads })).hold .children
      else endFork ((addChildren t t.cw.blk t.cw.ctx r (vs.map (·.2.2.2))).setSreg d.toNat (BitVec.ofNat 64 vs.length))

/-- FORK once its lookup has found a name of KIND 7: the record is read once, as a snapshot (R231). -/
def forkRecord (s : State) (d : BitVec 6) (f : ForkWait) (sb : Nat) : State :=
  match f.launch with
  | some r => forkArgs s d sb r
  | none =>
    match unreadable s (launchAgent s) s.cw.ctx (bodyBase f.w0) 128, recordAt s s.cw.ctx f.w0 f.w1 with
    | sec :: secs, _ => waitRead (askFor s (launchAgent s) (sec :: secs))
    | [], .error st => endFork (s.setSreg d.toNat (statusWord st 0))
    | [], .ok r =>
      forkArgs ((takeRead s (launchAgent s) s.cw.ctx (bodyBase f.w0) 128).setUnit (fun v => { v with fork := some { f with launch := some r } })) d sb r

/-- FORK's lookup: a name that leads to no launch record has its status in sd; else the FORK holds the object until it is complete
(R179, R263). -/
def forkLook (s : State) (d : BitVec 6) (name : BitVec 128) (sb : Nat) : State :=
  match bodyOf s s.cw.ctx name 7, lookupFor s s.cw.ctx name with
  | .ok e, .ok key =>
    (match takeHold s key with
      | none => waitRead (askEntry s key)
      | some t =>
        let f : ForkWait := ⟨BitVec.ofNat 64 (nameCounter name), e.w0, e.w1, none⟩
        forkRecord (t.setUnit (fun v => { v with fork := some f })) d f sb)
  | .error st, _ => s.setSreg d.toNat (statusWord st 0)
  | _, .error st => s.setSreg d.toNat (statusWord st 0)

/-- FORK (R149, R187): its guard acts per lane, so it looks its name up even when no lane is taken. -/
def execSfork (d a b : BitVec 6) (s : State) : Result :=
  .next (forkReady s (fun s =>
    match s.unit.fork with
    | some f => forkRecord s d f (s.sreg b.toNat).toNat
    | none => readScalar s (s.sreg a.toNat).toNat 16 (fun bs t => forkLook t d (nameOf bs) (t.sreg b.toNat).toNat)))

/-! ### JOIN (R151) -/

/-- A warp stands at JOIN. -/
def atJoin (x : Warp) : Bool := x.arch.units.length == 1 && x.arch.units.all (fun v => v.hold == .atJoin)

/-- Every unended warp of a block stands at JOIN. -/
def blockAtJoin (s : State) (blk : Nat) : Bool := (s.blockWarps blk).all (fun e => e.2.ended || atJoin e.2)

/-- Every warp of a block leaves JOIN. -/
def leaveJoin (s : State) (blk : Nat) : State :=
  let go (v : IUnit) : IUnit := if v.hold == .atJoin then { v with hold := .none, passed := true } else v
  { s with warps := s.warps.map (fun e =>
      if e.2.blk == blk then (e.1, { e.2 with arch := { e.2.arch with units := e.2.arch.units.map go } }) else e) }

/-- Stop a block: its units issue no more (R238). -/
def stopBlock (s : State) (blk : Nat) : State :=
  let b := s.block blk
  let s1 := s.setBlock blk { b with status := .stopping, stoppedAt := s.nextId }
  { s1 with nextId := s.nextId + 1, warps := s1.warps.map (fun e => if e.2.blk == blk then (e.1, { e.2 with stopped := true }) else e) }

/-- What JOIN brings about once the block's warps stand at it: without children they go on; else the block, with its cluster, is
suspended. -/
def joinCheck (s : State) (blk : Nat) : State :=
  let b := s.block blk
  if b.status != .resident || !blockAtJoin s blk || unendedWarps s blk = 0 then s
  else if b.children = 0 then leaveJoin s blk
  else
    let others := b.cluster.filter (· != blk)
    let stands (k : Nat) : Bool := (s.block k).status == .ended || ((s.block k).status == .resident && blockAtJoin s k && (s.block k).children != 0)
    if others.all stands then
      (blk :: others.filter (fun k => (s.block k).status == .resident)).foldl (fun t k =>
        let u := stopBlock t k
        u.setBlock k { u.block k with joining := true }) s
    else s

/-- JOIN (R151), for the merged warp, once the warp's loads have returned (R303). -/
def execSjoin (s : State) : Result :=
  .next (
    if s.unit.passed then s.decide { kind := .join, taken := s.cur.lanes, dest := s.unit.nextHeader, rets := [], checked := false }
    else if !(openLoads s.cw).isEmpty then s.hold .loads
    else joinCheck (s.hold .atJoin) s.cw.blk)

/-- A suspended block, with its cluster, may be restored when no child is outstanding. -/
def suspendedReady (s : State) (blk : Nat) : State :=
  let group := (s.block blk).cluster.filter (fun k => (s.block k).status == .suspended)
  let all := (s.block blk).cluster.all (fun k => let b := s.block k; b.status == .ended || (b.status == .suspended && b.children == 0))
  if all then group.foldl (fun t k => t.setBlock k { t.block k with status := .ready }) s else s

/-- One child of a block has completed (R151). -/
def childDone (s : State) (blk : Nat) : State :=
  let b := s.block blk
  let s1 := s.setBlock blk { b with children := b.children - 1 }
  match b.status with
  -- A block at JOIN that waits for its cluster has now no child outstanding: it goes on. DEDUCED (log entry 87).
  | .resident => joinCheck s1 blk
  | .suspended => suspendedReady s1 blk
  | _ => s1

/-! ### Task graphs (R150, R242, R243) -/

/-- A node as the walker reads it. -/
structure NodeRec where
  type : Nat
  npred : Nat
  succ : List Nat
  name : BitVec 128
  a : W64
  b : W64
  len : W64
  arg : W64
deriving DecidableEq, Repr, Inhabited

/-- Node i of a graph at `base`. -/
def readNode (s : State) (ctx : BitVec 12) (base i : Nat) : Option NodeRec :=
  (readVirtual s ctx (base + 64 + 64 * i) 64).map (fun bs =>
    let f (o n : Nat) : Nat := leValue ((bs.drop o).take n)
    { type := f 0 1, npred := f 1 1, succ := [f 4 2, f 6 2, f 8 2, f 10 2], name := BitVec.ofNat 128 (f 16 16),
      a := BitVec.ofNat 64 (f 32 8), b := BitVec.ofNat 64 (f 40 8), len := BitVec.ofNat 64 (f 48 8), arg := BitVec.ofNat 64 (f 56 8) })

/-- The walker's agent (R268). -/
def walkerAgent (s : State) : BitVec 13 := ownAgent s.sys 220

/-- The counts of a graph's nodes at its start. -/
def startNodes (s : State) (ctx : BitVec 12) (base n : Nat) : List NodeState :=
  (List.range n).map (fun i =>
    let p := ((readNode s ctx base i).map (·.npred)).getD 0
    { npred := p, count := p, ready := p == 0, running := false, cond := false, result := none })

/-- STATUS at a graph's end. -/
def graphStatus (g : Graph) : W64 :=
  if g.status ≠ 0 then g.status
  else if g.nodes.any (fun n => decide (0 < n.count) && decide (n.count < n.npred)) then statusWord 8 0 else 0

/-- No node runs, and none will start. -/
def graphIdle (g : Graph) : Bool := !g.ended && g.nodes.all (fun n => !n.running && (!n.ready || g.status != 0))

/-- A graph without a running or ready node ends: STATUS is stored, its name's hold released, and its block has one child less. The
end waits while the walker lacks tokens of STATUS; where STATUS cannot be stored nothing is. -/
def endGraph (s : State) (gid : Nat) : State :=
  match Sparse.find s.graphs gid with
  | none => s
  | some g =>
    if !graphIdle g then s
    else
      match storeVirtual s (walkerAgent s) g.ctx (g.base + 8) (leSplit 8 (graphStatus g).toNat) with
      | (some _, t) => childDone (dropHold (t.setGraph gid { g with ended := true }) g.name.toNat) g.blk
      | (none, t) => t

/-- The sectors of a graph of KIND 3 that the walker cannot read now: the header's, then the nodes'. -/
def graphWaits (s : State) (ctx : BitVec 12) (base : Nat) : List (Nat × Bool) :=
  match unreadable s (walkerAgent s) ctx base 64 with
  | [] => (match readVirtual s ctx base 64 with
    | some bs => unreadable s (walkerAgent s) ctx (base + 64) (64 * leValue (bs.take 2))
    | none => [])
  | secs => secs

/-- The walker reads a graph's header and its `n` nodes under the tokens it takes. -/
def takeGraph (s : State) (ctx : BitVec 12) (base n : Nat) : State :=
  takeRead (takeRead s (walkerAgent s) ctx base 64) (walkerAgent s) ctx (base + 64) (64 * n)

/-- The walker's read of node i waits for these sectors. -/
def nodeWaits (s : State) (g : Graph) (i : Nat) : List (Nat × Bool) := unreadable s (walkerAgent s) g.ctx (g.base + 64 + 64 * i) 64

/-- GWALK once its name is read. A KIND 3 name whose header cannot be read gives status 3. DESIGN CHOICE (log entry 88). -/
def gwalkGo (s : State) (d : BitVec 6) (name : BitVec 128) : State :=
  let x := s.cw
  match lookupFor s x.ctx name with
  | .error st => s.setSreg d.toNat (statusWord st 0)
  | .ok key =>
    let e := nameEntry s key
    let base := bodyBase e.w0
    let waits := if bodyKind e.w0 = 3 then graphWaits s x.ctx base else []
    if !waits.isEmpty then waitRead (askFor s (walkerAgent s) waits)
    else match (if bodyKind e.w0 = 3 then readVirtual s x.ctx base 64 else none) with
    | none => s.setSreg d.toNat (statusWord 3 0)
    | some bs =>
      let v : W64 := BitVec.ofNat 64 (nameCounter name)
      if s.graphs.any (fun g => g.2.name == v && !g.2.ended) then s.setSreg d.toNat (statusWord 4 0)
      else if 4096 ≤ (s.cblk).children then (s.setUnit (fun v => { v with latch := s.cur.reads })).hold .children
      else
        let g : Graph := { ctx := x.ctx, name := v, base := base, blk := x.blk, engine := engineOf x.core, core := x.core, cls := x.cls,
                           nodes := startNodes s x.ctx base (leValue (bs.take 2)), status := 0, ended := false }
        match takeHold (takeGraph s x.ctx base (leValue (bs.take 2))) key with
        | none => waitRead (askEntry s key)
        | some t =>
          let b := t.cblk
          let s1 := t.setBlock x.blk { b with children := b.children + 1 }
          let s2 := { (s1.setGraph s.nextId g) with nextId := s.nextId + 1 }
          endGraph (s2.setSreg d.toNat 0) s.nextId

/-- GWALK (R150). -/
def execSgwalk (d a : BitVec 6) (s : State) : Result :=
  scalarDo s (fun s => forkReady s (fun s => readScalar s (s.sreg a.toNat).toNat 16 (fun bs t => gwalkGo t d (nameOf bs))))

/-- The walker reads node i under the tokens it takes. -/
def takeNode (s : State) (g : Graph) (i : Nat) : State := takeRead s (walkerAgent s) g.ctx (g.base + 64 + 64 * i) 64

/-- A node's state changed. -/
def modNode (g : Graph) (n : Nat) (f : NodeState → NodeState) : Graph := { g with nodes := modAt g.nodes n f }

/-- The command of a copy or collective node. -/
def nodeCmd (s : State) (gid n : Nat) (g : Graph) (kind : CmdKind) (x y : W64) (len : Nat) : Cmd :=
  { seq := nextSeq s, owner := .node gid n, engine := g.engine, core := g.core, blk := g.blk, ctx := g.ctx, cls := g.cls, kind := kind, x := x, y := y,
    len := len, sd := 0, cf := 15, stage := .issued, waits := [], pos := 0, segEnd := 0, pins := [], pages := [], buf := [],
    stop := none, parked := false, desc := [], comm := none, name := none, pair := none, round := none }

/-- A malformed node ends the graph with status 9. -/
def badNode (s : State) (gid n : Nat) (g : Graph) : State :=
  endGraph (s.setGraph gid { (modNode g n (fun e => { e with ready := false })) with
    status := if g.status = 0 then statusWord 9 0 else g.status }) gid

/-- A ready node starts (R243). A kernel node takes the next child ordinal of the block that issued GWALK, which its grid stores at
DONE (R236). -/
def startNode (s : State) (gid n : Nat) (g : Graph) (r : NodeRec) : State :=
  let run (res : Option W64) (c : Bool) : Graph :=
    modNode g n (fun e => { e with count := e.npred, ready := false, running := true, cond := c, result := res })
  match r.type with
  | 1 =>
    let waits := recordWaits s g.ctx r.name
    if !waits.isEmpty then askFor s (launchAgent s) waits
    else match launchRecord s g.ctx r.name with
    | .error st => s.setGraph gid (run (some (statusWord st 0)) false)
    | .ok l =>
      if 1024 ≤ (queueOf s g.ctx l.prio).length then s
      else
        let b := s.block g.blk
        let s1 := ((takeRecord s g.ctx r.name).setGraph gid (run none false)).setBlock g.blk { b with nextChild := b.nextChild + 1 }
        addGrid s1 g.ctx l (.node gid n) (BitVec.ofNat 64 b.nextChild) r.arg
  | 2 =>
    if (badOperand [(r.a, true), (r.b, true)] r.len.toNat 4).isSome then badNode s gid n g
    else
      let s1 := s.setGraph gid (run none false)
      { s1 with cmds := s1.cmds ++ [nodeCmd s gid n g (.ecpy false false 0) r.a r.b r.len.toNat] }
  | 3 =>
    if r.a.toNat % 64 ≠ 0 then badNode s gid n g
    else
      let s1 := s.setGraph gid (run none false)
      { s1 with cmds := s1.cmds ++ [nodeCmd s gid n g (.epkt false 0) 0 r.a 0] }
  | 4 | 5 =>
    let waits := unreadable s (walkerAgent s) g.ctx r.a.toNat 8
    if !waits.isEmpty then askFor s (walkerAgent s) waits
    else match readVirtual s g.ctx r.a.toNat 8 with
    | none => s.setGraph gid (run (some (statusWord 4 r.a.toNat)) false)
    | some bs => (takeRead s (walkerAgent s) g.ctx r.a.toNat 8).setGraph gid (run (some 0) (leValue bs != 0))
  | 6 => s.setGraph gid (run (some 0) false)
  | _ => badNode s gid n g

/-- GRAPH_NODE_START (R243): node `ev.node` of graph `ev.k` is ready and starts; none starts once a status is not 0. -/
def execGraphNodeStart (s : State) : Result :=
  .next (match Sparse.find s.graphs s.ev.k with
    | none => s
    | some g =>
      match g.nodes[s.ev.node]? with
      | none => s
      | some n =>
        if !n.ready || n.running || g.ended || g.status != 0 then s
        else
          match nodeWaits s g s.ev.node, readNode s g.ctx g.base s.ev.node with
          | sec :: secs, _ => askFor s (walkerAgent s) (sec :: secs)
          | [], none => badNode s s.ev.k s.ev.node g
          | [], some r => startNode (takeNode s g s.ev.node) s.ev.k s.ev.node g r)

/-- One edge into a node. -/
def edgeTo (g : Graph) (t : Nat) : Graph :=
  modNode g t (fun e => if e.count = 0 then e else { e with count := e.count - 1, ready := e.ready || e.count == 1 })

/-- The nodes that a completed node's edges go to. -/
def successors (r : NodeRec) (cond : Bool) : List Nat :=
  if r.type = 4 ∨ r.type = 5 then [if cond then r.succ.headD 0xFFFF else (r.succ.drop 1).headD 0xFFFF] else r.succ

/-- GRAPH_NODE_COMPLETE (R243): the work of node `ev.node` has ended; its edges go out, and the graph may end. -/
def execGraphNodeComplete (s : State) : Result :=
  .next (match Sparse.find s.graphs s.ev.k with
    | none => s
    | some g =>
      match g.nodes[s.ev.node]? with
      | none => endGraph s s.ev.k
      | some n =>
        match n.running, n.result with
        | true, some st =>
          match nodeWaits s g s.ev.node with
          | sec :: secs => askFor s (walkerAgent s) (sec :: secs)
          | [] =>
          let g1 := modNode g s.ev.node (fun e => { e with running := false, result := none })
          let g2 := { g1 with status := if g.status = 0 ∧ bitsOf st.toNat 56 8 ≠ 0 then st else g.status }
          let next := match readNode s g.ctx g.base s.ev.node with
            | some r => (successors r n.cond).filter (· != 0xFFFF)
            | none => []
          endGraph ((takeNode s g s.ev.node).setGraph s.ev.k (next.foldl edgeTo g2)) s.ev.k
        | _, _ => endGraph s s.ev.k)

end Sys2Proof.Machine
end

