-- ==== Sys2Proof/Machine/SaveArea.lean ====
section
/-! DEFINITION. What pre-emption writes: a warp's vector context and control area (R191, R239) and a block's save area (R240), as
bytes at their offsets. Offsets within these areas are the manual's; at which address an area
stands in an ashlar's register carve-out or in stacked DRAM is the launch unit's own affair (log entry 97). -/

namespace Sys2Proof.Machine

/-- Bytes put at an offset. -/
def putAt (m : Sparse Byte) (off : Nat) (bs : List Byte) : Sparse Byte := Sparse.setRun 0 m off bs

/-- Words put at their offsets. -/
def putWords64 (m : Sparse Byte) (ws : List (Nat × W64)) : Sparse Byte := ws.foldl (fun m e => putAt m e.1 (leSplit 8 e.2.toNat)) m

/-- Elements with their places. -/
def numbered {α : Type} (l : List α) : List (Nat × α) := (List.range l.length).zip l

/-! ### The vector context (R191) -/

/-- The byte of register `r` of lane `lane` in a vector context: granule (g, p) at (8g + p) × 1024, byte 32j + 4l within it. -/
def contextByte (r lane : Nat) : Nat := (8 * (r / 32) + lane / 8) * 1024 + 32 * (r % 32) + 4 * (lane % 8)

/-- A warp's vector context; an undefined register (R37) is written as a free value. -/
def vectorContext (a : WarpArch) (free : Nat) : Sparse Byte :=
  (List.range 16384).foldl (fun m k =>
    putAt m (contextByte (k / 64) (k % 64)) (leSplit 4 (a.getV free (k / 64) (k % 64)).toNat)) []

/-! ### The control area (R184, R239) -/

/-- Return stacks: lane l's entries at 256l, 8 bytes each, the oldest first. -/
def returnWords (a : WarpArch) : List (Nat × W64) :=
  a.rstk.flatMap (fun e => (numbered e.2.reverse).map (fun k => (256 * e.1 + 8 * k.1, BitVec.ofNat 64 k.2)))

/-- The entry and the root bit of a key, as bits [6:0] of a slot record. -/
def keyCode : Option Nat → Nat
  | some e => e
  | none => 64

/-- The address a unit stands at. -/
def IUnit.pcOf (v : IUnit) : Nat := v.pos.hdr + 8 * v.pos.idx

/-- Reconvergence stacks: ply p's entries at 0x4000 + 1024p, 16 bytes each, the oldest first. The manual gives an entry's size and not
its coding. -/
def reconvWords (a : WarpArch) : List (Nat × W64) :=
  (List.range 8).flatMap (fun p =>
    (numbered (a.stack.filter (fun v => v.ply == p))).flatMap (fun e =>
      ([0, 1] : List Nat).map (fun k =>
        (0x4000 + 1024 * p + 16 * e.1 + 8 * k, Config.saveWord 0x4000 [k, e.2.pcOf, e.2.lanes.toNat, keyCode e.2.key, e.2.age]))))

/-- The three words of a split-table entry. -/
def splitWords (e : Nat) (x : Split) : List (Nat × W64) :=
  let root := match x.parent with
    | some p => p * 2 ^ 40
    | none => 2 ^ 62
  [(0x6000 + 24 * e, x.lanes), (0x6000 + 24 * e + 8, x.waiting),
   (0x6000 + 24 * e + 16, BitVec.ofNat 64 (2 ^ 63 + root + x.serial.toNat * 2 ^ 24 + x.addr.toNat))]

/-- Scalar registers, predicates, status, flags, batch and format registers. p0 is saved as all ones. -/
def registerWords (a : WarpArch) : List (Nat × W64) :=
  a.sregs.map (fun e => (0x6600 + 8 * e.1, e.2)) ++ [(0x6800, BitVec.allOnes 64)] ++ a.preds.map (fun e => (0x6800 + 8 * e.1, e.2))
    ++ [(0x6880, a.nstat), (0x6888, BitVec.ofNat 64 (a.serial.toNat * 2 ^ 16 + a.flags.toNat)), (0x6890, a.batch)]
    ++ a.fmt.flatMap (fun (e : Nat × BitVec 128) => [(0x6928 + 16 * e.1, e.2.setWidth 64), (0x6928 + 16 * e.1 + 8, (e.2 >>> 64).setWidth 64)])

/-- The monitor, the release round and the touched homes. -/
def roundWords (x : Warp) : List (Nat × W64) :=
  (match x.mon with
    | some m => [(0x6898, BitVec.ofNat 64 (2 ^ 63 + bitsOf m.va 7 49 * 2 ^ 7))]
    | none => [])
    ++ [(0x68A0, x.round.setWidth 64)]
    ++ (numbered x.touched).map (fun e =>
      (0x68A8 + 8 * e.1, BitVec.ofNat 64 (2 ^ 63 + e.2.module.toNat * 2 ^ 20 + e.2.home.toNat * 2 ^ 16 + e.2.count % 65536)))

/-- The park reason of a slot record. -/
def parkReason (v : IUnit) : Nat :=
  match v.hold with
  | .reconv => 1
  | .cross => 2
  | .regang | .wholeWarp => 3
  | .tret => 4
  | .fault _ => 5
  | _ => 0

/-- Word 3 of a slot record: the phase that a barrier wait awaits, or the lanes that still wait in LDF or STE. -/
def waitWord (v : IUnit) : W64 :=
  match v.hold with
  | .barrier _ _ ph _ => ph.setWidth 64
  | _ => v.fe

/-- The slot record and the trap frame of the slot of ply `p` that a unit holds; a secondary slot's fragment is its ply's (R183). -/
def slotWords (x : Warp) (v : IUnit) (p : Nat) : List (Nat × W64) :=
  let at_ := 0x6A00 + 64 * p + 32 * boolNat v.sec
  let fragment := if v.sec then ((x.arch.units.find? (isPrimaryOf p)).map (·.lanes)).getD v.lanes else v.lanes
  let first := ((List.range 8).find? (fun q => fragment &&& plyMask q != 0)).getD p
  let word2 := keyCode v.key + v.age % 64 * 2 ^ 8 + Sparse.get 0 x.stackCtr p % 64 * 2 ^ 16 + boolNat v.trap.isSome * 2 ^ 24
    + parkReason v * 2 ^ 25 + boolNat v.skip * 2 ^ 28 + first * 2 ^ 29
  let frames := v.trap.toList ++ v.more
  let frame := (frames.find? (fun f => f.fact &&& plyMask p != 0)).orElse (fun _ => v.trap)
  [(at_, BitVec.ofNat 64 v.pcOf), (at_ + 8, v.lanes &&& plyMask p), (at_ + 16, BitVec.ofNat 64 word2), (at_ + 24, waitWord v)]
    ++ (match frame with
      | some f => (List.range 8).map (fun k => (0x6C00 + 128 * p + 64 * boolNat v.sec + 8 * k, f.word k))
      | none => [])

/-- The slots of every ply: a fragment holds the primary slot of each ply in which it has lanes. -/
def unitWords (x : Warp) : List (Nat × W64) :=
  x.arch.units.flatMap (fun v =>
    ((List.range 8).filter (fun p => if v.sec then v.ply == p else v.lanes &&& plyMask p != 0)).flatMap (slotWords x v))

/-- A warp's control area. -/
def controlArea (x : Warp) : Sparse Byte :=
  putWords64 [] (returnWords x.arch ++ reconvWords x.arch ++ x.arch.splits.flatMap (fun e => splitWords e.1 e.2)
    ++ registerWords x.arch ++ roundWords x ++ unitWords x)

/-! ### The block's save area (R240) -/

/-- A counter's word (R170). -/
def ctrWord (c : ChunkCtr) : W64 := BitVec.ofNat 64 (boolNat c.armed * 2 ^ 32 + c.target.toNat * 2 ^ 16 + c.count.toNat)

/-- How far the halted EFILL of a FIFO has come. -/
def fillProgress (s : State) (blk f : Nat) : Nat :=
  match s.cmds.find? (fun c => c.blk == blk && (match c.kind with
      | .efill _ g => g.toNat == f
      | _ => false)) with
  | some c => c.pos
  | none => 0

/-- The operands of a matrix instruction. -/
def mmWords (o : MmOp) : List Nat :=
  [o.acc.toNat, o.fa.toNat, o.fb.toNat, o.fmt.toNat, o.kc.toNat, boolNat o.za, boolNat o.fuse]

/-- The number of the batch that a matrix instruction belongs to: a closed one, else the one still open (R168). -/
def batchOf (s : State) (m : MatOp) : Nat :=
  let x := s.warp m.warp
  match x.batches.find? (fun b => b.members.contains m.id) with
  | some b => b.no.toNat
  | none => x.arch.batch.toNat + 1

/-- The header and the words of unstarted matrix instructions, whose places within their bytes the manual does not give. -/
def headWords (s : State) (blk : Nat) : List (Nat × W64) :=
  let b := s.block blk
  (List.range 32).map (fun k => (8 * k, Config.saveWord 0 [k, b.grid, b.idx, (b.cluster.idxOf blk), b.children, b.nextChild]))
    ++ (numbered (b.mq.filter (fun m => !m.started))).flatMap (fun e => (List.range 4).map (fun k =>
      (0x1000 + 32 * e.1 + 8 * k, Config.saveWord 0x1000 ([k, (s.warp e.2.warp).idx, e.2.id, boolNat e.2.mss, e.2.fmt.toNat, e.2.rows.toNat, batchOf s e.2]
        ++ mmWords e.2.op
        ++ (e.2.scaleA ++ e.2.scaleB).flatMap (fun z => [z.1, z.2.toNat])))))

/-- Chunk counters and FIFO levels. -/
def levelWords (s : State) (blk : Nat) : List (Nat × W64) :=
  let b := s.block blk
  b.ctrs.map (fun e => (0x100 + 8 * e.1, ctrWord e.2))
    ++ (List.range 8).map (fun f =>
      (0x200 + 8 * f, BitVec.ofNat 64 (fillProgress s blk f % 2 ^ 32 * 2 ^ 32 + (Sparse.get [] b.fifos f).length)))

/-- The image of the full/empty bits: bit w mod 8 of byte w ÷ 8. -/
def fullImage (m : Sparse Byte) (full : Sparse Bool) : Sparse Byte :=
  full.foldl (fun m e =>
    let k := 0x310000 + e.1 / 8
    if e.2 then Sparse.set 0 m k (Sparse.get 0 m k ||| (1 : Byte) <<< (e.1 % 8)) else m) m

/-- Tile elements by their place, those of lanes that were never live as free values where unwritten (R103). -/
def tileWords (a : WarpArch) : List (Nat × W32) :=
  if a.unborn = 0 then a.acc
  else (List.range 16384).map (fun k => (k, a.getAcc (k / 4096) (k / 64 % 64) (k % 64)))

/-- A block's save area. -/
def blockArea (s : State) (blk : Nat) : Sparse Byte :=
  let b := s.block blk
  let m0 := putWords64 [] (headWords s blk ++ levelWords s blk)
  let m1 := (s.blockWarps blk).foldl (fun m e =>
    (tileWords e.2.arch).foldl (fun m t => putAt m (0x10000 + 0x10000 * e.2.idx + 4 * t.1) (leSplit 4 t.2.toNat)) m) m0
  let m2 := b.fifos.foldl (fun m e => putAt m (0x110000 + 0x10000 * e.1) e.2) m1
  fullImage (b.sp.foldl (fun m e => putAt m (0x190000 + e.1) [e.2]) m2) b.full

/-! ### The register carve-out (R191, R334) -/

/-- Bytes of a warp's context, and of a block's save area. -/
def contextBytes : Nat := 0x18000
def areaBytes : Nat := 0x31C000

/-- Bytes taken in an ashlar's register carve-out: the contexts of warps, the undo logs of placed blocks (R308), and the save areas
(R240), but for what has spilled. -/
def carveUsed (s : State) (a : Nat) : Nat :=
  contextBytes * s.warps.countP (fun e => ashlarOf e.2.core == a && !e.2.ended)
    + ((s.blocks.filter (fun e => ashlarOf e.2.core == a && (e.2.status == .resident || e.2.status == .stopping) && !e.2.logSpilled)).map
        (fun e => 2 * e.2.spAlloc)).sum
    + areaBytes * s.areas.countP (fun e => e.2.ashlar == a && !e.2.spilled)

/-- The 64 MiB register carve-out of an ashlar has no room for `n` bytes: they spill to stacked DRAM (R334). -/
def carveFull (s : State) (a n : Nat) : Bool := decide (2 ^ 26 < carveUsed s a + n)

/-- The areas of a block are written (R238). -/
def writeAreas (s : State) (blk : Nat) : State :=
  let ws := s.blockWarps blk
  let a := ashlarOf (s.block blk).core
  let area : SaveArea := {
    ashlar := a, spilled := carveFull s a areaBytes
    block := blockArea s blk
    warps := ws.map (fun e => (e.1, vectorContext e.2.arch s.free, controlArea e.2)) }
  { s with areas := Sparse.insert blk area s.areas, free := s.free + 1 }

/-- The areas of a block are free again: it is restored, or has ended. -/
def freeAreas (s : State) (blk : Nat) : State := { s with areas := Sparse.erase blk s.areas }

end Sys2Proof.Machine
end

