-- ==== Sys2Proof/Machine/Units.lean ====
section
/-! DEFINITION. Units between issues: header waits (R37), ageing and rotation (R189), the convergence trap (R105, R141), and
the register cache (R192). -/

namespace Sys2Proof.Machine

/-- The unit an event names. -/
def eventUnit (s : State) : IUnit := (s.warp s.ev.w).unit s.ev.u

def State.setEventUnit (s : State) (f : IUnit → IUnit) : State := s.setWarp s.ev.w ((s.warp s.ev.w).setUnit s.ev.u f)

/-- HEADER_WAIT_END (R37): every flag of the header's WAIT mask is set, and the unit may issue. -/
def execHeaderWaitEnd (s : State) : Result :=
  .next (
    let v := eventUnit s
    if v.hold == .headerWait && waitMet (s.warp s.ev.w).arch.flags v.pos.head.wait then
      s.setEventUnit (fun v => { v with hold := .none })
    else s)

/-- AGEING_COUNTER_SATURATE (R189): a unit's counter reaches 63. -/
def execAgeingCounterSaturate (s : State) : Result :=
  .next (if (eventUnit s).age = 62 then s.setEventUnit (fun v => { v with age := 63 }) else s)

/-! ### Rotation (R189, R141) -/

/-- The first entry of a ply in the stack list: its oldest. -/
def oldestEntry (a : WarpArch) (p : Nat) : Option Nat := indexOf (fun v => v.ply == p) a.stack

/-- The secondary slot's contents go onto the top of the ply's stack and the oldest entry becomes the secondary slot. -/
def rotatePly (a : WarpArch) (p : Nat) : WarpArch :=
  match oldestEntry a p with
  | none => a
  | some k =>
    match a.stack[k]? with
    | none => a
    | some e =>
      let rest := dropAt a.stack k
      match indexOf (isSecondaryOf p) a.units with
      | none => { a with units := a.units ++ [e], stack := rest }
      | some u => { a with units := setAt a.units u e, stack := rest ++ [(a.units[u]?).getD {}] }

/-- Every unit in a live slot is parked (R141). -/
def allParked (a : WarpArch) : Bool := a.units.all (fun v => isParked v.hold && !v.entering)

def hasGranule (k : Core) (w which : Nat) : Bool := k.granules.any (fun g => g.warp == w && g.which == which)

/-- STACK_ROTATION (R189, R141): the ply's counter stands at 63, or every live slot is parked and the ply's stack holds an
entry that is not. -/
def execStackRotation (s : State) : Result :=
  .next (
    let x := s.warp s.ev.w
    let p := s.ev.lane
    let due := Sparse.get 0 x.stackCtr p == 63
    let urgent := allParked x.arch && (stackOf x.arch p).any (fun v => !isParked v.hold)
    if (due || urgent) && !(stackOf x.arch p).isEmpty then
      settle (s.setWarp s.ev.w { x with arch := rotatePly x.arch p, stackCtr := Sparse.set 0 x.stackCtr p 0 }) s.ev.w
    else s)

/-! ### The convergence trap (R105, R141) -/

/-- The bundle a unit stands at. -/
def bundleAt (s : State) (x : Warp) (v : IUnit) : Option Bundle :=
  match fetchWord s x.ctx v.bundleAddr with
  | none => none
  | some w =>
    match decodeBundle w with
    | .ok b => some b
    | .error _ => none

/-- The lanes where a guard passes among those of a mask. -/
def guardLanes (a : WarpArch) (b : Bundle) (m : Lanes) : Lanes :=
  let p := a.getP b.gpred.toNat
  m &&& (if b.gsense then p else ~~~p)

/-- The convergence a unit's bundle asks for now. -/
def unitConv (a : WarpArch) (v : IUnit) (b : Bundle) : Conv :=
  if v.skip then vectorConv b.vector
  else bundleConv b (v.trap.isSome && (!b.gscope || guardLanes a b v.lanes != 0))

/-- A parked unit's own condition is met. -/
def parkMet (s : State) (x : Warp) (u : Nat) : Bool :=
  let v := x.unit u
  if v.hold == .reconv then false
  else
    match bundleAt s x v with
    | none => true
    | some b => (convLanes x u (unitConv x.arch v b)).isSome

/-- Every live lane of the warp is parked and no unit's condition is met (R141). -/
def warpStuck (s : State) (x : Warp) : Bool :=
  !x.arch.units.isEmpty && allParked x.arch && x.arch.stack.all (fun v => isParked v.hold)
    && (List.range x.arch.units.length).all (fun u => !parkMet s x u)

/-- The unmet groups of a cross-lane unit whose live lanes are all parked at cross-lane bundles though no one issue can hold
them (R105). -/
def stuckGroups (s : State) (x : Warp) (u : Nat) : List Lanes :=
  let v := x.unit u
  match bundleAt s x v with
  | none => []
  | some b =>
    let c := unitConv x.arch v b
    let crossed := ((x.arch.units ++ x.arch.stack).filter (fun q => q.hold == .cross)).foldl (fun m q => m ||| q.lanes) (0 : Lanes)
    if v.hold == .cross && (convLanes x u c).isNone then
      (convGroups x c).filter (fun g =>
        g &&& v.lanes != 0 && x.arch.live &&& g &&& ~~~crossed == 0
          && !(x.arch.units ++ x.arch.stack).all (fun q => q.lanes &&& g == 0 || mayJoin v true q))
    else []

/-- The unit is parked at a cross-lane bundle with a lane of a stuck group, its own or another unit's (R105). -/
def groupStuck (s : State) (x : Warp) (u : Nat) : Bool :=
  (x.unit u).hold == .cross
    && (List.range x.arch.units.length).any (fun k => (stuckGroups s x k).any (fun g => g &&& (x.unit u).lanes != 0))

/-- A parked unit leaves its wait with the convergence trap, cause 1. -/
def trapParked (s : State) (w u : Nat) : State :=
  let x := s.warp w
  let v := x.unit u
  let t : TrapInfo := { vec := 4, cause := 1 }
  if v.hold == .reconv then
    let a := match v.key with
      | some e => modSplit x.arch e (fun sp => { sp with waiting := sp.waiting &&& ~~~v.lanes })
      | none => x.arch
    takeTrap (s.setWarp w { x with arch := a }) w u { t with fpc := some v.pos.hdr, atHeader := true }
  else
    takeTrap (s.setWarp w (x.setUnit u (fun v => { v with pos := { v.pos with idx := max 1 v.pos.idx } }))) w u t

/-- CONVERGENCE_TRAP (R105, R141): every parked unit of a stuck warp, or of a stuck group, traps. -/
def execConvergenceTrap (s : State) : Result :=
  .next (
    let w := s.ev.w
    let x := s.warp w
    let all := List.range x.arch.units.length
    if warpStuck s x then all.foldl (fun t u => trapParked t w u) s
    else (all.filter (groupStuck s x)).foldl (fun t u => trapParked t w u) s)

/-! ### The register cache (R192) -/

/-- Use granules: they become the most recently used, dirty where written. -/
def useGranules (k : Core) (w : Nat) (read write : List Nat) : Core :=
  let all := (read ++ write).eraseDups
  let touched := all.map (fun n => (⟨w, n, write.contains n || k.granules.any (fun g => g.warp == w && g.which == n && g.dirty)⟩ : Granule))
  { k with granules := touched ++ k.granules.filter (fun g => !(g.warp == w && all.contains g.which)) }

/-- Lanes that are not live and whose quad holds an active lane (R103). -/
def helpersOf (a : WarpArch) (active : Lanes) : Lanes :=
  quadsOf active &&& ~~~a.live

/-- The unit has begun its bundle in an earlier cc: a slot has executed, or it waits in one. -/
def IUnit.midBundle (v : IUnit) : Bool :=
  v.skip || v.issued || v.fenced || v.passed || (match v.hold with
    | .none | .headerWait | .reconv | .cross | .regang | .wholeWarp | .tret => false
    | _ => true)

/-- The unit is held by a condition that counts for donation (R190). -/
def countsForDonation (v : IUnit) : Bool :=
  match v.hold with
  | .monwait _ => v.wake.isNone
  | .fullEmpty => v.fe != 0
  | .barrier _ _ _ _ => true
  | _ => false

/-- The plies whose reconvergence stack the bundle that a unit issues for some lanes may push or pop (R192). A transfer pushes where it
finds the secondary slot taken, and RET also a third side; a slot that empties pops where the stack holds entries: at the end of a
block in the plies of the unit and of those that wait with its key, and in a merge at the bundle. -/
def stackPlies (a : WarpArch) (active : Lanes) (v : IUnit) (b : Bundle) : List Nat :=
  let tops (p : Nat) : Nat := ((((lanesOf (v.lanes &&& plyMask p)).map (fun l => (Sparse.get [] a.rstk l).head?)).eraseDups).length)
  let push (p : Nat) : Bool := match b.scalar with
    | some (.sbra _) | some (.scall _) | some (.sbrx _) => a.units.any (isSecondaryOf p)
    | some .sret => a.units.any (isSecondaryOf p) || decide (3 ≤ tops p + boolNat b.gscope)
    | _ => false
  let ends := decide (v.pos.head.len.toNat ≤ max 1 v.pos.idx)
  let partners := (a.units ++ a.stack).filter (fun q => q.hold == .reconv && q.key == v.key)
  let pops : Lanes := if ends then partners.foldl (fun m q => m ||| q.lanes) active else if active = v.lanes then 0 else active
  (List.range 8).filter (fun p => v.lanes &&& plyMask p != 0 && push p || pops &&& plyMask p != 0 && !(stackOf a p).isEmpty)

/-- The register-cache granules that the issue of a unit's bundle for some lanes, helpers among them, needs (R192): read, and written.
Granule 8 g + p is group g of ply p; 64 + k holds the return stacks of lanes 4 k to 4 k + 3, and 80 + p the reconvergence stack of
ply p. -/
def granulesOf (a : WarpArch) (lanes : Lanes) (v : IUnit) (b : Bundle) : List Nat × List Nat :=
  let u := regUse b.vector
  let ofRegs (rs : List Nat) : List Nat := ((rs.map (· / 32)).eraseDups).flatMap (fun g => (pliesOf lanes).map (fun p => 8 * g + p))
  let stk : List Nat := match b.scalar with
    | some (.scall _) | some .sret => ((lanesOf v.lanes).map (fun l => 64 + l / 4)).eraseDups
    | _ => []
  (ofRegs u.vr, ofRegs u.vw ++ stk ++ (stackPlies a (lanes &&& a.live) v b).map (80 + ·))

/-- Unit `u`'s bundle needs the granule; a bundle that it has begun only, if `begun`. -/
def needsGranule (s : State) (w n : Nat) (begun : Bool) (u : Nat) : Bool :=
  let x := s.warp w
  let v := x.unit u
  (!begun || v.midBundle) && (match bundleAt s x v with
    | none => false
    | some b =>
      let active := (convLanes x u (unitConv x.arch v b)).getD v.lanes
      let g := granulesOf x.arch (active ||| helpersOf x.arch active) v b
      g.1.contains n || g.2.contains n)

/-- A granule that an issued bundle has not finished with (R192): the destination of an outstanding load, and what a bundle that has
begun and not ended needs. -/
def granuleInUse (s : State) (g : Granule) : Bool :=
  let x := s.warp g.warp
  x.accs.any (fun c => match c.dest with
    | none => false
    | some d => !d.scalar && (c.parts.map (·.lane) ++ c.got.map (·.1)).any (fun l =>
        (List.range ((d.bytes + 3) / 4)).any (fun k => g.which == 8 * ((d.reg + k) / 32) + l / 8)))
    || (List.range x.arch.units.length).any (needsGranule s g.warp g.which true)

/-- The victim of a fill (R192): a granule of a group whose LIVE bit was 0 at the header its ply most recently entered, then one
of a warp that only waits, then the least recently used; none that is still in use. -/
def victim (s : State) (k : Core) : Option Granule :=
  let free := k.granules.reverse.filter (fun g => !granuleInUse s g)
  let deadFor (g : Granule) : Bool :=
    decide (g.which < 64) && !(Sparse.get 255 (s.warp g.warp).arch.plyLive (g.which % 8)).getLsbD (g.which / 8)
  let idle (g : Granule) : Bool := (s.warp g.warp).arch.units.all countsForDonation
  (free.find? deadFor) <|> (free.find? idle) <|> free.head?

/-- A unit of the warp misses the granule (R192). -/
def missesGranule (s : State) (w n : Nat) : Bool := (List.range (s.warp w).arch.units.length).any (needsGranule s w n false)

/-- REGCACHE_FILL (R192): a granule that a unit misses, or that a header entry has requested, is filled; a full cache gives up a
victim. -/
def execRegcacheFill (s : State) : Result :=
  .next (
    let x := s.warp s.ev.w
    let k := s.core x.core
    if hasGranule k s.ev.w s.ev.k || !(k.wanted.contains (s.ev.w, s.ev.k) || missesGranule s s.ev.w s.ev.k) then s
    else
      let wanted := k.wanted.filter (fun n => n != (s.ev.w, s.ev.k))
      if k.granules.length < 1024 then s.setCore x.core { k with granules := ⟨s.ev.w, s.ev.k, false⟩ :: k.granules, wanted := wanted }
      else match victim s k with
        | none => s
        | some v => s.setCore x.core { k with granules := ⟨s.ev.w, s.ev.k, false⟩ :: k.granules.erase v, wanted := wanted })

end Sys2Proof.Machine
end

