-- ==== Sys2Proof/Machine/Blocks.lean ====
section
/-! DEFINITION. The life of a block (R144, R151, R234 to R241, R244, R306 to R310): dispatch, the end of warps, blocks and grids,
pre-emption and restore, wait donation, removal, checkpoints and rollback. -/

namespace Sys2Proof.Machine

/-! ### The end of warps and blocks (R144, R236) -/

/-- The launch unit's queries for a warp's remaining release round. -/
def roundQueries (s : State) (src : W64) (round : BitVec 32) (ts : List Touch) : State :=
  ts.foldl (fun t e => linkSend t (Config.linkTo e.module.toNat % 24) (.query src round e)) s

/-- A block all of whose warps have ended ends (R144). -/
def endBlock (s : State) (blk : Nat) : State :=
  let b := s.block blk
  if b.status == .ended || unendedWarps s blk != 0 then s
  else
    let s1 := s.setBlock blk { b with status := .ended }
    let s2 := match Sparse.find s1.grids b.grid with
      | some g => s1.setGrid b.grid { g with ended := g.ended + 1 }
      | none => s1
    (b.cluster.filter (· != blk)).foldl joinCheck s2

/-- A warp without live lanes ends: its monitor is disarmed, its holds are released, its remaining round is queried. -/
def endWarp (s : State) (w : Nat) : State :=
  let x := s.warp w
  let s1 := (endEligible s x.blk).setWarp w { x with ended := true, mon := none, holds := [], touched := [] }
  let s2 := x.holds.foldl (fun t v => dropHold t v.toNat) s1
  let s3 := if x.touched.isEmpty then s2 else
    match Sparse.find s2.grids (s2.block x.blk).grid with
    | none => s2
    | some g =>
      let q : Query := { round := x.round, waiting := x.touched, resendAt := 0 }
      roundQueries (s2.setGrid (s2.block x.blk).grid { g with rounds := g.rounds ++ [(sourceId s x, q)] }) (sourceId s x) x.round x.touched
  let s4 := joinCheck (lowerBarriers s3 x.blk) x.blk
  endBlock s4 x.blk

/-- The ending fence of a warp may complete (R130, R144): nothing of it is outstanding. -/
def endingReady (s : State) (w : Nat) (x : Warp) : Bool :=
  x.arch.live == 0 && !x.ended && x.accs.isEmpty && x.acks == 0
    && !s.names.ops.any (fun o => match o.asker with
      | .warp v _ _ => v == w
      | .port _ | .hub => false)

/-- FENCE_COMPLETE (R130, R144): the fence that unit `ev.u` of warp `ev.w` waits for completes; or the ending fence of a warp
without live lanes, and with it the warp ends. -/
def execFenceComplete (s : State) : Result :=
  .next (
    match Sparse.find s.warps s.ev.w with
    | none => s
    | some x => if x.arch.live = 0 then (if endingReady s s.ev.w x then endWarp s s.ev.w else s) else tryFence s s.ev.w s.ev.u)

/-! ### Classes under donation (R241) -/

def donating (s : State) (ctx : BitVec 12) : Option Donation := s.donations.find? (fun d => d.donor == ctx)

/-- The donation of which a pre-empted block is a donee; a block suspended at JOIN is not pre-empted. -/
def donee (s : State) (b : Block) : Option Donation :=
  s.donations.find? (fun d => d.donor != b.ctx && partOf s d.donor == partOf s b.ctx && b.status == .saved)

/-- The class a block counts as. -/
def classOf (s : State) (b : Block) : Nat :=
  if (donating s b.ctx).isSome then 3
  else
    match donee s b with
    | some d => d.cls.toNat
    | none => b.cls.toNat

/-! ### Ready work (R233, R234) -/

/-- What can be placed: a group of saved blocks, or the next blocks of a grid. -/
inductive Work where
  | restore (blks : List Nat)
  | fresh (grid n : Nat)
deriving DecidableEq, Repr, Inhabited

/-- The unended blocks of a cluster launch. -/
def groupOf (s : State) (blk : Nat) : List Nat :=
  let c := (s.block blk).cluster
  (if c.isEmpty then [blk] else c).filter (fun k => (s.block k).status != .ended)

/-- A block waits to be restored. -/
def isWaiting (b : Block) : Bool := b.status == .saved || b.status == .ready

/-- Groups whose blocks all wait to be restored: first block, class, context, order of stopping. -/
def restorable (s : State) : List (Nat × Nat × BitVec 12 × Nat) :=
  s.blocks.filterMap (fun e =>
    let g := groupOf s e.1
    if isWaiting e.2 && g.head? == some e.1 && g.all (fun k => isWaiting (s.block k)) then
      some (e.1, classOf s e.2, e.2.ctx, e.2.stoppedAt) else none)

/-- The earliest stopped of some groups. -/
def earliest : List (Nat × Nat × BitVec 12 × Nat) → Option (Nat × Nat × BitVec 12 × Nat)
  | [] => none
  | e :: es =>
    match earliest es with
    | none => some e
    | some f => if f.2.2.2 < e.2.2.2 then some f else some e

/-- Groups with those stopped earlier first. -/
def byStop (l : List (Nat × Nat × BitVec 12 × Nat)) : List (Nat × Nat × BitVec 12 × Nat) :=
  let put (e : Nat × Nat × BitVec 12 × Nat) (acc : List (Nat × Nat × BitVec 12 × Nat)) : List (Nat × Nat × BitVec 12 × Nat) :=
    acc.takeWhile (fun f => decide (f.2.2.2 < e.2.2.2)) ++ e :: acc.dropWhile (fun f => decide (f.2.2.2 < e.2.2.2))
  l.foldr put []

/-- The group of a block is restored under a donation. -/
def isDonee (s : State) (blk : Nat) : Bool := (donee s (s.block blk)).isSome

/-- The head of a context's work in a class: its saved groups in order of stopping, those under a donation apart, then its oldest grid once its data segment is in
place (R28). -/
def headWork (s : State) (cls : Nat) (ctx : BitVec 12) : Option Work :=
  match earliest ((restorable s).filter (fun r => r.2.1 == cls && r.2.2.1 == ctx && !isDonee s r.1)) with
  | some r => some (.restore (groupOf s r.1))
  | none =>
    let own := (List.range 4).filter (fun k => (if (donating s ctx).isSome then 3 else k) == cls)
    match own.find? (fun k => !(queueOf s ctx (BitVec.ofNat 2 k)).isEmpty) with
    | none => none
    | some k =>
      match (queueOf s ctx (BitVec.ofNat 2 k)).head? with
      | none => none
      | some g => (Sparse.find s.grids g).bind (fun gr => if gr.copy = .whole then some (.fresh g (gr.launch.cluM1.toNat + 1)) else none)

/-- Contexts with work of any kind. -/
def workContexts (s : State) : List (BitVec 12) :=
  ((s.queues.map (fun e => BitVec.ofNat 12 (e.1 / 4))) ++ (restorable s).map (fun r => r.2.2.1)).eraseDups

/-- A context's grid at the head of a class has been begun. -/
def begun (s : State) (w : Option Work) : Bool :=
  match w with
  | some (.fresh g _) => ((Sparse.find s.grids g).map (fun x => decide (0 < x.dispatched))).getD false
  | _ => false

/-- Insert a context by its distance in the round after the one served last. -/
def insertCtx (last : Nat) (c : BitVec 12) : List (BitVec 12) → List (BitVec 12)
  | [] => [c]
  | d :: ds => if (c.toNat + 4095 - last) % 4096 < (d.toNat + 4095 - last) % 4096 then c :: d :: ds else d :: insertCtx last c ds

/-- The work of a class in the order in which it is served: donees by order of stopping, a grid that has been begun, then the
contexts in turn. -/
def classWork (s : State) (cls : Nat) : List (BitVec 12 × Work) :=
  let last := (s.served[cls]?).getD 4095
  let dons := byStop ((restorable s).filter (fun r => r.2.1 == cls && isDonee s r.1))
  let first := dons.map (fun r => (r.2.2.1, Work.restore (groupOf s r.1)))
  let order := (workContexts s).foldr (insertCtx last) []
  let current := BitVec.ofNat 12 last
  let turn := if begun s (headWork s cls current) then current :: order.filter (· != current) else order
  first ++ turn.filterMap (fun c => (headWork s cls c).map (fun w => (c, w)))

/-- All ready work, best class first. -/
def allWork (s : State) : List (Nat × BitVec 12 × Work) := (List.range 4).flatMap (fun c => (classWork s c).map (fun w => (c, w.1, w.2)))

/-! ### Placement (R234) -/

/-- What a block needs of a core. -/
structure CoreNeed where
  nwarps : Nat
  sp : Nat
  fifos : BitVec 8
  ctrs : BitVec 32
  place : BitVec 8
deriving DecidableEq, Repr, Inhabited

def gridNeed (g : Grid) : CoreNeed := ⟨g.launch.warpM1.toNat + 1, g.launch.spAlloc, g.launch.fifos, g.launch.ctrs, g.launch.place⟩

def blockNeed (s : State) (b : Block) : CoreNeed :=
  ⟨b.nwarps, b.spAlloc, b.fifoSet, b.ctrSet, ((Sparse.find s.grids b.grid).map (fun g => g.launch.place)).getD 0⟩

/-- The need of a piece of work, the same for each of its blocks. -/
def workNeed (s : State) (w : Work) : CoreNeed × Nat :=
  match w with
  | .restore bs => (blockNeed s (s.block (bs.headD 0)), bs.length)
  | .fresh g n => (((Sparse.find s.grids g).map gridNeed).getD ⟨1, 0, 0, 0, 0⟩, n)

/-- Blocks that hold a core's resources, some left out. -/
def residents (s : State) (core : Nat) (without : List Nat) : List Block :=
  (s.blocks.filter (fun e => e.2.core == core && (e.2.status == .resident || e.2.status == .stopping) && !without.contains e.1)).map (·.2)

/-- Scratchpad of a core. -/
def coreScratch : Nat := 0x180000

/-- A core in service has room for a block. A resident block keeps the slots of all its warps, ended ones too, until it ends: R234 does
not say when a slot is free again (DESIGN CHOICE, log entry 110). -/
def hasRoom (s : State) (need : CoreNeed) (without : List Nat) (core : Nat) : Bool :=
  let rs := residents s core without
  !(s.core core).fenced && s.sys.pass.getLsbD (core / 4) && (need.place == 0 || need.place.getLsbD (ashlarOf core))
    && decide (rs.foldl (fun n b => n + b.nwarps) need.nwarps ≤ 48) && decide (rs.foldl (fun n b => n + b.spAlloc) need.sp ≤ coreScratch)
    && rs.all (fun b => b.fifoSet &&& need.fifos == 0 && b.ctrSet &&& need.ctrs == 0)

/-- The cores that a piece of work would be placed on: the lowest core, or the lowest cores of the lowest cluster. -/
def coresFor (s : State) (w : Work) (without : List Nat) : Option (List Nat) :=
  let n := workNeed s w
  if n.2 ≤ 1 then ((List.range 96).find? (hasRoom s n.1 without)).map (fun c => [c])
  else
    ((List.range 24).find? (fun g => decide (n.2 ≤ ((List.range 4).filter (fun k => hasRoom s n.1 without (4 * g + k))).length))).map
      (fun g => (((List.range 4).map (4 * g + ·)).filter (hasRoom s n.1 without)).take n.2)

/-- The free warp slots of a core, lowest first. -/
def freeSlots (s : State) (core : Nat) : List Nat :=
  let used := (s.warps.filter (fun e => e.2.core == core && !e.2.ended
    && (let b := s.block e.2.blk; b.status == .resident || b.status == .stopping))).map (fun e => e.2.slot)
  (List.range 48).filter (fun k => !used.contains k)

/-! ### New blocks (R235) -/

/-- The predicates at a launch: 0 in the live lanes, and free values in the others (R103, R235). -/
def startPreds (seed : Nat) (live : Lanes) : Sparse Lanes :=
  if live = BitVec.allOnes 64 then []
  else (List.range 15).foldl (fun m k => if k = 0 then m else Sparse.set 0 m k (Config.helperMask (seed * 16 + k) &&& ~~~live)) []

/-- A new warp's state: one fragment of its live lanes at the first header, s0 given, all else at its start value; what the lanes that
are never live hold is free (R103). -/
def newArch (g : Grid) (seed : Nat) : WarpArch :=
  let live : Lanes := BitVec.ofNat 64 (2 ^ (g.launch.liveM1.toNat + 1) - 1)
  let at0 : BlockPos := { hdr := g.launch.code, idx := 0, head := default, inst := 0 }
  { sregs := Sparse.set 0 [] 0 g.s0, live := live, dead := addDead 0 (List.range 8) (~~~live), unborn := ~~~live, seed := seed,
    preds := startPreds seed live,
    units := [{ lanes := live, pos := at0, entering := true }] }

/-- The domain addresses and lengths of the pieces of a run of virtual bytes that the context may read and write throughout. -/
def dataSpans (s : State) (ctx : BitVec 12) (base n : Nat) : Option (List (Nat × Nat)) :=
  (pieces base n).mapM (fun e => match translatePure s ctx (base + e.1) .load, translatePure s ctx (base + e.1) .store with
    | .ok da _, .ok _ _ => some (da, e.2)
    | _, _ => none)

/-- A data segment at `base` would be the launch's own copy (R28): mapped throughout, and apart from those of other launches. -/
def dataFits (s : State) (g : Grid) (base : Nat) : Bool :=
  let spans (h : Grid) (b : Nat) : Option (List (Nat × Nat)) := dataSpans s h.ctx b (Config.dataSegment h.launch.codeName).length
  let apart (p q : Nat × Nat) : Bool := decide (p.1 + p.2 ≤ q.1) || decide (q.1 + q.2 ≤ p.1)
  match spans g base with
  | none => false
  | some ps => s.grids.all (fun e => e.2.completed || e.2.copy == .unplaced
      || (match spans e.2 e.2.dbase.toNat with
        | none => true
        | some qs => ps.all (fun p => qs.all (apart p))))

/-- The pieces of a data segment still to be written at its place, by the launch unit under their tokens; the grid notes how far it
has come. -/
def copyPieces (s : State) (gid : Nat) (g : Grid) (bs : List Byte) : List (Nat × Nat) → State
  | [] => s.setGrid gid { g with copy := .whole }
  | e :: rest =>
    match storeVirtual s (launchAgent s) g.ctx (g.dbase.toNat + e.1) ((bs.drop e.1).take e.2) with
    | (some _, t) => copyPieces t gid g bs rest
    | (none, t) => t.setGrid gid { g with copy := .written e.1 }

/-- The launch's own copy of the data segment as assembled (R28), before its first block starts: what the assembler put there is a
free value by the code object's name. A place that does not fit is passed over; the launch waits for one. DEDUCED (log entry
86). -/
def copyData (s : State) (gid : Nat) : State :=
  match Sparse.find s.grids gid with
  | none => s
  | some g =>
    let bs := Config.dataSegment g.launch.codeName
    match g.copy with
    | .whole => s
    | .written n => copyPieces s gid g bs ((pieces g.dbase.toNat bs.length).filter (fun e => decide (n ≤ e.1)))
    | .unplaced =>
      let base := dataBase s.free
      let t := { s with free := s.free + 1 }
      if dataFits t g base.toNat then copyPieces t gid { g with dbase := base } bs (pieces base.toNat bs.length) else t

/-- The queued grids get their data segments. -/
def copyQueued (s : State) : State :=
  ((s.queues.flatMap (·.2)).filter (fun gid => ((Sparse.find s.grids gid).map (fun g => g.copy != .whole)).getD false)).foldl copyData s

/-- One new block of a grid on a core, whose L1 is dropped: every write before the launch is visible to the block (R235). -/
def placeNew (s : State) (gid : Nat) (g : Grid) (ids : List Nat) (k : Nat × Nat) : State :=
  let blk := (ids[k.1]?).getD 0
  let n := g.launch.warpM1.toNat + 1
  let arch (i : Nat) := newArch g (64 * s.nextId + i)
  let b : Block := {
    grid := gid, idx := g.dispatched + k.1, cluster := ids, core := k.2, ctx := g.ctx, cls := g.launch.prio, status := .resident,
    nwarps := n, spAlloc := g.launch.spAlloc,
    logSpilled := carveFull s (ashlarOf k.2) (contextBytes * n + 2 * g.launch.spAlloc), fifoSet := g.launch.fifos, ctrSet := g.launch.ctrs, code := g.launch.code,
    handler := g.launch.handler, dbase := g.dbase, poolBase := g.launch.poolBase.toNat, poolSize := g.launch.poolSize.toNat,
    eligible := true, placed := s.nextId,
    ckpt := some { warps := (List.range n).map (fun i => (warpKey blk i, arch i, none)), ctrs := [], fifos := [], mq := [], nextChild := 0, phase := 0 } }
  let slots := freeSlots s k.2
  let s1 := { (acquireL1 (s.setBlock blk b) k.2 3) with nextId := s.nextId + 1 }
  (List.range n).foldl (fun t i =>
    let x : Warp := { blk := blk, idx := i, core := k.2, slot := (slots[i]?).getD 0, ctx := g.ctx, cls := g.launch.prio,
                      nply := g.launch.plyM1.toNat + 1, arch := arch i }
    openSample (settle (t.setWarp (warpKey blk i) x) (warpKey blk i)) (warpKey blk i)) s1

/-- The next blocks of a grid dispatched to cores; a grid leaves its queue with its last block. -/
def dispatchNew (s : State) (ctx : BitVec 12) (gid : Nat) (cores : List Nat) : State :=
  match Sparse.find s.grids gid with
  | none => s
  | some g =>
    let ids := (List.range cores.length).map (s.nextId + ·)
    let s1 := { s with nextId := s.nextId + cores.length }
    let s2 := ((List.range cores.length).zip cores).foldl (fun t k => placeNew t gid g ids k) s1
    let g1 := { g with dispatched := g.dispatched + cores.length }
    let s3 := s2.setGrid gid g1
    if g.launch.gridM1.toNat + 1 ≤ g1.dispatched then
      { s3 with queues := Sparse.set [] s3.queues (queueKey ctx g.launch.prio) ((queueOf s3 ctx g.launch.prio).filter (· != gid)) }
    else s3

/-! ### Restore (R135, R196, R238, R258) -/

/-- A unit of a restored warp: a pending MONWAIT returns reason 3, a barrier whose PHASE has moved on is passed (R148), a parked
access and waiting lanes are tried again, and a waiting scalar slot reads again. -/
def restoreUnit (s : State) (u : IUnit) : IUnit :=
  let v := { u with latch := [], arms := none }
  match v.hold with
  | .barrier b off ph _ =>
    if barPhase (barWord s b off) ≠ ph.toNat ∧ (s.block b).ckptWait ≠ some off then { v with hold := .none, passed := true } else v
  | .monwait _ => { v with wake := some (v.wake.getD 3) }
  | .fault _ => { v with hold := .none }
  | _ => v

/-- The monitor is armed again before the warp issues; where a token cannot be had at once it counts as triggered. -/
def rearm (s : State) (w : Nat) : State :=
  let x := s.warp w
  match x.mon with
  | none => s
  | some m =>
    if m.ros then s
    else
      let agent := coreAgent s x.core
      match (grabToken s agent (2 * m.line)).bind (fun t => grabToken t agent (2 * m.line + 1)) with
      | some t => trimL2 (t.setCore x.core (l1Drop (t.core x.core) m.line)) agent (2 * m.line)
      | none => s.setWarp w { x with mon := some { m with triggered := true } }

/-- A donation notes the context of a block that is restored under it (R241). -/
def noteDonee (s : State) (b : Block) : State :=
  match donee s b with
  | none => s
  | some d => { s with donations := s.donations.map (fun e => if e.donor == d.donor then { e with donees := (b.ctx :: e.donees).eraseDups } else e) }

/-- A saved block placed on a core, with `fence.acq.d` (R238); at JOIN that is the warps' own acquire (R151, R307). -/
def restoreBlock (s0 : State) (blk core : Nat) : State :=
  let b := s0.block blk
  let s := freeAreas (noteDonee s0 b) blk
  let slots := freeSlots s core
  let s1 := { (s.setBlock blk { b with core := core, logSpilled := carveFull s (ashlarOf core) (2 * b.spAlloc), status := .resident, placed := s.nextId }) with nextId := s.nextId + 1 }
  let s2 := acquireL1 s1 core 3
  let go (x : Warp) : Warp :=
    { x with core := core, slot := (slots[x.idx]?).getD 0, stopped := false, lat := [],
             arch := { x.arch with units := x.arch.units.map (restoreUnit s2), stack := x.arch.stack.map (restoreUnit s2) } }
  let own (c : Cmd) : Bool := c.blk == blk && (match c.owner with
    | .warp _ _ => true
    | .node _ _ => false)
  let move (c : Cmd) : Cmd := if own c then { c with core := core, engine := if c.engine < 144 then engineOf core else c.engine } else c
  let warps := s2.warps.map (fun (e : Nat × Warp) => if e.2.blk == blk && !e.2.ended then (e.1, go e.2) else e)
  let s3 := { s2 with warps := warps, cmds := s2.cmds.map move }
  let s4 := (s3.blockWarps blk).foldl (fun t e => rearm t e.1) s3
  if b.joining then leaveJoin ((wideEnds s4 blk 3).setBlock blk { (wideEnds s4 blk 3).block blk with joining := false }) blk
  else joinCheck s4 blk

/-- Carry out a placement. -/
def placeWork (s : State) (cls : Nat) (ctx : BitVec 12) (w : Work) (cores : List Nat) : State :=
  let s1 := match w with
    | .restore bs => (bs.zip cores).foldl (fun (t : State) (e : Nat × Nat) => restoreBlock t e.1 e.2) s
    | .fresh g _ => dispatchNew s ctx g cores
  { s1 with served := setAt s1.served cls ctx.toNat }

/-- The first of some work that has room. -/
def firstPlaceable (s : State) : List (Nat × BitVec 12 × Work) → Option (Nat × BitVec 12 × Work × List Nat)
  | [] => none
  | (c, ctx, w) :: rest =>
    match coresFor s w [] with
    | some cores => some (c, ctx, w, cores)
    | none => firstPlaceable s rest

/-- BLOCK_DISPATCH (R234): the launch unit gives queued launches their data segments, and places the best ready and placeable block,
or cluster of blocks. -/
def execBlockDispatch (s0 : State) : Result :=
  .next (
    if s0.sys.span != .service then s0
    else
      let s := copyQueued s0
      match firstPlaceable s (allWork s) with
      | none => s
      | some (c, ctx, w, cores) => placeWork s c ctx w cores)

/-! ### Pre-emption (R137, R163, R174, R238, R239) -/

/-- Blocks that are stopping. -/
def stoppingBlocks (s : State) : List Nat := (s.blocks.filter (fun e => e.2.status == .stopping)).map (·.1)

/-- The resident groups of a class above `cls` whose removal makes room for work: class, placement, blocks. -/
def victims (s : State) (cls : Nat) (w : Work) : List (Nat × Nat × List Nat) :=
  let gone := stoppingBlocks s
  s.blocks.filterMap (fun e =>
    let g := (groupOf s e.1).filter (fun k => (s.block k).status == .resident)
    if e.2.status == .resident && g.head? == some e.1 && decide (cls < classOf s e.2) && (coresFor s w (gone ++ g)).isSome then
      some (classOf s e.2, e.2.placed, g) else none)

/-- The victim of the highest class, then the most recently placed. -/
def worstVictim : List (Nat × Nat × List Nat) → Option (Nat × Nat × List Nat)
  | [] => none
  | e :: es =>
    match worstVictim es with
    | none => some e
    | some f => if e.1 < f.1 ∨ (e.1 = f.1 ∧ e.2.1 < f.2.1) then some f else some e

/-- The first ready work that has no room, will not get it from blocks already stopping, and has a victim. -/
def findVictim (s : State) : List (Nat × BitVec 12 × Work) → Option (List Nat)
  | [] => none
  | (c, _, w) :: rest =>
    if (coresFor s w (stoppingBlocks s)).isSome then findVictim s rest
    else
      match worstVictim (victims s c w) with
      | some v => some v.2.2
      | none => findVictim s rest

/-- PREEMPT_VICTIM (R238): the launch unit chooses a victim for a ready block without room, and stops it. -/
def execPreemptVictim (s : State) : Result :=
  .next (
    if s.sys.span != .service then s
    else
      match findVictim s (allWork s) with
      | none => s
      | some bs => bs.foldl (fun t k =>
          let b := t.block k
          recordEvent (stopBlock t k) 0x30 0 (ownAgent t.sys 221) (some b.ctx) (Config.recordDetail 0x130 [k]) (BitVec.ofNat 64 b.cls.toNat)) s)

/-- An LDF or STE whose lanes only wait. -/
def feWaits (c : Access) : Bool := (c.kind == .loadFe || c.kind == .storeFe) && c.stage == .waiting && c.got.isEmpty

/-- The command does not keep a stopping block: an EFILL into its own FIFO at a 32-byte boundary (R174). -/
def cmdRests (c : Cmd) : Bool :=
  match c.kind with
  | .efill _ _ => c.pos % 32 == 0 && c.stage != .issued
  | _ => false

/-- Everything that a stopping block must let complete has completed. -/
def drained (s : State) (blk : Nat) : Bool :=
  let b := s.block blk
  (s.blockWarps blk).all (fun e => e.2.ended || (e.2.acks == 0 && e.2.accs.all feWaits))
    && b.mq.all (fun m => !m.started)
    && !s.names.ops.any (fun o => match o.asker with
      | .warp w _ _ => (s.warp w).blk == blk
      | .port _ | .hub => false)
    && (b.cut || s.cmds.all (fun c => match c.owner with
      | .warp _ _ => c.blk != blk || cmdRests c
      | .node _ _ => true))

/-- A warp as it is saved: waiting LDF and STE lanes are kept in their units, which will issue the bundle again; every path counter
is 0 (R132). -/
def saveWarp (x : Warp) : Warp :=
  let ids := x.accs.map (·.id)
  let again (v : IUnit) : IUnit := if v.fe != 0 && v.issued then { v with issued := false, hold := .none } else v
  let y := ids.foldl (fun (y : Warp) id => y.finishAccess id) x
  { y with paths := [], journal := [], lat := [], arch := { y.arch with units := y.arch.units.map again, stack := y.arch.stack.map again } }

/-- A block's warps leave the register cache. -/
def dropGranules (s : State) (blk : Nat) : State :=
  let b := s.block blk
  let k := s.core b.core
  s.setCore b.core { k with granules := k.granules.filter (fun g => (s.warp g.warp).blk != blk)
                            wanted := k.wanted.filter (fun n => (s.warp n.1).blk != blk) }

/-- A running EFILL leaves its engine. -/
def haltFills (s : State) (blk : Nat) : State :=
  { s with cmds := s.cmds.map (fun c => match c.kind with
      | .efill _ _ => if c.blk == blk && c.stage == .running then { c with stage := .queued, segEnd := c.pos } else c
      | _ => c) }

/-- A cut block ends with nothing saved (R244). -/
def cutBlock (s : State) (blk : Nat) : State :=
  let cut (x : Warp) : Warp := { x with ended := true, mon := none, accs := [], paths := [], acks := 0 }
  let s1 := { s with warps := s.warps.map (fun (e : Nat × Warp) => if e.2.blk == blk then (e.1, cut e.2) else e) }
  let b := s1.block blk
  s1.setBlock blk { b with status := .ended, mq := [] }

/-- PREEMPT_COMPLETE (R238): the stopping block `ev.k` has drained; its state is saved and its resources are free. -/
def execPreemptComplete (s : State) : Result :=
  .next (
    let blk := s.ev.k
    let b := s.block blk
    if b.status != .stopping || !drained s blk then s
    else
      let s1 := dropGranules s blk
      if b.cut then cutBlock s1 blk
      else
        let saved := s1.warps.map (fun (e : Nat × Warp) => if e.2.blk == blk then (e.1, saveWarp e.2) else e)
        let s2 := writeAreas (haltFills { s1 with warps := saved } blk) blk
        let b2 := s2.block blk
        if b.joining then suspendedReady (s2.setBlock blk { b2 with status := .suspended }) blk
        else s2.setBlock blk { b2 with status := .saved })

/-! ### Grid completion (R236) -/

/-- The store of a completed grid at DONE by the launch unit; none while tokens are missing. -/
def storeDone (s : State) (g : Grid) : Bool × State :=
  if g.launch.done = 0 then (true, s)
  else
    match storeVirtual s (launchAgent s) g.ctx g.launch.done.toNat (leSplit 8 g.doneVal.toNat) with
    | (some true, t) => (true, t)
    | (some false, t) => (true, recordEvent t 0x34 0 (launchAgent s) (some g.ctx) g.launch.done g.doneVal)
    | (none, t) => (false, t)

/-- GRID_COMPLETION (R236): grid `ev.k`, all of whose blocks have ended and whose remaining rounds are confirmed. -/
def execGridCompletion (s : State) : Result :=
  .next (match Sparse.find s.grids s.ev.k with
    | none => s
    | some g =>
      if g.completed || g.ended != g.launch.gridM1.toNat + 1 || !g.rounds.isEmpty then s
      else
        let r := storeDone s g
        if !r.1 then r.2
        else
          let t := r.2.setGrid s.ev.k { g with completed := true }
          match g.parent with
          | .hart => t
          | .block b _ => childDone t b
          | .node gid n =>
            match Sparse.find t.graphs gid with
            | some gr => t.setGraph gid (modNode gr n (fun e => { e with result := some 0 }))
            | none => t)

/-! ### Wait donation (R241) -/

/-- The resident warps of a context. -/
def residentWarps (s : State) (ctx : BitVec 12) : List (Nat × Warp) :=
  s.warps.filter (fun e => e.2.ctx == ctx && !e.2.ended && isPlaced s e.2.blk)

/-- Every resident warp of the context has every unit in such a wait. -/
def allWait (s : State) (ctx : BitVec 12) : Bool :=
  let ws := residentWarps s ctx
  !ws.isEmpty && ws.all (fun e => e.2.arch.live != 0 && e.2.arch.units.all countsForDonation)

/-- Since when each context has waited without a break, as time passes. -/
def noteWaits (s : State) : State :=
  let ctxs := ((s.warps.map (fun e => e.2.ctx)).eraseDups).filter (allWait s)
  { s with waitSince := ctxs.foldl (fun m c => Sparse.insert c.toNat ((Sparse.find s.waitSince c.toNat).getD s.now) m) [] }

/-- The words and barriers that a context's warps wait on. -/
def waitedFes (s : State) (ctx : BitVec 12) : List (Nat × Nat × Bool) :=
  (residentWarps s ctx).flatMap (fun e => (e.2.accs.filter feWaits).flatMap (fun c =>
    let full (p : AccPart) : Bool := spFull s (c.bank.getD 0) (p.addr % 2 ^ 21)
    (c.parts.filter (fun p => full p != (c.kind == .loadFe))).map (fun p => (c.bank.getD 0, p.addr % 2 ^ 21 / 4, full p))))

def waitedPhases (s : State) (ctx : BitVec 12) : List (Nat × Nat × Nat) :=
  (residentWarps s ctx).flatMap (fun e => e.2.arch.units.filterMap (fun v => match v.hold with
    | .barrier b o _ _ => some (b, o, barPhase (barWord s b o))
    | _ => none))

/-- The sectors of the lines that a context's warps watch in MONWAIT, those of pre-empted blocks included (R241). -/
def watchedSectors (s : State) (ctx : BitVec 12) : List Nat :=
  (s.warps.flatMap (fun e => match e.2.mon with
    | some m => if m.ros || e.2.ctx != ctx || !(e.2.arch.units ++ e.2.arch.stack).any IUnit.awaitsMonitor then [] else lineSectors m.line
    | none => [])).eraseDups

/-- The launch unit takes a token of each sector it will watch. -/
def watchAll (s : State) : List Nat → Bool × State
  | [] => (true, s)
  | sec :: rest =>
    match grabToken s (ownAgent s.sys 221) sec with
    | some t => watchAll t rest
    | none => (false, startRequest s (ownAgent s.sys 221) sec false 0)

/-- DONATION_START (R241): context `ev.ctx` has waited for 20 µs without a break and becomes a donor. -/
def execDonationStart (s : State) : Result :=
  .next (
    let ctx := s.ev.ctx
    match Sparse.find s.waitSince ctx.toNat with
    | none => s
    | some t0 =>
      if s.now < t0 + 20000 ∨ (donating s ctx).isSome ∨ !allWait s ctx ∨ s.removing.any (fun e => e.1 == ctx) then s
      else
        let w := watchAll s (watchedSectors s ctx)
        if !w.1 then w.2
        else
          let cls := (residentWarps s ctx).foldl (fun (m : BitVec 2) e => if e.2.cls.toNat < m.toNat then e.2.cls else m) 3
          { w.2 with donations := w.2.donations ++ [⟨ctx, cls, watchedSectors s ctx, false, waitedFes s ctx, waitedPhases s ctx, []⟩] })

/-- What the donors' warps have come to wait on since: their lines, under a token each, words and phases are watched too, and a line
that none of them waits on is watched no longer (R241). -/
def watchMore (s : State) : State :=
  (List.range s.donations.length).foldl (fun t k =>
    match t.donations[k]? with
    | none => t
    | some d =>
      let lines := watchedSectors t d.donor
      let new := lines.filter (fun sec => !d.watched.contains sec)
      let old := d.watched.filter (fun sec => !lines.contains sec)
      let r := watchAll t new
      let fes := (waitedFes t d.donor).filter (fun e => !d.fes.any (fun f => f.1 == e.1 && f.2.1 == e.2.1))
      let phases := (waitedPhases t d.donor).filter (fun e => !d.phases.any (fun f => f.1 == e.1 && f.2.1 == e.2.1))
      let d' := { d with watched := d.watched.filter lines.contains ++ (if r.1 then new else []), fes := d.fes ++ fes, phases := d.phases ++ phases }
      let u := { r.2 with donations := setAt r.2.donations k d' }
      (old.filter (fun sec => !u.donations.any (fun e => e.watched.contains sec))).foldl (fun v sec => returnTokens v (launchAgent v) sec) u) s

/-- The end of a donation has come. -/
def donationOver (s : State) (d : Donation) : Bool :=
  d.isOver || s.removing.any (fun e => e.1 == d.donor)
    || d.fes.any (fun e => spFull s e.1 (4 * e.2.1) != e.2.2) || d.phases.any (fun e => barPhase (barWord s e.1 e.2.1) != e.2.2)

/-- The k-th donation ends: the launch unit gives back the tokens of the lines that no other donation watches. -/
def endDonation (s : State) (k : Nat) : State :=
  match s.donations[k]? with
  | none => s
  | some d =>
    let s1 := { s with donations := dropAt s.donations k }
    (d.watched.filter (fun sec => !s1.donations.any (fun e => e.watched.contains sec))).foldl
      (fun t sec => returnTokens t (ownAgent t.sys 221) sec) s1

/-- DONATION_END (R241): the k-th donation ends once its end has come. -/
def execDonationEnd (s : State) : Result :=
  .next (match s.donations[s.ev.k]? with
    | none => s
    | some d => if donationOver s d then endDonation s s.ev.k else s)

/-- The context is donor or donee of the donation. -/
def partakes (s : State) (ctx : BitVec 12) (d : Donation) : Bool :=
  d.donor == ctx || d.donees.contains ctx
    || s.blocks.any (fun e => e.2.ctx == ctx && (donee s e.2).map (·.donor) == some d.donor)

/-- Every donation in which a removed context takes part ends at once (R244). -/
def endDonations : Nat → State → BitVec 12 → State
  | 0, s, _ => s
  | n + 1, s, ctx =>
    match indexOf (partakes s ctx) s.donations with
    | none => s
    | some k => endDonations n (endDonation s k) ctx

/-! ### Removal (R244) -/

/-- The unit is parked on check 5 (R253). -/
def parkedOnFault (v : IUnit) : Bool :=
  match v.hold with
  | .fault _ => true
  | _ => false

/-- The holds of a warp's FORKs under way (R179). -/
def forkHolds (x : Warp) : List W64 := (x.arch.units ++ x.arch.stack).filterMap (fun v => v.fork.map (·.name))

/-- A waiting or failed unit of a removed tenant, or one whose access is parked (R258), ends as by EXIT, without a fence. -/
def exitUnits (s : State) (w : Nat) : State :=
  let x := s.warp w
  let m := (x.arch.units ++ x.arch.stack).foldl (fun (m : Lanes) v => if v.hold == .ended || parkedOnFault v || countsForDonation v then m ||| v.lanes else m) 0
  if m = 0 then s
  else
    let y := exitLanes { x with accs := x.accs.filter (fun c => !(feWaits c && c.lanes &&& m != 0)) } m
    let forks := (forkHolds x).filter (fun v => !(forkHolds y).contains v)
    forks.foldl (fun t v => dropHold t v.toNat) (settle (s.setWarp w y) w)

/-- A warp of a removed tenant without live lanes ends with no fence. -/
def endRemoved (s : State) (w : Nat) : State :=
  let x := s.warp w
  if x.arch.live = 0 ∧ !x.ended then
    endBlock (lowerBarriers (s.setWarp w { x with ended := true, mon := none, touched := [] }) x.blk) x.blk
  else s

/-- The engine commands of a context end with status 4; a round of its proposers sends RELEASE (R244, R290). -/
def endCommands : Nat → State → BitVec 12 → State
  | 0, s, _ => s
  | n + 1, s, ctx =>
    match indexOf (fun (c : Cmd) => c.ctx == ctx) s.cmds with
    | none => s
    | some k =>
      let s1 := match (s.cmds[k]?).bind (fun c => c.round) with
        | some r => sendRounds s 3 r.pair r.version r.mask r.waitDone
        | none => s
      endCommands n (endCmd s1 k 4 0) ctx

/-- The holds that a context has taken through the harts' name ports are released. -/
def dropPortHolds (s : State) (ctx : BitVec 12) : State :=
  s.ports.foldl (fun (t : State) (p : Nat × NamePort) =>
    let k := t.port p.1
    let t1 := t.setPort p.1 { k with holds := k.holds.filter (fun e => e.1 != ctx) }
    (k.holds.filter (fun e => e.1 == ctx)).foldl (fun u e => dropHold u e.2.toNat) t1) s

/-- The command was issued for a context. -/
def issuedFor (s : State) (ctx : BitVec 12) (o : CmdOwner) : Bool :=
  match o with
  | .warp w _ => (s.warp w).ctx == ctx
  | .node g _ => ((Sparse.find s.graphs g).map (·.ctx)) == some ctx

/-- A link without the packets of a context that it has not begun to transmit; their room at the next hop is free again. -/
def dropQueued (s : State) (ctx : BitVec 12) (l : Link) : Link :=
  let own (x : LinkItem) : Option Packet := match x with
    | .packet p (some o) => if issuedFor s ctx o then some p else none
    | _ => none
  { l with queue := l.queue.filter (fun x => (own x).isNone),
           used := (l.queue.filterMap own).foldl (fun m p => Sparse.set 0 m (packetPair p) (Sparse.get 0 m (packetPair p) - p.payload.length)) l.used }

/-- A removed context's packets that have not begun are discarded at their hop (R294): those it sends, and those that this module
receives for it. -/
def dropPackets (s : State) (ctx : BitVec 12) : State :=
  let received (p : Packet) : Bool := match packetObject s p with
    | some o => o.ctx == ctx
    | none => false
  { s with links := s.links.map (fun e => (e.1, dropQueued s ctx e.2)), packets := s.packets.filter (fun e => !received e.2) }

/-- The last step of a removal: holds released, packets that have not begun discarded, one record (R244, R294, R325). -/
def finishRemoval (s : State) (ctx : BitVec 12) (tenant : Bool) : State :=
  let ws := s.warps.filter (fun e => e.2.ctx == ctx)
  let vs := ws.flatMap (fun e => e.2.holds ++ forkHolds e.2)
  let gone (x : Warp) : Warp := { x with holds := [], ended := true }
  let t := dropPackets s ctx
  let s0 := { t with warps := t.warps.map (fun (e : Nat × Warp) => if e.2.ctx == ctx then (e.1, gone e.2) else e) }
  let s1 := dropPortHolds (vs.foldl (fun t v => dropHold t v.toNat) s0) ctx
  let s2 := { s1 with areas := s1.areas.filter (fun e => (s1.block e.1).ctx != ctx), removing := s1.removing.filter (fun e => e.1 != ctx), graphs := s1.graphs.filter (fun g => g.2.ctx != ctx) }
  let s3 := (s1.graphs.filter (fun g => g.2.ctx == ctx && !g.2.ended)).foldl (fun t g => dropHold t g.2.name.toNat) s2
  let first := ((ws.map (fun e => e.2.blk)).head?).getD 0
  recordEvent s3 0x32 2 (ownAgent s.sys 221) (some ctx) (Config.recordDetail 0x132 [first]) (Config.recordDetail 0x32 [boolNat tenant])

/-- The path of a process under the resident OS. -/
def removeProcess (s : State) (ctx : BitVec 12) : State :=
  let end_ (b : Block) : Block :=
    if b.ctx != ctx || b.status == .ended then b
    else if isWaiting b || b.status == .suspended then { b with status := .ended, mq := [] }
    else { b with status := .stopping, cut := true }
  let stop (x : Warp) : Warp := if x.ctx == ctx then { x with stopped := true } else x
  let s1 := { s with
    queues := s.queues.filter (fun (e : Nat × List Nat) => e.1 / 4 != ctx.toNat)
    blocks := s.blocks.map (fun (e : Nat × Block) => (e.1, end_ e.2))
    warps := s.warps.map (fun (e : Nat × Warp) => (e.1, stop e.2)) }
  let s2 := endCommands (s1.cmds.length + 1) s1 ctx
  if s2.blocks.any (fun e => e.2.ctx == ctx && e.2.status != .ended) then s2 else finishRemoval s2 ctx false

/-- The path of a tenant partition under the hypervisor. -/
def removeTenant (s : State) (ctx : BitVec 12) : State :=
  let mine := (s.warps.filter (fun e => e.2.ctx == ctx && !e.2.ended)).map (·.1)
  let s1 := mine.foldl (fun t w => endRemoved (exitUnits t w) w) s
  let s2 := endCommands (s1.cmds.length + 1) s1 ctx
  if s2.warps.any (fun e => e.2.ctx == ctx && !e.2.ended) ∨ s2.queues.any (fun e => e.1 / 4 == ctx.toNat) then s2
  else finishRemoval s2 ctx true

/-- CONTEXT_REMOVAL (R244): context `ev.ctx` is removed by the path of its owner's class; the step is taken again until no block, or
no warp, of it remains. A donation of which it was donor or donee ends. -/
def execContextRemoval (s : State) : Result :=
  .next (
    if s.sys.span != .service then s
    else
      let ctx := s.ev.ctx
      let tenant := match s.removing.find? (fun e => e.1 == ctx) with
        | some e => e.2
        | none => partOf s ctx != 0
      let s1 := if s.removing.any (fun e => e.1 == ctx) then s else { s with removing := s.removing ++ [(ctx, tenant)] }
      let s2 := endDonations s1.donations.length s1 ctx
      if tenant then removeTenant s2 ctx else removeProcess s2 ctx)

/-! ### Checkpoints and rollback (R306 to R310) -/

/-- What a checkpoint of a block records now. -/
def takeCheckpoint (s : State) (blk : Nat) : Checkpoint :=
  let b := s.block blk
  { warps := (s.blockWarps blk).map (fun e => (e.1, e.2.arch, e.2.mon)), ctrs := b.ctrs, fifos := b.fifos, mq := b.mq,
    nextChild := b.nextChild, phase := b.ckptPhase, phases := b.phases,
    batches := (s.blockWarps blk).map (fun e => (e.1, e.2.openBatch, e.2.batches, e.2.mflags))
    stackCtrs := (s.blockWarps blk).map (fun e => (e.1, e.2.stackCtr)) }

/-- Nothing a warp issued before its barrier is outstanding, posted writes and name operations included. -/
def atRest (x : Warp) : Bool := x.accs.isEmpty && x.acks == 0 && x.spend.isEmpty

/-- CHECKPOINT (R306): the matrix instructions and engine commands of block `ev.k` have completed after a checkpoint phase, and its
warps have nothing outstanding that a rollback would lose; its state is recorded, the logged bits are cleared and the warps woken. -/
def execCheckpoint (s : State) : Result :=
  .next (
    let blk := s.ev.k
    let b := s.block blk
    match b.ckptWait with
    | none => s
    | some off =>
      if b.status != .resident || !b.mq.isEmpty || s.cmds.any (fun c => c.blk == blk) || !(s.blockWarps blk).all (fun e => atRest e.2) then s
      else
        let s1 := wakeBarrier (s.setBlock blk { b with ckptWait := none, ckptPhase := b.ckptPhase + 1, undo := [], logged := [], eligible := true }) blk off
        s1.setBlock blk { s1.block blk with ckpt := some (takeCheckpoint s1 blk) })

/-- The undo log applied, newest entry first (R308, R309). -/
def undoAll (b : Block) : Block :=
  b.undo.foldl (fun b e => { b with sp := Sparse.setRun 0 b.sp (4 * e.word) (leSplit 4 e.old.toNat), full := Sparse.set false b.full e.word e.full }) b

/-- A warp back at its checkpoint: nothing outstanding, its batches and stack counters as they stood there. -/
def rollWarp (s : State) (x : Warp) (a : WarpArch) (m : Option Monitor) (bs : List Nat × List Batch × List (Nat × W64)) (ctr : Sparse Nat) : Warp :=
  { x with arch := { a with units := a.units.map (restoreUnit s), stack := a.stack.map (restoreUnit s) }, accs := [], paths := [],
           acks := 0, spend := [], mon := m, openBatch := bs.1, batches := bs.2.1, mflags := bs.2.2, lat := [], journal := [],
           stackCtr := ctr }

/-- A rollback of an eligible block (R309). -/
def rollback (s : State) (blk : Nat) : State :=
  let b := s.block blk
  match b.ckpt with
  | none => s
  | some c =>
    let mine (o : NameAsker) : Bool := match o with
      | .warp w _ _ => (s.warp w).blk == blk
      | .port _ | .hub => false
    let own (k : Cmd) : Bool := k.blk == blk && (match k.owner with
      | .warp _ _ => true
      | .node _ _ => false)
    let s1 := (s.cmds.filter own).foldl (fun t k => releasePins t k 0 0) s
    let k := s1.core b.core
    let s2 := s1.setCore b.core { k with arrays := k.arrays.map (fun a => match a.busy with
      | some (w, _) => if (s.warp w).blk == blk then { a with busy := none } else a
      | none => a) }
    let b1 := { undoAll b with undo := [], logged := [], ctrs := c.ctrs, fifos := c.fifos, mq := c.mq, nextChild := c.nextChild,
                               phases := c.phases, ckptWait := none }
    let s3' := dropCmds s2 own
    let s3 := { s3' with names := { s2.names with ops := s2.names.ops.filter (fun o => !mine o.asker) } }
    let s4 := c.warps.foldl (fun t e => t.setWarp e.1 (rollWarp t (t.warp e.1) e.2.1 e.2.2 ((Sparse.find c.batches e.1).getD ([], [], [])) (Sparse.get [] c.stackCtrs e.1)))
      (setScratch s3 blk b1)
    let s5 := c.warps.foldl (fun t e => rearm (settle t e.1) e.1) s4
    recordEvent s5 0x31 2 (coreAgent s b.core) (some b.ctx) (Config.recordDetail 0x131 [blk]) (BitVec.ofNat 64 b.ckptPhase)

/-- A block-state error of block `blk`, or the fencing of its core (R310). -/
def blockError (s : State) (blk : Nat) (fencedCore : Bool) : State :=
  let b := s.block blk
  if b.status == .ended || !(Sparse.find s.blocks blk).isSome then s
  else if b.eligible then
    let t := rollback s blk
    if fencedCore then
      let u := stopBlock (dropGranules t blk) blk
      u.setBlock blk { u.block blk with status := .ready }
    else t
  else
    let t := startRemoval s b.ctx
    { t with agenda := .event .contextRemoval { ctx := b.ctx } :: t.agenda }

/-- BLOCK_STATE_ERROR (R305, R310): an uncorrectable error in the state of block `ev.k`. -/
def execBlockStateError (s : State) : Result := .next (if s.sys.span != .service then s else blockError s s.ev.k false)

/-- A core is fenced (R310, R312, R315): every block it holds rolls back or is ended, and the fence is recorded. -/
def fenceCore (s : State) (core : Nat) : State :=
  if (s.core core).fenced then s
  else
    let s1 := recordEvent (s.setCore core { s.core core with fenced := true }) 0x42 2 (coreAgent s core) none (Config.recordDetail 0x142 [core]) (Config.recordDetail 0x42 [core])
    ((s.blocks.filter (fun e => e.2.core == core && (e.2.status == .resident || e.2.status == .stopping))).map (·.1)).foldl
      (fun t b => blockError t b true) s1

end Sys2Proof.Machine
end

