-- ==== Sys2Proof/Machine/CrossLane.lean ====
section
/-! DEFINITION. The cross-lane instructions (R103 to R111): quad exchange, shuffles, votes, ballots and warp reductions. The
issue has made their groups converge (R105). -/

namespace Sys2Proof.Machine

/-- The width in plies: none is `gang` (R43, R104). -/
def widthOf (w : Option (BitVec 4)) : Option Nat :=
  match w with
  | some k => if k = 0 then none else some k.toNat
  | none => none

/-- A domain of the issue (R104): its first lane, its lane count, and its lanes. -/
structure Domain where
  first : Nat
  count : Nat
  lanes : Lanes
deriving DecidableEq, Repr, Inhabited

/-- The domains of an issue: the gang, or each ply group that it touches. -/
def domains (s : State) (w : Option (BitVec 4)) : List Domain :=
  let nply := s.cw.nply
  match widthOf w with
  | none => [⟨0, 8 * nply, s.cur.lanes ||| s.cur.helpers⟩]
  | some k =>
    let n := min k nply
    ((List.range 8).filter (fun g => decide (g * n < nply))).filterMap (fun g =>
      let size := min n (nply - g * n)
      let m := plyRangeMask (g * n) size
      if m &&& s.cur.lanes = 0 then none else some ⟨8 * g * n, 8 * size, m⟩)

/-- The domain of a lane. -/
def domainOf (ds : List Domain) (l : Nat) : Domain := (ds.find? (fun d => hasLane d.lanes l)).getD ⟨0, 64, 0⟩

/-- A copy between lanes (R106, R107): an invalid source yields the lane's own value. -/
def laneCopy (s : State) (d a : BitVec 8) (w : Option (BitVec 4)) (src : Domain → Nat → Option Nat) : Result :=
  let ds := domains s w
  .next (s.mapLanes d.toNat (fun l =>
    let dom := domainOf ds l
    let from_ := match src dom l with
      | some j => if hasLane dom.lanes j then j else l
      | none => l
    ((s.vreg a.toNat from_).toNat, 0)))

/-- QXCH: a copy within the quad (R107). -/
def execVqxch (d a b : BitVec 8) (width : Option (BitVec 4)) (s : State) : Result :=
  laneCopy s d a width (fun _ l =>
    let j := match b.toNat with
      | 0 => l / 2 * 2 + (1 - l % 2)
      | 1 => l / 4 * 4 + (l % 4 + 2) % 4
      | 2 => l / 4 * 4 + (3 - l % 4)
      | n => l / 4 * 4 + (n - 3)
    some j)

/-- The lane at an index of the group, when the group has it. -/
def groupLane (dom : Domain) (k : Nat) : Option Nat := if k < dom.count then some (dom.first + k) else none

/-- SHFL with a lane index in a vector register (R107). -/
def execVshfl (d a b : BitVec 8) (width : Option (BitVec 4)) (s : State) : Result :=
  laneCopy s d a width (fun dom l => groupLane dom (s.vreg b.toNat l).toNat)

/-- SHFL with an immediate lane index (R107). -/
def execVshflVi (d a b : BitVec 8) (width : Option (BitVec 4)) (s : State) : Result :=
  laneCopy s d a width (fun dom _ => groupLane dom b.toNat)

/-- SHFL with a lane index in a scalar register (R107). -/
def execVshflVs (d a b : BitVec 8) (width : Option (BitVec 4)) (s : State) : Result :=
  laneCopy s d a width (fun dom _ => groupLane dom (s.slow b).toNat)

/-- SHFLUP: from i − imm8 (R107). -/
def execVshflup (d a b : BitVec 8) (width : Option (BitVec 4)) (s : State) : Result :=
  laneCopy s d a width (fun dom l => if l < dom.first + b.toNat then none else some (l - b.toNat))

/-- SHFLDN: from i + imm8 (R107). -/
def execVshfldn (d a b : BitVec 8) (width : Option (BitVec 4)) (s : State) : Result :=
  laneCopy s d a width (fun dom l => groupLane dom (l - dom.first + b.toNat))

/-- SHFLX: from the group index XOR imm8 (R107). -/
def execVshflx (d a b : BitVec 8) (width : Option (BitVec 4)) (s : State) : Result :=
  laneCopy s d a width (fun dom l => groupLane dom (Nat.xor (l - dom.first) b.toNat))

/-! ### Votes, ballots, reductions (R108 to R111) -/

/-- The participants of a domain. -/
def participants (s : State) (dom : Domain) : Lanes := dom.lanes &&& s.cur.guard

/-- A source predicate, inverted or not, among the participants. -/
def voteSource (s : State) (p : BitVec 4) (inv : Bool) (m : Lanes) : Lanes :=
  m &&& (if inv then ~~~(s.pred p.toNat) else s.pred p.toNat)

/-- VOTE: a predicate of each domain's participants (R109). -/
def execVvote (cond pd p : BitVec 4) (inv : Bool) (width : Option (BitVec 4)) (s : State) : Result :=
  .next ((domains s width).foldl (fun t dom =>
    let m := participants s dom
    let yes := voteSource s p inv m
    let v := match cond.toNat with
      | 0 => yes != 0
      | 1 => yes == m
      | 2 => yes == 0 || yes == m
      | _ => yes == 0
    t.setArch (t.arch.setP pd.toNat m (if v then m else 0))) s)

/-- BALLOT: each participant receives its domain's lane mask (R110). -/
def execVballot (d : BitVec 8) (width p : BitVec 4) (inv : Bool) (s : State) : Result :=
  .next ((domains s (some width)).foldl (fun t dom =>
    let m := participants s dom
    let yes := (voteSource s p inv m).toNat
    t.setArch (t.arch.setVs ((lanesOf m).flatMap (fun l =>
      [(d.toNat, l, BitVec.ofNat 32 yes), (d.toNat + 1, l, BitVec.ofNat 32 (yes / 2 ^ 32))])))) s)

/-- One step of a warp reduction (R111). -/
def wredStep (op : Nat) (x y : W32) : Nat × NumFlags :=
  match op with
  | 0 => ((x + y).toNat, 0)
  | 1 => fitInt true true 32 (x.toInt + y.toInt)
  | 2 => fitInt true false 32 ((x.toNat : Int) + y.toNat)
  | 3 => ((if y.slt x then y else x).toNat, 0)
  | 4 => ((if x.slt y then y else x).toNat, 0)
  | 5 => ((if y.ult x then y else x).toNat, 0)
  | 6 => ((if x.ult y then y else x).toNat, 0)
  | 7 => ((x &&& y).toNat, 0)
  | 8 => ((x ||| y).toNat, 0)
  | 9 => ((x ^^^ y).toNat, 0)
  | 10 => roundFlagged fmtFP32 false (fAdd (fmtFP32.decode x.toNat) (fmtFP32.decode y.toNat))
  | 11 => (fMinMax fmtFP32 true x.toNat y.toNat, 0)
  | _ => (fMinMax fmtFP32 false x.toNat y.toNat, 0)

/-- The running values of a reduction over the participants in rising order, with the flags raised. The first participant's value
is taken as it stands, a NaN that is not canonical included. DESIGN CHOICE (log entry 89). -/
def wredRun (op : Nat) (v : Nat → W32) : List Nat → Option W32 → List (Nat × W32) × NumFlags
  | [], _ => ([], 0)
  | l :: ls, acc =>
    let r : Nat × NumFlags := match acc with
      | none => ((v l).toNat, 0)
      | some x => wredStep op x (v l)
    let y := BitVec.ofNat 32 r.1
    let rest := wredRun op v ls (some y)
    ((l, y) :: rest.1, r.2 ||| rest.2)

/-- WRED: a reduction or scan of each domain's participants (R111). -/
def execVwred (d a : BitVec 8) (width op : BitVec 4) (scan : Bool) (s : State) : Result :=
  .next ((domains s (some width)).foldl (fun t dom =>
    let r := wredRun op.toNat (fun l => s.vreg a.toNat l) (lanesOf (participants s dom)) none
    let total := ((r.1.getLast?).map (·.2)).getD 0
    let out := r.1.map (fun e => (d.toNat, e.1, if scan then e.2 else total))
    t.setArch ((t.arch.setVs out).orNstat r.2)) s)

end Sys2Proof.Machine
end

