-- ==== Sys2Proof/Machine/Tokens.lean ====
section
/-! DEFINITION. The events of the token protocol: messages that reach an agent (R270 to R279), timers and evictions (R272,
R275), posted writes at their home (R212, R214, R274), and the census with recreation (R316 to R319). -/

namespace Sys2Proof.Machine

/-! ### Receiving a message -/

/-- A PRQ of the source is held at the agent's link input: the link layer refuses further messages of that source meanwhile
(R276). -/
def refusedAt (s : State) (agent : BitVec 13) (f : Flight) : Bool :=
  !f.held && s.tok.flights.any (fun e => e.held && e.msg.src == f.msg.src && e.dests.contains agent)

/-- Flight `k` as it is received by `agent`, and the state without it; none when there is no such message, or the link layer refuses
it. -/
def takeFlight (s : State) (types : List (BitVec 8)) : Option (Flight × State) :=
  match s.tok.flights[s.ev.k]? with
  | none => none
  | some f =>
    if f.dests.contains s.ev.agent && types.contains f.msg.type && !refusedAt s s.ev.agent f then
      let rest := f.dests.erase s.ev.agent
      let fs := if rest.isEmpty then dropAt s.tok.flights s.ev.k else setAt s.tok.flights s.ev.k { f with dests := rest }
      some (f, { s with tok := { s.tok with flights := fs } })
    else none

/-- A message that its receiver discards (R271). -/
def discardMsg (s : State) (agent : BitVec 13) (m : Msg) : State :=
  recordEvent s 0x14 1 agent none (BitVec.ofNat 64 m.sector) (headerWord0 m)

/-- A message of one of the given types reaches agent `ev.agent`: discarded when it carries the owner without data, else
handled; a handler that must wait leaves it in flight. -/
def receive (types : List (BitVec 8)) (h : State → Msg → Bool → BitVec 13 → Option State) (s : State) : Result :=
  .next (match takeFlight s types with
    | none => s
    | some (f, t) =>
      if f.msg.owner && f.msg.data.isNone then discardMsg t s.ev.agent f.msg
      else (h t f.msg f.poison s.ev.agent).getD s)

/-! ### Requests and tokens -/

/-- A transient request reaches an agent: kept at a pin, or answered after the agent's own satisfied access. -/
def onRequest (s : State) (m : Msg) (_poison : Bool) (agent : BitVec 13) : Option State :=
  if m.src = agent then some s
  else if pins s agent m.sector then some (holdAtPin s agent m)
  else if canAnswer s agent m.sector && accessReady s agent m.sector then none
  else answer s agent m

/-- RDS (R272): asks for one token with data. -/
def execRds (s : State) : Result := receive [1] onRequest s

/-- RDX (R272): asks for every token. -/
def execRdx (s : State) : Result := receive [2] onRequest s

/-- The types of R271. -/
def knownTypes : List (BitVec 8) := [1, 2, 3, 4, 5, 0x10, 0x11, 0x12, 0x13, 0x14, 0x20, 0x21, 0x22]

/-- TOK (R271): tokens without data. A message of an unknown type is discarded where it arrives. -/
def execTok (s : State) : Result :=
  match s.tok.flights[s.ev.k]? with
  | some f =>
    if knownTypes.contains f.msg.type then receive [3] acceptTokens s
    else receive [f.msg.type] (fun t m _ a => some (discardMsg t a m)) s
  | none => .next s

/-- TKD (R271): tokens with data. -/
def execTkd (s : State) : Result := receive [4] acceptTokens s

/-- WBK (R274): the owner returns to the home; dirty data is written. -/
def execWbk (s : State) : Result := receive [5] acceptTokens s

/-! ### Persistent requests (R276 to R278) -/

/-- A PRQ as its home keeps it. -/
def persistOf (m : Msg) : PersistReq := ⟨m.src, m.tc, m.count != 0, 0, m.reqid⟩

/-- PRQ at the home (R277): activated or queued with PND to the requester. -/
def onPrq (s : State) (m : Msg) (_poison : Bool) (agent : BitVec 13) : Option State :=
  if !isHomeOf s agent m.sector then some s
  else
    match takePersist s m.sector (persistOf m) with
    | none => none
    | some (t, queued) =>
      some (if queued then sendTo t (plainMsg 0x14 m.sector agent m.src m.reqid m.tc) false [m.src] else t)

/-- Flight `k` is held at the link input of its home (R276). -/
def holdFlight (s : State) (k : Nat) : State :=
  { s with tok := { s.tok with flights := modAt s.tok.flights k (fun f => { f with held := f.msg.type == 0x10 }) } }

/-- Among the PRQs that reach a home for one sector in the same cycle as flight `k`, the one that ranks first (R277). -/
def firstPrq (s : State) (k : Nat) : Nat :=
  match s.tok.flights[k]? with
  | none => k
  | some f =>
    let same (e : Flight) : Bool := e.msg.type == 0x10 && e.msg.sector == f.msg.sector && e.dests.contains s.ev.agent
    match bestOf ((s.tok.flights.filter same).map (fun e => persistOf e.msg)) with
    | none => k
    | some p => (indexOf (fun e => same e && persistOf e.msg == p) s.tok.flights).getD k

/-- PRQ (R276, R277): a persistent request reaches its home, or waits at the home's link input while the table or the queue is full.
`ev.flag`: every PRQ for the sector that is under way to the home reaches it in this cycle, and they are compared. -/
def execPrq (s : State) : Result :=
  let k := if s.ev.flag then firstPrq s s.ev.k else s.ev.k
  let s1 := { s with ev := { s.ev with k := k } }
  match s1.tok.flights[k]? with
  | none => .next s1
  | some f =>
    if f.msg.type == 0x10 && f.dests.contains s.ev.agent && isHomeOf s s.ev.agent f.msg.sector
        && (takePersist s1 f.msg.sector (persistOf f.msg)).isNone then .next (holdFlight s1 k)
    else receive [0x10] onPrq s1

/-- PDQ (R278): the winner's request has ended. -/
def onPdq (s : State) (m : Msg) (_poison : Bool) (agent : BitVec 13) : Option State :=
  some (if isHomeOf s agent m.sector && s.tok.persist.any (fun e => e.sector == m.sector && e.winner.agent == m.src)
    then endActive s m.sector else s)

def execPdq (s : State) : Result := receive [0x11] onPdq s

/-- An activation number is later than the last one applied. -/
def isNewer (last : Option (BitVec 11)) (n : BitVec 11) : Bool :=
  match last with
  | none => true
  | some l => decide (1 ≤ (n - l).toNat) && decide ((n - l).toNat < 1024)

/-- PAC (R278): every token goes to the winner; the winner itself ends when it is satisfied. -/
def onPac (s : State) (m : Msg) (_poison : Bool) (agent : BitVec 13) : Option State :=
  let a := actState s agent m.sector
  if !isNewer a.last m.count then some s
  else
    let s1 := setAct s agent m.sector { a with last := some m.count, winner := some m.src, reqid := m.reqid, tc := m.tc }
    if m.src = agent then
      let s2 := setStage s1 agent m.sector m.reqid .active
      if s2.tok.reqs.any (fun r => r.agent == agent && r.sector == m.sector && r.reqid == m.reqid) then some (settleRequests s2 agent m.sector)
      else
        let home := homeAgent s.sys (sectorBase m.sector)
        some (sendTo s2 (plainMsg 0x11 m.sector agent home m.reqid m.tc) false [home])
    else if pins s agent m.sector then some s1
    else if accessReady s agent m.sector then none
    else applyWinner s1 agent m.sector

def execPac (s : State) : Result := receive [0x12] onPac s

/-- PDA (R278): the agent answers requests again. -/
def onPda (s : State) (m : Msg) (_poison : Bool) (agent : BitVec 13) : Option State :=
  let a := actState s agent m.sector
  some (if a.last = some m.count ∨ isNewer a.last m.count then
      setAct s agent m.sector { a with last := some m.count, winner := none } else s)

def execPda (s : State) : Result := receive [0x13] onPda s

/-- PND (R277): the requester's persistent request is queued. -/
def onPnd (s : State) (m : Msg) (_poison : Bool) (agent : BitVec 13) : Option State :=
  some { s with tok := { s.tok with reqs := s.tok.reqs.map (fun r =>
    if r.agent == agent && r.sector == m.sector && r.reqid == m.reqid && r.stage == .sent then { r with stage := .pending }
    else r) } }

def execPnd (s : State) : Result := receive [0x14] onPnd s

/-- A starved request becomes persistent: PRQ to the home, or the home's own entry (R275, R276). -/
def starve (s : State) (k : Nat) (r : TokenReq) : State :=
  let home := homeAgent s.sys (sectorBase r.sector)
  if r.agent = home then
    match takePersist { s with tok := { s.tok with reqs := setAt s.tok.reqs k { r with stage := .sent } } } r.sector
        ⟨r.agent, r.tc, r.write, 0, r.reqid⟩ with
    | none => s
    | some (t, queued) => if queued then setStage t r.agent r.sector r.reqid .pending else t
  else
    let m := { plainMsg 0x10 r.sector r.agent home r.reqid r.tc with count := if r.write then 2047 else 0 }
    sendTo { s with tok := { s.tok with reqs := setAt s.tok.reqs k { r with stage := .sent } } } m false [home]

/-- TRANSIENT_TIMER_EXPIRY (R275): request `ev.k` retries, or becomes persistent after the fourth retry. -/
def execTransientTimerExpiry (s : State) : Result :=
  .next (match s.tok.reqs[s.ev.k]? with
    | none => s
    | some r =>
      if r.stage ≠ .transient ∨ s.now < r.expiry then s
      else if holdsEnough s r.agent r.sector r.write then settleRequests s r.agent r.sector
      else if blockedFor s r.agent r.sector then s
      else if r.attempt < 5 then
        let tried := (r.tried ++ predicted s r.agent r.sector).eraseDups.filter (· != r.agent)
        let r' := { r with attempt := r.attempt + 1, tried := tried, expiry := s.now + ccToNs s (attemptCc s r.sector) }
        sendRequest { s with tok := { s.tok with reqs := setAt s.tok.reqs s.ev.k r' } } r'
      else starve s s.ev.k r)

/-- EVICTION (R272): `ev.agent` returns its tokens of `ev.sector` to the home. -/
def execEviction (s : State) : Result :=
  .next (
    let a := s.ev.agent
    let sec := s.ev.sector
    if !isOwnAgent s.sys a || isHomeOf s a sec then s else evict s a sec)

/-- PERSISTENT_REQUEST_5US (R317): an active request of sector `ev.sector` is 5 µs old. -/
def execPersistentRequest5us (s : State) : Result :=
  .next (match s.tok.persist.find? (fun e => e.sector == s.ev.sector) with
    | none => s
    | some e =>
      if e.noted ∨ s.now < e.since + 5000 then s
      else
        let home := homeAgent s.sys (sectorBase e.sector)
        let s1 := { s with tok := { s.tok with persist := s.tok.persist.map (fun x =>
          if x.sector == e.sector then { x with noted := true } else x) } }
        recordEvent s1 0x10 0 home none (BitVec.ofNat 64 e.sector)
          (Config.recordDetail 0x10 [e.winner.agent.toNat, s.now - e.since]))

/-! ### Posted writes at their home (R212, R214, R274) -/

/-- The new bytes of a RED's steps, each made from the bytes under it (R124). -/
def redSteps (op : BitVec 2) (d : SectorData) : List (Nat × List Byte) → SectorData
  | [] => d
  | (off, bs) :: r =>
    let old := leValue (sectorBytes d off bs.length)
    redSteps op (sectorPut d off (leSplit bs.length (redNew op bs.length old (leValue bs)))) r

/-- A posted write performed with all tokens at the home. -/
def performPosted (s : State) (home : BitVec 13) (w : PostedWrite) : State :=
  match w.red with
  | none => writeHeld s home w.sector w.steps
  | some op => writeHeld s home w.sector (w.steps.map (fun e =>
      (e.1, sectorBytes (redSteps op (holding s home w.sector).data w.steps) e.1 e.2.length)))

/-- Count an arrival of a write from another module (R214). -/
def countArrival (as : List Arrival) (home : Nat) (w : PostedWrite) : List Arrival :=
  let same (a : Arrival) : Bool := a.home == home && a.srcId == w.srcId && a.round == w.round
  if as.any same then as.map (fun a => if same a then { a with count := a.count + 1 } else a)
  else as ++ [⟨home, w.srcId, w.round, 1⟩]

/-- HOME_POSTED_WRITE (R274): posted write `ev.k` is performed once its home holds every token and no census of the sector is
under way (R327); else the home asks for them. A write of this module is acknowledged, one of another module counts as arrived (R327). -/
def execHomePostedWrite (s : State) : Result :=
  .next (match s.tok.posted[s.ev.k]? with
    | none => s
    | some p =>
      let home := ownAgent s.sys (512 + p.home)
      let sec := p.write.sector
      if censusHolds s sec then s
      else if !satisfied s home sec true then startRequest s home sec true p.write.tc
      else
        let s1 := performPosted s home p.write
        let t := { s1.tok with posted := dropAt s1.tok.posted s.ev.k }
        let t1 := match p.ack with
          | some a => { t with acks := t.acks ++ [a] }
          | none => { t with arrivals := countArrival t.arrivals p.home p.write }
        settleRequests { s1 with tok := t1 } home sec)

/-- The pairs of source identity and round that a home counts arrivals for, or will (R214). -/
def countedPairs (s : State) (home : Nat) : List (W64 × BitVec 32) :=
  ((s.tok.arrivals.filter (fun a => a.home == home)).map (fun a => (a.srcId, a.round))
    ++ (s.tok.posted.filter (fun p => p.home == home && p.ack.isNone)).map (fun p => (p.write.srcId, p.write.round))).eraseDups

/-- A write from another module is refused: all 4096 counters of the home are in use (R214). -/
def refusesWrite (s : State) (home : Nat) : Bool := decide (4096 ≤ (countedPairs s home).length)

/-- A posted write of another module reaches its home; a refused one stays with the link that resends it (R213, R214). -/
def arriveWrite (s : State) (w : PostedWrite) : State :=
  let home := homeIndex s.sys (sectorBase w.sector)
  if moduleOf s.sys (sectorBase w.sector) ≠ s.sys.modid.toNat ∨ refusesWrite s home then s
  else { s with tok := { s.tok with posted := s.tok.posted ++ [⟨home, w, none⟩] } }

/-- HOME_ARRIVAL_QUERY (R213, R214): home `ev.home` is asked how many writes of (`ev.srcId`, `ev.round`) have arrived; a
count that reaches `ev.count` frees the counter. A counter that a warm reset has lost is reported as such, once. -/
def execHomeArrivalQuery (s : State) : Result :=
  .next (
    let same (a : Arrival) : Bool := a.home == s.ev.home && a.srcId == s.ev.srcId && a.round == s.ev.round
    let found := s.tok.arrivals.find? same
    let n := (found.map (·.count)).getD 0
    let key := (s.ev.home, s.ev.srcId, s.ev.round)
    let lost := s.tok.lost.contains key
    let t := { s.tok with lost := s.tok.lost.filter (· != key) }
    let t1 := if lost || (found.isSome && decide (s.ev.count ≤ n)) then { t with arrivals := t.arrivals.filter (fun a => !same a) } else t
    let s1 := { s with tok := t1 }
    linkSend s1 (Config.linkTo s.ev.k % 24) (.reply s.ev.srcId s.ev.round s.ev.home n lost))

/-! ### Census and recreation (R316 to R319) -/

/-- Every agent of the coherence domain but one. -/
def domainAgents (s : State) (home : BitVec 13) : List (BitVec 13) :=
  (ownAgents s).filter (· != home) ++ (otherModules s).flatMap (fun m =>
    ((List.range 222) ++ (List.range 9).map (512 + ·)).map (fun n => BitVec.ofNat 13 (1024 * m + n)))

/-- Recreations of a home within the last 100 µs (R319). -/
def recentRecreations (s : State) (sec : Nat) : Nat :=
  s.tok.recreated.countP (fun e => decide (s.now < e.2 + 100000)
    && homeAgent s.sys (sectorBase e.1) == homeAgent s.sys (sectorBase sec))

/-- A census or a recreation of the sector is put off (R319). -/
def quarantined (s : State) (sec : Nat) : Bool :=
  s.tok.recreated.any (fun e => e.1 == sec && decide (s.now < e.2 + 100000)) || decide (4 ≤ recentRecreations s sec)

/-- The trigger of a census holds (R316). -/
def censusTrigger (s : State) (sec : Nat) : Bool :=
  (Sparse.get ({} : HomeMeta) s.tok.homes sec).badParity
    || s.tok.persist.any (fun e => e.sector == sec && decide (e.since + 20000 ≤ s.now))

def setCensus (s : State) (c : Census) : State :=
  { s with tok := { s.tok with census := s.tok.census.filter (fun x => x.sector != c.sector) ++ [c] } }

def dropCensus (s : State) (sec : Nat) : State :=
  { s with tok := { s.tok with census := s.tok.census.filter (fun x => x.sector != sec) } }

/-- Ask every agent for its tokens (R317). -/
def censusRound (s : State) (sec round : Nat) (phase : CensusPhase) : State :=
  let home := homeAgent s.sys (sectorBase sec)
  let c : Census := {
    sector := sec, phase := phase, waiting := domainAgents s home, until_ := 0, n := 0, owners := 0,
    dirty := false, poison := false, data := 0 }
  let m := { plainMsg 0x20 sec home 0 0 0 with count := BitVec.ofNat 11 round, serial := serialOf s sec }
  broadcast (setCensus s c) home m

/-- Round 1 begins; the home stops giving tokens of the sector. -/
def beginCensus (s : State) (sec : Nat) : State :=
  let home := homeAgent s.sys (sectorBase sec)
  let s1 := setAct s home sec { actState s home sec with frozen := true, serial := serialOf s sec }
  censusRound s1 sec 1 .round1

/-- A bit of a sector's 16 metadata bits or their parity has changed, so that they fail parity (R300); `k` numbers the bit, 15 standing
for the parity bit. -/
def flipMeta (m : HomeMeta) (k : Nat) : HomeMeta :=
  let w := Nat.xor (m.serial.toNat * 4096 + boolNat m.owner * 2048 + m.count.toNat) (if k % 16 = 15 then 0 else 2 ^ (k % 16))
  { serial := BitVec.ofNat 3 (w / 4096), owner := bitOf w 11, count := BitVec.ofNat 11 w, badParity := true }

/-- CENSUS_START (R316): the census of physical sector `ev.sector`, a sector of this module. `ev.flag`: its metadata is found to
fail parity, in bit `ev.count`. Inside a quarantine it is deferred (R319). -/
def execCensusStart (s : State) : Result :=
  .next (
    let sec := (domainSector s.sys s.ev.sector).getD s.ev.sector
    if !isHomeOf s (homeAgent s.sys (sectorBase sec)) sec || s.tok.census.any (fun c => c.sector == sec) then s
    else
      let m := Sparse.get ({} : HomeMeta) s.tok.homes sec
      let s1 := if s.ev.flag then
          { s with tok := { s.tok with homes := Sparse.set {} s.tok.homes sec (flipMeta m s.ev.count) } } else s
      if !censusTrigger s1 sec then s1
      else if quarantined s1 sec then
        setCensus s1 {
          sector := sec, phase := .deferred, waiting := [], until_ := 0, n := 0, owners := 0, dirty := false, poison := false,
          data := 0 }
      else beginCensus s1 sec)

/-- CNQ (R317): the agent stops sending tokens of the sector and reports what it holds. -/
def onCnq (s : State) (m : Msg) (_poison : Bool) (agent : BitVec 13) : Option State :=
  let s1 := setAct s agent m.sector { actState s agent m.sector with frozen := true, serial := m.serial }
  let h := holding s1 agent m.sector
  let r : Msg := { plainMsg 0x21 m.sector agent m.src m.reqid m.tc with
    count := BitVec.ofNat 11 (h.tokens - boolNat h.owner), owner := h.owner, dirty := h.dirty && h.owner,
    data := if h.owner then some h.data else none, serial := m.serial }
  some (sendTo s1 r h.poison [m.src])

def execCnq (s : State) : Result := receive [0x20] onCnq s

/-- The agent resumes after a census that found nothing missing (R317). -/
def thaw (s : State) (agent : BitVec 13) (sec : Nat) : Option State :=
  applyWinner (setAct s agent sec { actState s agent sec with frozen := false }) agent sec

/-- After round 2: the tokens add up and the census ends, or the sector is recreated, which is recorded as RCR goes out (R317, R318,
R331). A recreation beyond the fourth in 100 µs waits (R319). -/
def finishRound2 (s : State) (c : Census) : State :=
  let home := homeAgent s.sys (sectorBase c.sector)
  let serial := serialOf s c.sector
  let rcr := plainMsg 0x22 c.sector home 0 0 0
  if c.n = 2048 ∧ c.owners = 1 then
    let s1 := recordEvent (dropCensus s c.sector) 0x11 0 home none (BitVec.ofNat 64 c.sector) (BitVec.ofNat 64 c.n)
    let hm := Sparse.get ({} : HomeMeta) s1.tok.homes c.sector
    let t1 := { s1.tok with
      homes := Sparse.set {} s1.tok.homes c.sector { hm with badParity := false }
      persist := s1.tok.persist.map (fun e => if e.sector == c.sector then { e with since := s.now } else e) }
    let s2 := broadcast { s1 with tok := t1 } home { rcr with serial := serial }
    settleAt ((thaw s2 home c.sector).getD s2) home c.sector
  else if 4 ≤ recentRecreations s c.sector then setCensus s c
  else
    let t1 := { s.tok with
      recreated := s.tok.recreated.filter (fun e => decide (s.now < e.2 + 100000)) ++ [(c.sector, s.now)]
      discard := s.tok.discard ++ [⟨home, c.sector, serial, s.now + 100000⟩] }
    let s1 := setCensus { s with tok := t1 } { c with phase := .recreate, waiting := domainAgents s home }
    let s2 := recordEvent s1 0x12 2 home none (BitVec.ofNat 64 c.sector)
      (Config.recordDetail 0x12 [serial.toNat, (serial + 1).toNat, c.n, boolNat (c.owners == 0)])
    broadcast s2 home { rcr with serial := serial + 1 }

/-- Every answer to the recreation has arrived (R318): the owner's dirty data is written, or without an owner the sector is
poisoned and the error recorded (R301, R332); the metadata holds every token
under the new serial, and the active winner gets them, or the home's own request is satisfied. -/
def finishRecreation (s : State) (c : Census) : State :=
  let home := homeAgent s.sys (sectorBase c.sector)
  let old := serialOf s c.sector
  let s1 := if c.dirty then
      let t := setHomeData s c.sector c.data
      { t with tok := { t.tok with poison := Sparse.set false t.tok.poison c.sector c.poison } }
    else if c.owners = 0 then
      let t := { s with tok := { s.tok with poison := Sparse.set false s.tok.poison c.sector true } }
      recordEvent t 0x03 1 home none (sectorPhysical s.sys c.sector) (Config.recordDetail 0x03 [homeIndex s.sys (sectorBase c.sector)])
    else s
  let hm : HomeMeta := { serial := old + 1, owner := true, count := 2047, badParity := false }
  let s2 := dropCensus { s1 with tok := { s1.tok with homes := Sparse.set {} s1.tok.homes c.sector hm } } c.sector
  let s3 := { s2 with tok := { s2.tok with persist := s2.tok.persist.map (fun e =>
    if e.sector == c.sector then { e with since := s.now } else e) } }
  settleAt ((thaw s3 home c.sector).getD s3) home c.sector

/-- What CNR reports is added in round 2. -/
def addReport (c : Census) (m : Msg) (poison : Bool) : Census :=
  let n := c.n + m.count.toNat + boolNat m.owner
  if m.owner then
    { c with n := n, owners := c.owners + 1, dirty := m.dirty, poison := poison, data := m.data.getD 0 }
  else { c with n := n }

/-- What the home holds is added when every report of round 2 has arrived (R317). -/
def addHome (s : State) (c : Census) : Census :=
  let h := holding s (homeAgent s.sys (sectorBase c.sector)) c.sector
  { c with n := c.n + h.tokens, owners := c.owners + boolNat h.owner }

/-- CNR (R317): a report reaches the home; the last one of a round ends it. -/
def onCnr (s : State) (m : Msg) (poison : Bool) (agent : BitVec 13) : Option State :=
  match s.tok.census.find? (fun c => c.sector == m.sector) with
  | none => some s
  | some c =>
    if !isHomeOf s agent m.sector || !c.waiting.contains m.src then some s
    else
      let c1 := { c with waiting := c.waiting.erase m.src }
      some (match c.phase with
        | .round1 => setCensus s (if c1.waiting.isEmpty then { c1 with phase := .wait50, until_ := s.now + 50000 } else c1)
        | .round2 =>
          let c2 := addReport c1 m poison
          if c2.waiting.isEmpty then finishRound2 s (addHome s c2) else setCensus s c2
        | .recreate => if c1.waiting.isEmpty then finishRecreation s c1 else setCensus s c1
        | .wait50 | .deferred => s)

def execCnr (s : State) : Result := receive [0x21] onCnr s

/-- CENSUS_ROUND2 (R317): 50 µs after the first round, the second one. -/
def execCensusRound2 (s : State) : Result :=
  .next (match s.tok.census.find? (fun c => c.sector == s.ev.sector) with
    | none => s
    | some c => if c.phase ≠ .wait50 ∨ s.now < c.until_ then s else censusRound s c.sector 2 .round2)

/-- RCR (R318): the census query's serial thaws the agent; another one makes it discard every token of the sector and
report. -/
def onRcr (s : State) (m : Msg) (_poison : Bool) (agent : BitVec 13) : Option State :=
  let a := actState s agent m.sector
  if !a.frozen then some s
  else if pins s agent m.sector || accessReady s agent m.sector then none
  else if m.serial = a.serial then thaw s agent m.sector
  else
    match loseTokens s agent m.sector with
    | none => none
    | some t =>
      let t1 := setAct (setHolding t agent m.sector {}) agent m.sector { a with frozen := false }
      let own := moduleOf s.sys (sectorBase m.sector) = s.sys.modid.toNat
      let t2 := { t1 with tok := { t1.tok with
        discard := t1.tok.discard ++ [⟨agent, m.sector, a.serial, s.now + 100000⟩]
        serials := if own then t1.tok.serials else Sparse.set 0 t1.tok.serials m.sector m.serial } }
      some (sendTo t2 { plainMsg 0x21 m.sector agent m.src m.reqid m.tc with serial := m.serial } false [m.src])

def execRcr (s : State) : Result := receive [0x22] onRcr s

/-- DISCARD_ENTRY_EXPIRE (R319): entry `ev.k` has lived 100 µs. -/
def execDiscardEntryExpire (s : State) : Result :=
  .next (match s.tok.discard[s.ev.k]? with
    | none => s
    | some d => if s.now < d.expiry then s else { s with tok := { s.tok with discard := dropAt s.tok.discard s.ev.k } })

/-- CENSUS_DEFERRED_START (R319): the window that deferred the census of `ev.sector` has ended; it starts if its trigger
still holds. A recreation that waited for the window goes on. -/
def execCensusDeferredStart (s : State) : Result :=
  .next (match s.tok.census.find? (fun c => c.sector == s.ev.sector) with
    | none => s
    | some c =>
      if c.phase = .deferred then
        if quarantined s c.sector then s
        else
          let s1 := dropCensus s c.sector
          if censusTrigger s1 c.sector then beginCensus s1 c.sector else s1
      else if c.phase = .round2 ∧ c.waiting.isEmpty then finishRound2 s c
      else s)

end Sys2Proof.Machine
end

