-- ==== Sys2Proof/Machine/Links.lean ====
section
/-! DEFINITION. The selvage links: transmission, resending, lanes, and the fault injectors (R13, R292, R320, R328). -/

namespace Sys2Proof.Machine

/-- The links work while main power is good and the module is not in recovery (R7). -/
def linksWork (s : State) : Bool := s.sys.span == .service || s.sys.span == .bringUp

/-- A corrected error is recorded and changes nothing (R300). -/
def noteCorrected (s : State) (src : BitVec 13) (pa : W64) (what : Nat) : State :=
  recordEvent s 0x02 1 src none pa (Config.recordDetail 0x02 [what])

/-- A flit with an error has been sent again: a corrected error of a link, which lies at no address (R300). -/
def noteResend (s : State) (what : Nat) : State := noteCorrected s (Config.recordSource 0x02) (Config.recordDetail 0x102 [what]) what

/-! ### Repair records (R321) -/

/-- The fields of a repair record (R321): TYPE, ASHLAR, UNIT, LOC, SPARE. -/
def repairFields (r : BitVec 128) : Nat × Nat × Nat × Nat × Nat :=
  (r.toNat / 2 ^ 120, bitsOf r.toNat 116 4, bitsOf r.toNat 104 12, bitsOf r.toNat 64 40, r.toNat % 2 ^ 64)

/-- The records of a section in order. -/
def sectionRecords (m : Sparse (BitVec 128)) : List (BitVec 128) := m.map (·.2)

/-- The management controller appends a field record and notes it with type 0x43; a full section takes no more. -/
def appendRepair (s : State) (type ashlar : Nat) (unit loc spare : W64) : State :=
  if 4096 ≤ s.sys.fieldCount then s
  else
    let r : BitVec 128 := BitVec.ofNat 128 (type * 2 ^ 120 + ashlar % 16 * 2 ^ 116 + unit.toNat % 4096 * 2 ^ 104
      + loc.toNat % 2 ^ 40 * 2 ^ 64 + spare.toNat)
    let s1 := { s with sys := { s.sys with fieldMap := Sparse.insert s.sys.fieldCount r s.sys.fieldMap,
                                           fieldCount := s.sys.fieldCount + 1 } }
    recordEvent s1 0x43 2 (Config.recordSource 0x43) none (Config.recordDetail 0x143 [type, ashlar]) (Config.recordDetail 0x43 [type, ashlar])

/-- The pool that a repair of `type` takes its spare from (R320): the core and the channel spares are an ashlar's, the bank spares a
core's, the way spares a set group's, the lane spares a link's. -/
def samePool (type ashlar unit : Nat) (r : BitVec 128) : Bool :=
  let f := repairFields r
  f.1 == type && f.2.1 == ashlar && (type == 1 || type == 4 || f.2.2.1 == unit)

/-- The next spare of a pool, by the records that both sections hold: spares of a pool are numbered from 0 in the order in which they
are taken (DESIGN CHOICE, log entry 95). -/
def nextSpare (s : State) (type ashlar unit : Nat) : Nat :=
  (sectionRecords s.sys.factory ++ sectionRecords s.sys.fieldMap).countP (samePool type ashlar unit)

/-- A record that gives a unit its pool's next spare, brought in at the next bring-up (R10, R320). -/
def noteRepair (s : State) (type ashlar unit loc : Nat) : State :=
  appendRepair s type ashlar (BitVec.ofNat 64 unit) (BitVec.ofNat 64 loc) (BitVec.ofNat 64 (nextSpare s type ashlar unit))

/-- The spare that stands in for a unit since the latest bring-up, of the `n` that its pool holds (R3, R9, R320). -/
def spareOf (s : State) (type ashlar unit loc n : Nat) : Option Nat :=
  (s.sys.repairs.find? (fun r => let f := repairFields r
    f.1 == type && f.2.1 == ashlar && f.2.2.1 == unit && f.2.2.2.1 == loc && decide (f.2.2.2.2 < n))).map (fun r => (repairFields r).2.2.2.2)

/-- The physical core, 0 to 12, behind a logical one (R3): physical core 12 is the ashlar's spare. -/
def physicalCore (s : State) (core : Nat) : Nat :=
  match spareOf s 1 (ashlarOf core) (core % 12) 0 1 with
  | some _ => 12
  | none => core % 12

/-- The physical bank, 0 to 399, behind a scratchpad bank of a core: banks 384 to 399 are its spares (R2, R320). -/
def physicalBank (s : State) (core bank : Nat) : Nat :=
  match spareOf s 2 (ashlarOf core) (physicalCore s core) bank 16 with
  | some k => 384 + k
  | none => bank

/-! ### Transmission -/

/-- A link layer accepts an item: it is transmitted and kept for resending. A posted write is acknowledged at that moment
(R213). -/
def linkAccept (s : State) (l : Nat) (x : LinkItem) : State :=
  let k := s.link l
  let s1 := s.setLink l { k with replay := k.replay ++ [x] }
  match x with
  | .write _ w id => { s1 with tok := { s1.tok with acks := s1.tok.acks ++ [(w, id)] } }
  | _ => s1

/-- The injector takes this item: it is armed, and the item is a token message whose TYPE and SECTOR match. -/
def injectorTakes (i : Injector) (x : LinkItem) : Bool :=
  match x with
  | .token m => i.w0.getLsbD 63 && m.type.toNat == bitsOf i.w0.toNat 40 8 && m.sector == bitsOf i.w1.toNat 0 46
  | _ => false

/-- LINK_TRANSMIT (R13): link `ev.link` transmits what waits longest; an armed injector takes a matching message instead
(R328). -/
def execLinkTransmit (s : State) : Result :=
  .next (
    let l := s.ev.link
    let k := s.link l
    if !linksWork s || !k.trained || decide (24 ≤ l) then s
    else match k.queue with
      | [] => s
      | x :: rest =>
        if injectorTakes k.inj x then
          let until_ := s.now + 1000 * bitsOf k.inj.w0.toNat 48 7
          s.setLink l { k with
            queue := rest
            inj := { k.inj with w0 := k.inj.w0 &&& ~~~((1 : W64) <<< 63), taken := k.inj.taken ++ [(x, until_)] } }
        else linkAccept (s.setLink l { k with queue := rest }) l x)

/-- LINK_RESEND (R13): item `ev.k` of link `ev.link` is transmitted again, over lane `ev.lane`: its flit had an error, which is thereby
corrected and recorded (R300), or with `ev.flag` the far side had refused it (R214, R289). -/
def execLinkResend (s : State) : Result :=
  .next (
    let l := s.ev.link
    let k := s.link l
    match k.replay[s.ev.k]? with
    | none => s
    | some x =>
      if !linksWork s then s
      else
        let recent := k.resends.filter (fun e => decide (s.now < e.2 + 1000000))
        let t := s.setLink l { k with replay := dropAt k.replay s.ev.k ++ [x], resends := recent ++ [(s.ev.lane, s.now)] }
        if s.ev.flag then t else noteResend t 16)

/-- The far link layer has accepted item `k`. -/
def linkDelivered (s : State) (l k : Nat) : State :=
  let e := s.link l
  s.setLink l { e with replay := dropAt e.replay k }

/-- LINK_LANE_SWAP (R320): a lane with more than 16 resends in 1 ms is replaced by the spare; without a spare the link runs
with one lane fewer. -/
def execLinkLaneSwap (s : State) : Result :=
  .next (
    let l := s.ev.link
    let k := s.link l
    let bad := k.resends.countP (fun e => e.1 == s.ev.lane && decide (s.now < e.2 + 1000000))
    if bad ≤ 16 ∨ !linksWork s then s
    else
      let rest := k.resends.filter (fun e => e.1 != s.ev.lane)
      if k.spareUsed then s.setLink l { k with lanes := k.lanes - 1, resends := rest }
      else
        let s1 := s.setLink l { k with spareUsed := true, resends := rest }
        let s2 := recordEvent s1 0x20 1 (Config.recordSource 0x20) none (BitVec.ofNat 64 l) (BitVec.ofNat 64 s.ev.lane)
        noteRepair s2 6 8 l s.ev.lane)

/-- LINK_RETRAIN (R325): link `ev.link` is trained again; lane `ev.lane` is recorded. -/
def execLinkRetrain (s : State) : Result :=
  .next (
    if !linksWork s || decide (24 ≤ s.ev.link) then s
    else
      let s1 := s.setLink s.ev.link { s.link s.ev.link with trained := true }
      recordEvent s1 0x21 1 (Config.recordSource 0x21) none (BitVec.ofNat 64 s.ev.link) (BitVec.ofNat 64 s.ev.lane))

/-! ### The fault injector (R328) -/

/-- Word 0 written: FIRED is W1C, reserved bits read 0, and ARM stays 0 when HOLD is 0 or above 100. -/
def injectorWord0 (old v : W64) : W64 :=
  let hold := bitsOf v.toNat 48 7
  let fired := old.getLsbD 62 && !v.getLsbD 62
  let arm := v.getLsbD 63 && decide (1 ≤ hold) && decide (hold ≤ 100)
  BitVec.ofNat 64 (boolNat arm * 2 ^ 63 + boolNat fired * 2 ^ 62 + hold * 2 ^ 48 + bitsOf v.toNat 40 8 * 2 ^ 40)

/-- A word of a link's injector written; it is armed in the service span only, and a write in another span takes its other fields. -/
def setInjector (s : State) (l : Nat) (word1 : Bool) (v : W64) : State :=
  if 24 ≤ l then s
  else
    let k := s.link l
    let w0 := injectorWord0 k.inj.w0 v
    let i := if word1 then { k.inj with w1 := BitVec.ofNat 64 (bitsOf v.toNat 0 46) }
      else { k.inj with w0 := if s.sys.span = .service then w0 else w0 &&& ~~~((1 : W64) <<< 63) }
    s.setLink l { k with inj := i }

/-- A hart at supervisor level or above (R246). A guest reaches what its hypervisor maps. -/
def supervisor (h : Hart) : Bool := h.mode == .s || h.mode == .m || h.mode == .vs

/-- A supervisor hart of the resident OS's partition (R328). -/
def osHart (h : Hart) : Bool := supervisor h && h.part == 0

/-- INJECTOR_WRITE (R328): hart `ev.hart` writes `ev.val0` to word 0, or to word 1 when `ev.flag`, of the injector of link
`ev.link`. -/
def execInjectorWrite (s : State) : Result :=
  .next (if osHart (s.hart s.ev.hart) then setInjector s s.ev.link s.ev.flag s.ev.val0 else s)

/-- INJECTOR_RELEASE (R328): a held message has been held for HOLD µs; the link layer sends it, and FIRED becomes 1. -/
def execInjectorRelease (s : State) : Result :=
  .next (
    let l := s.ev.link
    let k := s.link l
    match k.inj.taken[s.ev.k]? with
    | none => s
    | some (x, t) =>
      if s.now < t then s
      else
        let i := { k.inj with w0 := k.inj.w0 ||| ((1 : W64) <<< 62), taken := dropAt k.inj.taken s.ev.k }
        linkAccept (s.setLink l { k with inj := i }) l x)

end Sys2Proof.Machine
end

