-- ==== Sys2Proof/Machine/Reliability.lean ====
section
/-! DEFINITION. Errors that the storage structures detect (R300, R301, R320), the patrol scrub, the self-test product (R311, R312)
and the auditor's replay (R315). -/

namespace Sys2Proof.Machine

/-! ### Detected errors -/

/-- The number of a structure in an error's record, where the manual names the structure and gives it no coding (log entry 47). -/
def Structure.number : Structure → Nat
  | .lastLevelCache => 0
  | .l2 => 1
  | .scratchpad => 2
  | .registerCache => 3
  | .fifo => 4
  | .tile => 5

/-- An uncorrectable error in a sector is found (R301). -/
def noteUncorrected (s : State) (src : BitVec 13) (sec what : Nat) : State :=
  recordEvent s 0x03 1 src none (sectorPhysical s.sys sec) (Config.recordDetail 0x03 [what])

/-- The sector that a home keeps is poisoned: in DRAM, LPDDR6 or the home's last-level cache (R301). -/
def poisonHome (s : State) (sec what : Nat) : State :=
  let home := homeAgent s.sys (sectorBase sec)
  if !isHomeOf s home sec then s
  else noteUncorrected { s with tok := { s.tok with poison := Sparse.set false s.tok.poison sec true } } home sec what

/-- A DRAM row corrects an error; a row that has corrected more than 16 in 24 h is replaced at the next bring-up (R320). -/
def countRow (s : State) (sec : Nat) : State :=
  let row := Config.dramRow sec
  let recent := (row, s.now) :: s.sys.rowErrors.filter (fun e => decide (s.now < e.2 + 86400000000000))
  if recent.countP (fun e => e.1 == row) ≤ 16 then { s with sys := { s.sys with rowErrors := recent } }
  else
    let channel := match physPlace s.sys (sectorBase sec) with
      | .memory _ x => if x < dramEnd then x % 0x600000000 / 0x80000000 else 0
      | _ => 0
    noteRepair { s with sys := { s.sys with rowErrors := recent.filter (fun e => e.1 != row) } } 3 (homeIndex s.sys (sectorBase sec)) channel row

/-- A seam lane resends, which corrects an error of a flit (R300); a lane with more than 16 resends in 1 ms is replaced by the spare of its 16 lanes, or dropped where that is
taken (R320). -/
def seamResend (s0 : State) (ashlar lane : Nat) : State :=
  let s := noteResend s0 17
  let key := ashlar * 4096 + lane
  let recent := (key, s.now) :: s.sys.seamResends.filter (fun e => decide (s.now < e.2 + 1000000))
  if s.sys.seamSwapped.contains key then s
  else if recent.countP (fun e => e.1 == key) ≤ 16 then { s with sys := { s.sys with seamResends := recent } }
  else
    let s1 := { s with sys := { s.sys with seamResends := recent.filter (fun e => e.1 != key), seamSwapped := key :: s.sys.seamSwapped } }
    if s.sys.seamSwapped.any (fun k => k / 16 == key / 16) then s1
    else
      noteRepair (recordEvent s1 0x20 1 (Config.recordSource 0x20) none (Config.recordDetail 0x120 [ashlar]) (BitVec.ofNat 64 lane))
        6 ashlar (lane / 16) lane

/-- A storage structure detects an error while the module works (R300, R301, R320). A sector is given by its physical number. -/
def upset (s : State) (u : Upset) : State :=
  if s.sys.span ≠ .service ∧ s.sys.span ≠ .bringUp then s
  else match u with
    | .corrected what core pa => noteCorrected s (coreAgent s core) pa what.number
    | .l1 core line =>
      noteCorrected (s.setCore core (l1Drop (s.core core) line)) (coreAgent s core) (sectorPhysical s.sys (2 * line)) 6
    | .held agent sec0 =>
      let sec := (domainSector s.sys sec0).getD sec0
      let h := holding s agent sec
      if !h.valid || isHomeOf s agent sec then s
      else noteUncorrected { s with tok := s.tok.setHeld (holdKey agent sec) { h with poison := true } } agent sec 1
    | .way sec0 group way =>
      let sec := (domainSector s.sys sec0).getD sec0
      let i := homeIndex s.sys (sectorBase sec)
      let s1 := poisonHome s sec 0
      if s.sys.deadWays.contains (i, group, way) then s1
      else noteRepair { s1 with sys := { s1.sys with deadWays := (i, group, way) :: s1.sys.deadWays } } 5 i group way
    | .bank core bank =>
      if 96 ≤ core ∨ 384 ≤ bank ∨ (s.core core).fenced then s
      else noteRepair (fenceCore s core) 2 (ashlarOf core) (physicalCore s core) (physicalBank s core bank)
    | .metadata sec0 bit =>
      let sec := (domainSector s.sys sec0).getD sec0
      if !isHomeOf s (homeAgent s.sys (sectorBase sec)) sec then s
      else { s with tok := { s.tok with homes := Sparse.set {} s.tok.homes sec (flipMeta (Sparse.get {} s.tok.homes sec) bit) } }
    | .channel ashlar channel => if 8 ≤ ashlar then s else noteRepair s 4 ashlar channel 0
    | .seamResend ashlar lane => seamResend s ashlar lane

/-- PATROL_SCRUB (R300): physical sector `ev.sector` of this module's DRAM or LPDDR6 is read. `ev.count` 0: it is sound; 1: an error is
corrected and written back; 2: it is uncorrectable, and the sector is poisoned (R301). -/
def execPatrolScrub (s : State) : Result :=
  .next (
    let sec := (domainSector s.sys s.ev.sector).getD s.ev.sector
    match physPlace s.sys (sectorBase sec) with
    | .memory m x =>
      let home := homeAgent s.sys (sectorBase sec)
      if m ≠ s.sys.modid.toNat ∨ !isHomeOf s home sec then s
      else if s.ev.count = 1 then countRow (noteCorrected s home (BitVec.ofNat 64 x) (7 + homeIndex s.sys (sectorBase sec))) sec
      else if s.ev.count = 2 then poisonHome s sec (7 + homeIndex s.sys (sectorBase sec))
      else s
    | _ => s)

/-! ### The self-test product -/

/-- The repair record of a core's sub-array, or of an array of it that is out (R321). -/
def repairArray (s : State) (type core : Nat) (loc : List Nat) : State :=
  appendRepair s type (ashlarOf core) (BitVec.ofNat 64 (physicalCore s core)) (Config.recordDetail (0x200 + type) loc)
    (Config.recordDetail (0x300 + type) (core :: loc))

/-- A core is fenced, and its repair record appended (R310, R321). -/
def fenceAndNote (s : State) (core : Nat) : State :=
  if (s.core core).fenced then s else noteRepair (fenceCore s core) 1 (ashlarOf core) (physicalCore s core) 0

/-- A failing sub-array is fenced (R312): the first of an array leaves it running at ¾ rate, the second takes it out of service;
without the sign-select array or any multiplier array the core is fenced. -/
def failSubArray (s : State) (core a : Nat) (sub : BitVec 2) : State :=
  let k := s.core core
  let st := (k.arrays[a]?).getD {}
  let fenced := st.fenced ||| ((1 : BitVec 4) <<< sub.toNat)
  let s1 := s.setCore core { k with arrays := setAt k.arrays a { st with fenced := fenced } }
  let s2 := recordEvent s1 0x40 2 (coreAgent s core) none (BitVec.ofNat 64 st.lastPass) (Config.recordDetail 0x40 [core, a, sub.toNat])
  let s3 := repairArray s2 (if inService { st with fenced := fenced } then 7 else 8) core [a, sub.toNat]
  let out (n : Nat) : Bool := !inService ((((s3.core core).arrays)[n]?).getD {})
  if out 3 || out 0 && out 1 && out 2 then fenceAndNote s3 core else s3

/-- SELF_TEST_PRODUCT (R311): array `ev.k` of core `ev.core`, idle, runs a test product; `ev.failing` is the sub-array that
fails. -/
def execSelfTestProduct (s : State) : Result :=
  .next (
    let k := s.core s.ev.core
    match k.arrays[s.ev.k]? with
    | none => s
    | some a =>
      if a.busy.isSome ∨ s.sys.span ≠ .service ∨ 96 ≤ s.ev.core then s
      else
        let t := s.setCore s.ev.core { k with arrays := setAt k.arrays s.ev.k { a with testPair := a.testPair + 1 } }
        match s.ev.failing with
        | some sub => failSubArray t s.ev.core s.ev.k sub
        | none =>
          t.setCore s.ev.core { k with arrays := setAt k.arrays s.ev.k { a with testPair := a.testPair + 1, lastPass := s.sys.time } })

/-! ### The audit replay -/

/-- The signature of a batch computed again from what the auditor copied. -/
def replaySignature (b : AuditBatch) : W64 :=
  b.ops.foldl (fun sig o => signature (matrixResult o.1 (fun i j => Sparse.get 0 o.2 (64 * i + j))).1 sig) 0

/-- A replay compared. -/
def noteReplay (s : State) : State := { s with sys := { s.sys with audDone := s.sys.audDone + 1 } }

/-- The mismatch of a batch: recorded, and the core at fault fenced (R315). The controller appends a field record, for a core that is
fenced already too (R321). -/
def auditMismatch (s : State) (b : AuditBatch) (core : Nat) : State :=
  let t := recordEvent s 0x41 2 (coreAgent s core) none b.batch (Config.recordDetail 0x41 [b.ctx.toNat, core])
  if (t.core core).fenced then noteRepair t 1 (ashlarOf core) (physicalCore t core) 0 else fenceAndNote t core

/-- AUDIT_REPLAY (R315): complete sampled batch `ev.k` is replayed on core (g + 12) mod 96; on a mismatch a third replay on
core (g + 24) mod 96 decides. `ev.val0` and `ev.val1` are the errors that the two replaying cores make, 0 on sound
hardware. -/
def execAuditReplay (s : State) : Result :=
  .next (match s.audit[s.ev.k]? with
    | none => s
    | some b =>
      if !b.complete then s
      else
        let s1 := noteReplay { s with audit := dropAt s.audit s.ev.k }
        let second := replaySignature b ^^^ s.ev.val0
        let third := replaySignature b ^^^ s.ev.val1
        if second = b.sig then s1
        else
          let s2 := noteReplay s1
          if third = b.sig then auditMismatch s2 b ((b.core + 12) % 96)
          else auditMismatch s2 b b.core)

end Sys2Proof.Machine
end

