-- ==== Sys2Proof/Machine/HartMem.lean ====
section
/-! DEFINITION. The module control window (R246, R254, R255, R266, R289, R314, R323, R328, R335) and the harts' memory accesses
(R221). -/

namespace Sys2Proof.Machine

/-! ### Reading the window -/

/-- MODSTAT (R335). -/
def modstat (s : State) : W64 :=
  BitVec.ofNat 64 (s.sys.clk * 2 ^ 48 + boolNat s.sys.therm * 2 ^ 43 + boolNat s.sys.mainPg * 2 ^ 42 + boolNat s.sys.auxPg * 2 ^ 41
    + boolNat s.sys.perst * 2 ^ 40 + s.sys.modid.toNat * 2 ^ 32 + s.sys.epoch.toNat * 2 ^ 16 + boolNat s.sys.dllc * 4
    + (match s.sys.span with
      | .auxiliary => 0
      | .bringUp => 1
      | .service => 2
      | .recovery => 3))

/-- FBSTAT of a core (R255). -/
def fbstat (k : Core) : W64 := BitVec.ofNat 64 (k.faults.countP (·.valid) * 256 + boolNat k.dropped)

/-- A word of a fault-buffer entry (R254). -/
def faultWord (e : FaultEntry) (word1 : Bool) : W64 :=
  if word1 then BitVec.ofNat 64 (e.count.toNat * 2 ^ 16 + e.cores.toNat)
  else BitVec.ofNat 64 (boolNat e.valid * 2 ^ 63 + e.kind.toNat * 2 ^ 61 + e.region.toNat * 2 ^ 16 + e.ctx.toNat)

/-- A word of a black-box record. -/
def boxWord (r : BoxRecord) (w : Nat) : W64 :=
  match w with
  | 0 => r.w0
  | 1 => r.w1
  | 2 => r.w2
  | _ => r.w3

/-- A core's fault register at an offset within its block. -/
def faultRead (k : Core) (off : Nat) : W64 :=
  if off = 0 then fbstat k
  else if 16 ≤ off ∧ off < 0x90 then faultWord ((k.faults[(off - 16) / 16]?).getD {}) (off % 16 == 8)
  else 0

/-- A register of a name port (R266). GO reads 0. -/
def portRead (p : NamePort) (off : Nat) : W64 :=
  if off = 8 then p.npa else if off = 16 then p.npb else if off = 24 then p.npst else if off = 32 then p.npw0
  else if off = 40 then p.npw1 else p.npcmd

/-- A 64-bit register of the control window; other offsets read 0. -/
def controlRead (s : State) (h : Hart) (off : Nat) : W64 :=
  if !supervisor h then 0
  else if off = 0 then s.sys.ctxBase
  else if off = 8 then s.names.reclaim
  else if off = 0x10 then s.names.recHead.setWidth 64
  else if off = 0x18 then s.names.recTail.setWidth 64
  else if 0x10000 ≤ off ∧ off < 0x16000 then faultRead (s.core ((off - 0x10000) / 0x100)) (off % 0x100)
  else if 0x20000 ≤ off ∧ off < 0x21000 then portRead (s.port ((off - 0x20000) / 0x40)) (off % 0x40)
  else if 0x30000 ≤ off ∧ off < 0x30080 then Sparse.get 0 s.sys.channels ((off - 0x30000) / 8)
  else if off = 0x40000 then s.sys.audctl
  else if off = 0x40008 then BitVec.ofNat 64 (s.sys.audSkip.toNat * 2 ^ 32 + s.sys.audDone.toNat)
  else if off = 0x50000 then s.sys.boxHead.setWidth 64
  else if 0x60000 ≤ off ∧ off < 0x60180 then
    if !osHart h then 0
    else
      let i := (s.link ((off - 0x60000) / 16)).inj
      if off % 16 = 0 then i.w0 else i.w1
  else if off = 0x70000 then modstat s
  else if off = 0x70008 then s.sys.capw.setWidth 64
  else if 0x400000 ≤ off ∧ off < 0x600000 then
    boxWord (Sparse.get {} s.sys.box ((off - 0x400000) / 32)) (off / 8 % 4)
  else 0

/-! ### Writing the window (R12) -/

/-- VALID of entry `e` of a core written 1: the entry is free (R254). -/
def freeFault (s : State) (core e : Nat) : State :=
  let k := s.core core
  s.setCore core { k with faults := modAt k.faults e (fun f => { f with valid := false }) }

/-- DROPPED written 1 (R255). -/
def clearDropped (s : State) (core : Nat) : State := s.setCore core { s.core core with dropped := false }

/-- NPCMD written (R266): OP 0 to 5 are operations; others end with status 3. A write to a busy port is ignored. -/
def portCommand (s : State) (h : Nat) (v : W64) : State :=
  let p := s.port h
  if bitsOf p.npst.toNat 56 8 = 255 then s
  else
    let s1 := s.setPort h { p with npcmd := v &&& 0x0FFF000F }
    if !v.getLsbD 63 then s1
    else
      let go (kind : NameOpKind) : State := portOp { s1 with ev := { s1.ev with hart := h, ctx := BitVec.ofNat 12 (bitsOf v.toNat 16 12) } } kind
      match bitsOf v.toNat 0 4 with
      | 0 => go .look
      | 1 => go .lookHold
      | 2 => go .release
      | 3 => go .new
      | 4 => go .delete
      | 5 => go .cas
      | _ => s1.setPort h { s1.port h with npst := statusWord 3 0 }

/-- NPA or NPB written. -/
def portOperand (s : State) (h : Nat) (b : Bool) (v : W64) : State :=
  let p := s.port h
  if bitsOf p.npst.toNat 56 8 = 255 then s else s.setPort h (if b then { p with npb := v } else { p with npa := v })

/-- A 64-bit write to a register of the control window under its access codes; RO fields and other offsets ignore it. -/
def controlWrite (s : State) (h : Hart) (off : Nat) (v : W64) : State :=
  if !supervisor h then s
  else if off = 0 then { s with sys := { s.sys with ctxBase := v &&& ~~~(0xFFF : W64) } }
  else if off = 8 then reclaimAll { s with names := { s.names with reclaim := v &&& 0x000FFFFFFFFFF001 } }
  else if off = 0x18 then reclaimAll { s with names := { s.names with recTail := v.setWidth 12 } }
  else if 0x10000 ≤ off ∧ off < 0x16000 then
    let core := (off - 0x10000) / 0x100
    let o := off % 0x100
    if o = 0 then (if v.getLsbD 0 then clearDropped s core else s)
    else if 16 ≤ o ∧ o < 0x90 ∧ o % 16 = 0 ∧ v.getLsbD 63 then freeFault s core ((o - 16) / 16)
    else s
  else if 0x20000 ≤ off ∧ off < 0x21000 then
    let p := (off - 0x20000) / 0x40
    if off % 0x40 = 0 then portCommand s p v
    else if off % 0x40 = 8 then portOperand s p false v
    else if off % 0x40 = 16 then portOperand s p true v
    else s
  else if 0x30000 ≤ off ∧ off < 0x30080 then
    { s with sys := { s.sys with channels := Sparse.set 0 s.sys.channels ((off - 0x30000) / 8) (v &&& 0x800FFFFFFFFFFFFF) } }
  else if off = 0x40000 then { s with sys := { s.sys with audctl := v &&& 0x800000000000001F } }
  else if 0x60000 ≤ off ∧ off < 0x60180 then
    if osHart h then setInjector s ((off - 0x60000) / 16) (off % 16 == 8) v else s
  else if off = 0x70008 then { s with sys := { s.sys with capw := v.setWidth 16 } }
  else s

/-- REGISTER_WRITE (R12): hart `ev.hart` writes `ev.val0` to the register at offset `ev.id`. -/
def execRegisterWrite (s : State) : Result := .next (controlWrite s (s.hart s.ev.hart) s.ev.id s.ev.val0)

/-- FAULT_ENTRY_FREE (R254): hart `ev.hart` writes 1 to VALID of entry `ev.k` of core `ev.core`. -/
def execFaultEntryFree (s : State) : Result :=
  .next (if supervisor (s.hart s.ev.hart) && decide (s.ev.core < 96) then freeFault s s.ev.core s.ev.k else s)

/-- FBSTAT_DROPPED_CLEAR (R255): hart `ev.hart` writes 1 to DROPPED of core `ev.core`. -/
def execFbstatDroppedClear (s : State) : Result :=
  .next (if supervisor (s.hart s.ev.hart) && decide (s.ev.core < 96) then clearDropped s s.ev.core else s)

/-- INTERRUPT_CLAIM (R255): a hart claims source `ev.k`. -/
def execInterruptClaim (s : State) : Result :=
  .next { s with sys := { s.sys with pending := s.sys.pending &&& ~~~((1 : BitVec 11) <<< s.ev.k) } }

/-! ### Memory accesses of the harts -/

/-- The agent number of a hart's cache (R268). -/
def hartAgent (s : State) (h : Nat) : BitVec 13 := ownAgent s.sys (152 + h % 64)

/-- The sectors of `n` bytes at a domain address. -/
def sectorsOf (da n : Nat) : List Nat := ((List.range n).map (fun k => (da + k) / 64)).eraseDups

/-- The hart's cache may perform on every sector, else what it asks for. -/
def hartTokens (s : State) (h da n : Nat) (write : Bool) : Except State Unit :=
  let agent := hartAgent s h
  let need := (sectorsOf da n).filter (fun sec => !satisfied s agent sec write)
  if need.isEmpty then .ok ()
  else .error (need.foldl (fun t sec => startRequest t agent sec write 0) s)

/-- Bytes at a domain address as the hart's cache holds them, and whether one is poisoned. -/
def hartBytes (s : State) (h da n : Nat) : List Byte × Bool :=
  let agent := hartAgent s h
  ((List.range n).flatMap (fun k => sectorBytes (holding s agent ((da + k) / 64)).data ((da + k) % 64) 1),
   (sectorsOf da n).any (fun sec => (holding s agent sec).poison))

/-- Bytes written by a hart's cache with all tokens. -/
def hartStore (s : State) (h da : Nat) (bs : List Byte) : State :=
  (sectorsOf da bs.length).foldl (fun t sec =>
    let mine := (List.range bs.length).filter (fun k => (da + k) / 64 == sec)
    writeHeld t (hartAgent s h) sec (mine.map (fun k => ((da + k) % 64, [(bs[k]?).getD 0])))) s

/-- A value extended to 64 bits. -/
def extend (n : Nat) (sign : Bool) (v : Nat) : W64 := BitVec.ofNat 64 (if sign then wrap 64 (signed (8 * n) v) else v)

/-- What a hart reads: the bytes; a poisoned word is a value that the manual does not state. -/
def hartValue (s : State) (h da n : Nat) (sign : Bool) : W64 × State :=
  let r := hartBytes s h da n
  if r.2 then (Config.freeLong s.free, { s with free := s.free + 1 }) else (extend n sign (leValue r.1), s)

/-- The new value of an AMO on `n` bytes: swap, add, xor, and, or, min, max, minu, maxu. -/
def amoNew (op : BitVec 4) (n old v : Nat) : Nat :=
  let m := 2 ^ (8 * n)
  let w := v % m
  match op.toNat with
  | 0 => w
  | 1 => (old + w) % m
  | 2 => Nat.xor old w
  | 3 => Nat.land old w
  | 4 => Nat.lor old w
  | 5 => if signed (8 * n) w < signed (8 * n) old then w else old
  | 6 => if signed (8 * n) old < signed (8 * n) w then w else old
  | 7 => if w < old then w else old
  | _ => if old < w then w else old

/-- The register a load writes. -/
def hartPut (s : State) (h : Nat) (rd : BitVec 5) (v : W64) : State := s.setHart h ((s.hart h).set rd v)

/-- A load or store outside the memory held under tokens: the control window takes 64-bit accesses, an address outside every
range reads 0 and ignores a write (R246, R333). -/
def hartDevice (s : State) (h pa n : Nat) (store : Option W64) : W64 × State :=
  match physPlace s.sys pa with
  | .control off =>
    if n ≠ 8 ∨ off % 8 ≠ 0 then (0, s)
    else match store with
      | some v => (0, controlWrite s (s.hart h) off v)
      | none => (controlRead s (s.hart h) off, s)
  | _ => (0, s)

/-- Buffered stores of a hart touch the `n` bytes at `da`. -/
def bufferTouches (b : List (Nat × List Byte)) (da n : Nat) : Bool := b.any (fun e => decide (e.1 < da + n ∧ da < e.1 + e.2.length))

/-- The youngest buffered byte for an address. -/
def bufferByte (b : List (Nat × List Byte)) (a : Nat) : Option Byte :=
  b.foldl (fun r e => if e.1 ≤ a ∧ a < e.1 + e.2.length then e.2[a - e.1]? else r) none

/-- What a hart's load reads: each byte from its youngest buffered store, else from what its cache holds (R221). -/
def hartRead (s : State) (h da n : Nat) (sign : Bool) : W64 × State :=
  let b := (s.hart h).buffer
  let own := (List.range n).map (fun k => bufferByte b (da + k))
  if own.all Option.isSome then (extend n sign (leValue (own.map (·.getD 0))), s)
  else if own.all Option.isNone then hartValue s h da n sign
  else
    let r := hartBytes s h da n
    if r.2 then (Config.freeLong s.free, { s with free := s.free + 1 })
    else (extend n sign (leValue ((own.zip r.1).map (fun e => e.1.getD e.2))), s)

/-- A hart's load, performed once its cache holds the bytes that no buffered store gives. -/
def hartLoad (s : State) (h : Nat) (rd : BitVec 5) (pa n : Nat) (sign : Bool) : Except State State :=
  match domainAddr s.sys pa with
  | none => let r := hartDevice s h pa n none; .ok (hartPut r.2 h rd r.1)
  | some da =>
    let all := (List.range n).all (fun k => (bufferByte (s.hart h).buffer (da + k)).isSome)
    (if all then .ok () else hartTokens s h da n false).map (fun _ => let r := hartRead s h da n sign; hartPut r.2 h rd r.1)

/-- A hart's store: performed now, or kept in the hart's store buffer where the event postpones it, an older buffered store touches
its bytes, or tokens are missing (R221). -/
def hartSave (s : State) (h : Nat) (rs : BitVec 5) (pa n : Nat) : State :=
  let v := (s.hart h).get rs
  let keep (t : State) (da : Nat) : State :=
    t.setHart h { t.hart h with buffer := (t.hart h).buffer ++ [(da, leSplit n v.toNat)] }
  match domainAddr s.sys pa with
  | none => (hartDevice s h pa n (some v)).2
  | some da =>
    if s.ev.flag || bufferTouches (s.hart h).buffer da n then keep s da
    else match hartTokens s h da n true with
      | .error t => keep t da
      | .ok () => hartStore s h da (leSplit n v.toNat)

/-- The k-th buffered store of a hart is performed, once it touches no byte of an older one and its tokens are there; an access that
waits is tried again. -/
def hartDrain (s : State) (h k : Nat) : State :=
  let b := (s.hart h).buffer
  match b[k]? with
  | none => s
  | some (da, bs) =>
    if bufferTouches (b.take k) da bs.length then s
    else match hartTokens s h da bs.length true with
      | .error t => t
      | .ok () =>
        let t := hartStore (s.setHart h { s.hart h with buffer := dropAt b k }) h da bs
        match (t.hart h).wait with
        | some op => { t with agenda := .event .hartMemoryAccess { hart := h, hartOp := op } :: t.agenda }
        | none => t

/-- The state in which a read-modify-write of a hart is performed: no older store of its bytes is buffered, and with `rl` none at all
(R221). -/
def hartBehind (s : State) (h da n : Nat) (rl : Bool) : Bool :=
  bufferTouches (s.hart h).buffer da n || (rl && (!(s.hart h).buffer.isEmpty || bitsOf (s.port h).npst.toNat 56 8 == 255))

/-- A hart's AMO. -/
def hartAmo (s : State) (h : Nat) (op : BitVec 4) (rd rs : BitVec 5) (pa n : Nat) (rl : Bool) : Except State State :=
  match domainAddr s.sys pa with
  | none => .ok (hartPut s h rd 0)
  | some da =>
    if hartBehind s h da n rl then .error s
    else (hartTokens s h da n true).map (fun _ =>
      let v := ((s.hart h).get rs).toNat
      let r := hartValue s h da n true
      hartPut (hartStore r.2 h da (leSplit n (amoNew op n (r.1.toNat % 2 ^ (8 * n)) v))) h rd r.1)

/-- LR: the load, and a reservation on its sector. -/
def hartLr (s : State) (h : Nat) (rd : BitVec 5) (pa n : Nat) (rl : Bool) : Except State State :=
  match domainAddr s.sys pa with
  | none => .ok (hartPut s h rd 0)
  | some da =>
    if hartBehind s h da n rl then .error s
    else (hartTokens s h da n false).map (fun _ =>
      let r := hartValue s h da n true
      r.2.setHart h { (r.2.hart h).set rd r.1 with reserved := some (da / 64) })

/-- SC: stores and writes 0 to rd when the reservation stands, else writes 1. The reservation ends. -/
def hartSc (s : State) (h : Nat) (rd rs : BitVec 5) (pa n : Nat) (rl : Bool) : Except State State :=
  let fail (t : State) : State := t.setHart h { (t.hart h).set rd 1 with reserved := none }
  match domainAddr s.sys pa with
  | none => .ok (fail s)
  | some da =>
    if (s.hart h).reserved ≠ some (da / 64) then .ok (fail s)
    else if hartBehind s h da n rl then .error s
    else (hartTokens s h da n true).map (fun _ =>
      let t := hartStore s h da (leSplit n ((s.hart h).get rs).toNat)
      t.setHart h { (t.hart h).set rd 0 with reserved := none })

/-- A hart's FENCE: a store before it is performed where the predecessor set holds writes; where both sets hold reads and writes, and
for FENCE.TSO, it is a release at `.d`, and the port's operation is over too (R221, R266). -/
def hartFence (s : State) (h : Nat) (writes full : Bool) : Except State State :=
  if writes && !(s.hart h).buffer.isEmpty || full && bitsOf (s.port h).npst.toNat 56 8 == 255 then .error s else .ok s

/-- One access of a hart: the state in which it is performed, or the state in which it waits. -/
def hartAccess (s : State) (h : Nat) (op : HartOp) : Except State State :=
  match op with
  | .load rd pa size sign => hartLoad s h rd pa (2 ^ size.toNat) sign
  | .store rs pa size => .ok (hartSave s h rs pa (2 ^ size.toNat))
  | .amo op rd rs pa dword _ rl => hartAmo s h op rd rs pa (if dword then 8 else 4) rl
  | .lr rd pa dword _ rl => hartLr s h rd pa (if dword then 8 else 4) rl
  | .sc rd rs pa dword _ rl => hartSc s h rd rs pa (if dword then 8 else 4) rl
  | .fence pr pw sr sw => hartFence s h pw (pr && pw && sr && sw)
  | .fenceTso => hartFence s h true true

/-- HART_MEMORY_ACCESS (R221): hart `ev.hart` performs `ev.hartOp`, a token-protocol access of its cache, or stands at it while its
tokens, its older stores or its port operation are missing; it stands at one access at a time. The order of these events is the
order in which the hart's loads are performed, and its stores leave its buffer in any order that keeps those of one byte: what
the RVWMO model allows (log entry 7). An acquire needs nothing more, since a load is performed at its event and the hart has no stale
L1. -/
def execHartMemoryAccess (s : State) : Result :=
  .next (
    let h := s.ev.hart
    let op := s.ev.hartOp
    if s.sys.span ≠ .service ∧ s.sys.span ≠ .bringUp ∨ 64 ≤ h then s
    else if (s.hart h).wait.isSome && (s.hart h).wait != some op then s
    else match hartAccess s h op with
      | .ok t => t.setHart h { t.hart h with wait := none }
      | .error t => t.setHart h { t.hart h with wait := some op })

end Sys2Proof.Machine
end

