-- ==== Sys2Proof/Machine/Scalar.lean ====
section
/-! DEFINITION. The scalar integer instructions (R79 to R84), SNOP (R50) and the scalar GETS. -/

namespace Sys2Proof.Machine

/-- a shifted left; 0 for an amount of 64 or more. -/
def shl64 (a : W64) (n : Nat) : W64 := a <<< n

/-- a shifted right logically; 0 for an amount of 64 or more. -/
def shr64 (a : W64) (n : Nat) : W64 := a >>> n

/-- a shifted right arithmetically; all copies of a[63] for an amount of 64 or more. -/
def sar64 (a : W64) (n : Nat) : W64 := a.sshiftRight n

/-- A scalar instruction of form S3 (R81): one result of two scalar registers. -/
def scalar3 (s : State) (d a b : BitVec 6) (f : W64 → W64 → W64) : Result :=
  scalarTo s d (fun t => f (t.sreg a.toNat) (t.sreg b.toNat))

/-- A scalar instruction of form SI (R81): one result of a scalar register and imm6. -/
def scalarI (s : State) (d a : BitVec 6) (f : W64 → W64) : Result := scalarTo s d (fun t => f (t.sreg a.toNat))

/-- SNOP: the slot is consumed (R50). -/
def execSnop (_i : BitVec 18) (s : State) : Result := .next s

/-- ADD (R81). -/
def execSadd (d a b : BitVec 6) (s : State) : Result := scalar3 s d a b (fun a b => a + b)

/-- SUB (R81). -/
def execSsub (d a b : BitVec 6) (s : State) : Result := scalar3 s d a b (fun a b => a - b)

/-- MUL: the low 64 bits (R81). -/
def execSmul (d a b : BitVec 6) (s : State) : Result := scalar3 s d a b (fun a b => a * b)

/-- MULH: bits [127:64] of the signed product (R81). -/
def execSmulh (d a b : BitVec 6) (s : State) : Result := scalar3 s d a b (fun a b => BitVec.ofInt 64 (a.toInt * b.toInt / (2 ^ 64 : Nat)))

/-- AND (R81). -/
def execSand (d a b : BitVec 6) (s : State) : Result := scalar3 s d a b (fun a b => a &&& b)

/-- OR (R81). -/
def execSor (d a b : BitVec 6) (s : State) : Result := scalar3 s d a b (fun a b => a ||| b)

/-- XOR (R81). -/
def execSxor (d a b : BitVec 6) (s : State) : Result := scalar3 s d a b (fun a b => a ^^^ b)

/-- SHL by sb[7:0] (R81). -/
def execSshl (d a b : BitVec 6) (s : State) : Result := scalar3 s d a b (fun a b => shl64 a (b.toNat % 256))

/-- SHR by sb[7:0] (R81). -/
def execSshr (d a b : BitVec 6) (s : State) : Result := scalar3 s d a b (fun a b => shr64 a (b.toNat % 256))

/-- SAR by sb[7:0] (R81). -/
def execSsar (d a b : BitVec 6) (s : State) : Result := scalar3 s d a b (fun a b => sar64 a (b.toNat % 256))

/-- MIN: signed (R81). -/
def execSmin (d a b : BitVec 6) (s : State) : Result := scalar3 s d a b (fun a b => if a.slt b then a else b)

/-- MAX: signed (R81). -/
def execSmax (d a b : BitVec 6) (s : State) : Result := scalar3 s d a b (fun a b => if a.slt b then b else a)

/-- SLT (R81). -/
def execSslt (d a b : BitVec 6) (s : State) : Result := scalar3 s d a b (fun a b => BitVec.ofNat 64 (boolNat (a.slt b)))

/-- MINN: unsigned (R81). -/
def execSminn (d a b : BitVec 6) (s : State) : Result := scalar3 s d a b (fun a b => if a.ult b then a else b)

/-- MAXN: unsigned (R81). -/
def execSmaxn (d a b : BitVec 6) (s : State) : Result := scalar3 s d a b (fun a b => if a.ult b then b else a)

/-- SLTN (R81). -/
def execSsltn (d a b : BitVec 6) (s : State) : Result := scalar3 s d a b (fun a b => BitVec.ofNat 64 (boolNat (a.ult b)))

/-- ADD of a sign-extended imm6 (R81). -/
def execSaddSi (d a i : BitVec 6) (s : State) : Result := scalarI s d a (fun a => a + i.signExtend 64)

/-- AND with a sign-extended imm6 (R81). -/
def execSandSi (d a i : BitVec 6) (s : State) : Result := scalarI s d a (fun a => a &&& i.signExtend 64)

/-- OR with a sign-extended imm6 (R81). -/
def execSorSi (d a i : BitVec 6) (s : State) : Result := scalarI s d a (fun a => a ||| i.signExtend 64)

/-- XOR with a sign-extended imm6 (R81). -/
def execSxorSi (d a i : BitVec 6) (s : State) : Result := scalarI s d a (fun a => a ^^^ i.signExtend 64)

/-- SHL by imm6 (R81). -/
def execSshlSi (d a i : BitVec 6) (s : State) : Result := scalarI s d a (fun a => shl64 a i.toNat)

/-- SHR by imm6 (R81). -/
def execSshrSi (d a i : BitVec 6) (s : State) : Result := scalarI s d a (fun a => shr64 a i.toNat)

/-- SAR by imm6 (R81). -/
def execSsarSi (d a i : BitVec 6) (s : State) : Result := scalarI s d a (fun a => sar64 a i.toNat)

/-- SLT against a sign-extended imm6 (R81). -/
def execSsltSi (d a i : BitVec 6) (s : State) : Result := scalarI s d a (fun a => BitVec.ofNat 64 (boolNat (a.slt (i.signExtend 64))))

/-- LI: sd ← sign-extend(imm12) (R82). -/
def execSli (d : BitVec 6) (i : BitVec 12) (s : State) : Result := scalarTo s d (fun _ => i.signExtend 64)

/-- LSH: sd ← (sd × 2^12) OR imm12 (R82). -/
def execSlsh (d : BitVec 6) (i : BitVec 12) (s : State) : Result :=
  scalarTo s d (fun t => (t.sreg d.toNat <<< 12) ||| i.setWidth 64)

/-- GETS: the selected value, zero-extended; a reserved selector raises cause 3 (R83). -/
def execSgets (d : BitVec 6) (sel : BitVec 12) (s : State) : Result :=
  scalarDo s (fun t =>
    match scalarSpecial t sel.toNat with
    | some v => t.setSreg d.toNat v
    | none => t.trap { vec := 1, cause := 3 })

end Sys2Proof.Machine
end

