-- ==== Sys2Proof/Machine/System.lean ====
section
/-! DEFINITION. Power, bring-up, resets, fatal checks, the side-band port, the host interface and the core clock (R7 to R10,
R302, R326, R333 to R343). -/

namespace Sys2Proof.Machine

/-! ### Spans (R7) -/

/-- The number of a span as MODSTAT and the record give it. -/
def Span.number : Span → Nat
  | .auxiliary => 0
  | .bringUp => 1
  | .service => 2
  | .recovery => 3

/-- The module enters a span; a change writes the span-change record (R325). -/
def enterSpan (s : State) (n : Span) : State :=
  if s.sys.span = n then s
  else
    recordEvent { s with sys := { s.sys with span := n } } 0x50 0 (Config.recordSource 0x50) none
      (BitVec.ofNat 64 s.sys.span.number) (BitVec.ofNat 64 n.number)

/-- Host reads and writes that end with the poison indication (R336). -/
def hostEnded (l : List HostReq) : List (Nat × SectorData × Bool) := (l.filter (fun r => !r.write)).map (fun r => (r.sector, 0, true))

def hostRefused (l : List HostReq) : List (Nat × Bool) := (l.filter (·.write)).map (fun r => (r.sector, true))

/-- Everything that main power and the bring-up steps do not keep, at its start value (R9, R10, R333): what remains is the
flash, the repair map, the black box, the clocks, the pins, and MODSTAT.DLLC, which the next bring-up sets (R335). Host requests that
have not been performed end with the poison indication, and the homes remember the rounds whose writes they have lost (R214). -/
def clearVolatile (s : State) : State :=
  { State.reset with
    sys := { span := s.sys.span, auxPg := s.sys.auxPg, mainPg := s.sys.mainPg, perst := s.sys.perst, modid := s.sys.modid,
             epoch := s.sys.epoch, auxTime := s.sys.auxTime, box := s.sys.box, boxHead := s.sys.boxHead,
             factory := s.sys.factory, fieldMap := s.sys.fieldMap, fieldCount := s.sys.fieldCount, fieldGood := s.sys.fieldGood,
             flash := s.sys.flash, msix0 := s.sys.msix0, pldmEvents := s.sys.pldmEvents, replies := s.sys.replies,
             hostReads := hostEnded s.tok.host ++ s.sys.hostReads, hostWrites := hostRefused s.tok.host ++ s.sys.hostWrites,
             hostRegs := s.sys.hostRegs, dllc := s.sys.dllc }
    tok := { lost := (s.tok.lost ++ s.tok.arrivals.map (fun a => (a.home, a.srcId, a.round))
      ++ (s.tok.posted.filter (·.ack.isNone)).map (fun p => (p.home, p.write.srcId, p.write.round))).eraseDups }
    names := { flashEnd := s.names.flashEnd }
    nextId := s.nextId, agenda := s.agenda, moves := s.moves, free := s.free, ev := s.ev }

/-! ### Bring-up (R9) -/

/-- The chip identity that the repair map's record of TYPE 9 gives (R14, R321). -/
def chipOf (m : Sparse (BitVec 128)) : BitVec 32 :=
  match m.find? (fun e => (repairFields e.2).1 == 9) with
  | some e => BitVec.ofNat 32 (repairFields e.2).2.2.2.2
  | none => 0

/-- The records of one type and ashlar that bring-up brings in. -/
def broughtIn (repairs : List (BitVec 128)) (type ashlar : Nat) : List (BitVec 128) :=
  repairs.filter (fun r => (repairFields r).1 == type && (repairFields r).2.1 == ashlar)

/-- A selvage link as bring-up trains it: the lanes of its records are out, the first of them replaced by the spare (R320). -/
def trainedLink (repairs : List (BitVec 128)) (l : Nat) : Link :=
  let out := (broughtIn repairs 6 8).countP (fun r => (repairFields r).2.2.1 == l)
  { trained := true, lanes := 8 - (out - 1), spareUsed := decide (0 < out) }

/-- The ways that stay without allocation: those beyond the two spares of their set group (R320). -/
def waysLeft (repairs : List (BitVec 128)) : List (Nat × Nat × Nat) :=
  (repairs.filter (fun r => (repairFields r).1 == 5 && decide (2 ≤ (repairFields r).2.2.2.2))).map
    (fun r => let f := repairFields r; (f.2.1, f.2.2.1, f.2.2.2.1))

/-- Bring-up halts in recovery, or a fatal check enters it; a request alone ends it (R8). -/
def haltRecovery (s : State) : State := enterSpan s .recovery

/-- Step 2 of bring-up: the repair map's records take effect (R3, R9, R10, R322). A field section that fails verification is ignored,
and the failure recorded. -/
def readMap (s : State) (b : BringUp) : State :=
  let s0 := { s with sys := { s.sys with factoryGood := b.factoryGood, fieldGood := b.fieldGood } }
  let s1 := if b.fieldGood then s0
    else recordEvent s0 ((Config.recordDetail 0x322 []).toNat % 256) 0 (Config.recordSource 0x322) none (Config.recordDetail 0x323 [])
      (Config.recordDetail 0x324 [])
  let repairs := sectionRecords s.sys.factory ++ (if b.fieldGood then sectionRecords s.sys.fieldMap else [])
  { s1 with
    links := ((List.range 24).filter (fun l => b.links.getLsbD l)).foldl (fun m l => Sparse.set {} m l (trainedLink repairs l)) []
    sys := { s1.sys with
      repairs := repairs
      spares := BitVec.ofNat 8 (((List.range 8).filter (fun a => !(broughtIn repairs 1 a).isEmpty)).map (fun a => 2 ^ a)).sum
      seamSwapped := (List.range 8).flatMap (fun a => (broughtIn repairs 6 a).map (fun r => a * 4096 + (repairFields r).2.2.2.1))
      deadWays := waysLeft repairs } }

/-- A core whose self-test fails: its cluster does not pass, and a record gives it the spare at the next bring-up (R9, R320). -/
def failCore (s : State) (core : Nat) : State :=
  if 96 ≤ core then s
  else noteRepair { s with sys := { s.sys with pass := s.sys.pass &&& ~~~((1 : BitVec 24) <<< (core / 4)) } } 1 (ashlarOf core)
    (physicalCore s core) 0

/-- Arrays that are fenced or out of service, counted up to 255 (R326). -/
def fencedCount (s : State) : Nat := min (s.cores.map (fun c => c.2.arrays.countP (fun a => a.fenced != 0))).sum 255

/-- The self-tests of bring-up (R9): pass bits, failing cores and failing sub-arrays, and the count that the report gives (R312, R326). -/
def selfTests (s : State) (b : BringUp) : State :=
  let s1 := b.failing.foldl failCore { s with sys := { s.sys with pass := b.pass, dllc := s.sys.flash.dllc } }
  let s2 := (b.failingArrays.filter (fun e => decide (e.1 < 96) && decide (e.2.1 < 4))).foldl (fun t e => failSubArray t e.1 e.2.1 e.2.2) s1
  { s2 with sys := { s2.sys with fencedArrays := BitVec.ofNat 8 (fencedCount s2) } }

/-- Steps 2 to 5 of bring-up: the map, the self-tests, the name counter, the OS image. A factory section that fails verification halts
it (R322). -/
def bringUpSteps (s : State) (b : BringUp) : State :=
  let s1 := readMap s b
  if !b.factoryGood then haltRecovery { s with sys := { s.sys with factoryGood := false } }
  else
    let s2 := selfTests s1 b
    let s3 := { s2 with
      names := { s2.names with
        chip := chipOf s2.sys.factory, next := s2.names.flashEnd, resEnd := s2.names.flashEnd + BitVec.ofNat 64 (2 ^ 24)
        flashEnd := s2.names.flashEnd + BitVec.ofNat 64 (2 ^ 24) } }
    if b.osSignatureGood && s3.sys.flash.osGood then s3 else haltRecovery s3

/-- Bring-up begins (R7, R9): the epoch advances, and the boot ROM verifies the flash images first. -/
def beginBringUp (s : State) (b : BringUp) : State :=
  let s1 := enterSpan { s with sys := { s.sys with epoch := s.sys.epoch + 1 } } .bringUp
  let s2 := clearVolatile s1
  if s2.sys.flash.firmwareGood then bringUpSteps s2 b else haltRecovery s2

/-! ### Power (R7, R10, R335) -/

/-- AUX_POWER_GOOD (R7): the auxiliary span begins when main power is not good; the clock of the management controller and
the count of bring-ups start. The manual does not say what span the module is in while auxiliary power is absent and main power
good: it keeps its span here, and main power coming good without auxiliary power begins nothing (DESIGN CHOICE, log entry 96). -/
def execAuxPowerGood (s : State) : Result :=
  .next (
    if s.sys.auxPg then s
    else
      let s1 := { s with sys := { s.sys with auxPg := true, auxTime := 0, epoch := 0 } }
      if s1.sys.mainPg then s1 else { s1 with sys := { s1.sys with span := .auxiliary } })

/-- MAIN_POWER_GOOD (R9): bring-up begins; the module number is sampled (R335). -/
def execMainPowerGood (s : State) : Result :=
  .next (
    if s.sys.mainPg || !s.sys.auxPg then s
    else beginBringUp { s with sys := { s.sys with mainPg := true, modid := s.ev.bring.modid } } s.ev.bring)

/-- MAIN_POWER_LOSS (R10): from any span to the auxiliary span. -/
def execMainPowerLoss (s : State) : Result :=
  .next (
    if !s.sys.mainPg then s
    else clearVolatile (enterSpan { s with sys := { s.sys with mainPg := false } } .auxiliary))

/-- AUX_POWER_LOSS (R10): the black-box record is cleared. -/
def execAuxPowerLoss (s : State) : Result :=
  .next { s with sys := { s.sys with auxPg := false, box := [], boxHead := 0 } }

/-- RESIDENT_OS_READY (R7): service begins, and `time` counts from here (R83). -/
def execResidentOsReady (s : State) : Result :=
  .next (
    if s.sys.span ≠ .bringUp ∨ s.sys.resetPending then s
    else enterSpan { s with sys := { s.sys with time := 0 } } .service)

/-! ### Resets (R8, R10, R341) -/

/-- A warm reset is requested: it joins one that is pending; in service the module enters recovery at once. -/
def requestReset (s : State) : State :=
  if s.sys.resetPending || s.sys.span == .auxiliary then s
  else
    let s1 := { s with sys := { s.sys with resetPending := true } }
    if s1.sys.span = .service then enterSpan s1 .recovery else s1

/-- A host read of BAR0 or of configuration space (R336): BAR0 holds a copy of MODSTAT at offset 0 and HOSTCTL at 8, whose one bit is
write-only; both spaces respond outside the auxiliary span. What configuration space holds is a free value (log entry 108). -/
def hostRead (s : State) (config : Bool) (off : Nat) : State :=
  if s.sys.span = .auxiliary then s
  else
    let v := if config then Config.configSpace off else if off = 0 then modstat s else 0
    { s with sys := { s.sys with hostRegs := (off, v) :: s.sys.hostRegs } }

/-- HOSTCTL_WRST (R336): the host writes 1 to WRST; BAR0 does not respond in the auxiliary span. -/
def execHostctlWrst (s : State) : Result := .next (requestReset s)

/-- WARM_RESET_APPLY (R8): a pending reset is applied, and bring-up begins. -/
def execWarmResetApply (s : State) : Result :=
  .next (if s.sys.resetPending && s.sys.mainPg then beginBringUp s s.ev.bring else s)

/-- A fatal machine check (R302, R338): service or bring-up ends, the record of severity 3 raises MSI-X vector 0 and a PLDM
event. -/
def fatalCheck (s : State) : State :=
  if s.sys.span = .service ∨ s.sys.span = .bringUp then
    let s1 := recordEvent s ((Config.recordDetail 0x302 []).toNat % 256) 3 (Config.recordSource 0x302) none (Config.recordDetail 0x303 [])
      (Config.recordDetail 0x304 [])
    haltRecovery { s1 with sys := { s1.sys with msix0 := s1.sys.msix0 + 1, pldmEvents := s1.sys.pldmEvents + 1 } }
  else s

/-- FATAL_MACHINE_CHECK (R302). -/
def execFatalMachineCheck (s : State) : Result := .next (fatalCheck s)

/-! ### The side-band port (R339, R340) -/

/-- A reply of the management controller, which auxiliary power runs. -/
def reply (s : State) (code : BitVec 8) (words : List W64) : State :=
  if s.sys.auxPg then { s with sys := { s.sys with replies := ⟨code, words⟩ :: s.sys.replies } } else s

/-- READ_BBHEAD (R340). -/
def execReadBbhead (s : State) : Result := .next (reply s 0 [s.sys.boxHead.setWidth 64])

/-- READ_BLACK_BOX_RECORD (R340): record `ev.k`. -/
def execReadBlackBoxRecord (s : State) : Result :=
  .next (
    if 65536 ≤ s.ev.k then reply s 2 []
    else
      let r := Sparse.get ({} : BoxRecord) s.sys.box s.ev.k
      reply s 0 [r.w0, r.w1, r.w2, r.w3])

/-- READ_REPAIR_MAP_RECORD (R340): record `ev.k` of the field section when `ev.flag`, else of the factory section. -/
def execReadRepairMapRecord (s : State) : Result :=
  .next (
    if 4096 ≤ s.ev.k then reply s 2 []
    else
      let r := Sparse.get (0 : BitVec 128) (if s.ev.flag then s.sys.fieldMap else s.sys.factory) s.ev.k
      reply s 0 [r.setWidth 64, (r >>> 64).setWidth 64])

/-- The 16 metadata bits (R269). -/
def metaWord (m : HomeMeta) : W64 := BitVec.ofNat 64 (m.serial.toNat * 2 ^ 12 + boolNat m.owner * 2 ^ 11 + m.count.toNat)

/-- READ_SECTOR_METADATA (R340): physical sector `ev.sector`, in service. -/
def execReadSectorMetadata (s : State) : Result :=
  .next (
    if s.sys.span ≠ .service then reply s 1 []
    else match domainAddr s.sys (sectorBase s.ev.sector) with
      | some da =>
        if isHomeOf s (homeAgent s.sys da) (da / 64) then reply s 0 [metaWord (Sparse.get {} s.tok.homes (da / 64))] else reply s 2 []
      | none => reply s 2 [])

/-- WRITE_INJECTOR_WORDS (R340): both words of link `ev.link`, in service, as a hart writes them; the management controller serves it
while auxiliary power is good (R339). -/
def execWriteInjectorWords (s : State) : Result :=
  .next (
    if !s.sys.auxPg then s
    else if s.sys.span ≠ .service then reply s 1 []
    else if 24 ≤ s.ev.link then reply s 2 []
    else reply (setInjector (setInjector s s.ev.link true s.ev.val1) s.ev.link false s.ev.val0) 0 [])

/-- REQUEST_WARM_RESET (R340): refused in the auxiliary span. -/
def execRequestWarmReset (s : State) : Result :=
  .next (if !s.sys.auxPg then s else if s.sys.span = .auxiliary then reply s 1 [] else reply (requestReset s) 0 [])

/-- READ_MODSTAT (R340). -/
def execReadModstat (s : State) : Result := .next (reply s 0 [modstat s])

/-- PLDM_SENSOR_READ (R339): the core clock in MHz, or the reading `ev.val0` of a physical sensor. -/
def execPldmSensorRead (s : State) : Result :=
  .next (match s.ev.sensor with
    | .coreClock => reply s 0 [BitVec.ofNat 64 s.sys.clk]
    | .power | .junction _ | .inlet => reply s 0 [s.ev.val0])

/-- PLDM_FIRMWARE_UPDATE (R339): flash images written, in effect at the next bring-up. -/
def execPldmFirmwareUpdate (s : State) : Result :=
  .next (if s.sys.auxPg then { s with sys := { s.sys with flash := s.ev.image } } else s)

/-- The word of the measurement report (R326). -/
def measurementWord (s : State) : W64 :=
  BitVec.ofNat 64 (s.sys.spares.toNat * 2 ^ 40 + s.sys.fencedArrays.toNat * 2 ^ 32 + s.sys.pass.toNat)

/-- The eight words of a digest. -/
def digestWords (d : BitVec 512) : List W64 := (List.range 8).map (fun k => (d >>> (64 * k)).setWidth 64)

/-- SPDM_MEASUREMENT (R326): the report's word and the digests of the two map sections. -/
def execSpdmMeasurement (s : State) : Result :=
  .next (reply s 0 (measurementWord s :: digestWords (Config.sectionDigest s.sys.factory)
    ++ digestWords (Config.sectionDigest s.sys.fieldMap)))

/-! ### CXL.mem (R336, R337) -/

/-- The LPDDR6 home. -/
def lpddrHome (s : State) : BitVec 13 := ownAgent s.sys 520

/-- The resident OS places the host-managed range: 1 to 64 GiB of module LPDDR6, at a local address (R336). By what register it does so
the manual does not say (log entry 108). -/
def placeHostRange (s : State) (base gib : Nat) : State :=
  if 1 ≤ gib ∧ gib ≤ 64 ∧ base % 64 = 0 ∧ lpddrBase ≤ base ∧ base + gib * 2 ^ 30 ≤ lpddrEnd then
    { s with sys := { s.sys with hostRange := some (base, gib * 2 ^ 30) } }
  else s

/-- The sector of tokens that a host request for a physical sector names: it lies in the host-managed range (R333, R336). -/
def hostSector (s : State) (sec : Nat) : Option Nat :=
  match domainSector s.sys sec, s.sys.hostRange with
  | some d, some (base, n) =>
    (match localAddr s.sys (64 * d) with
    | some x => if base ≤ x ∧ x < base + n ∧ isHomeOf s (lpddrHome s) d then some d else none
    | none => none)
  | _, _ => none

/-- A host request ends with the poison indication (R336). -/
def endHost (s : State) (r : HostReq) : State :=
  { s with sys := { s.sys with hostReads := hostEnded [r] ++ s.sys.hostReads, hostWrites := hostRefused [r] ++ s.sys.hostWrites } }

/-- A host request for physical sector `ev.sector` of the host-managed range is delivered; outside service, and outside the range, it
ends with the poison indication. -/
def deliverHost (s : State) (write : Bool) : State :=
  let r : HostReq := { write := write, sector := s.ev.sector, mask := s.ev.mask, data := s.ev.data }
  match (if s.sys.span = .service then hostSector s s.ev.sector else none) with
  | none => endHost s r
  | some d => { s with tok := { s.tok with host := s.tok.host ++ [{ r with sector := d }] } }

/-- The bytes of a masked write, one step each. -/
def maskSteps (r : HostReq) : List (Nat × List Byte) :=
  ((List.range 64).filter (fun k => r.mask.getLsbD k)).map (fun k => (k, sectorBytes r.data k 1))

/-- The oldest host request is performed at the home, or the home asks for tokens; once service has ended it ends with the poison
indication. -/
def performHost (s : State) (write : Bool) : State :=
  match s.tok.host with
  | [] => s
  | r :: rest =>
    let home := lpddrHome s
    let t := { s with tok := { s.tok with host := rest } }
    if r.write != write then s
    else if s.sys.span ≠ .service then endHost t r
    else if write then
      if censusHolds s r.sector then s
      else if !satisfied s home r.sector true then startRequest s home r.sector true 0
      else
        let u := settleRequests (writeHeld t home r.sector (maskSteps r)) home r.sector
        { u with sys := { u.sys with hostWrites := (r.sector, false) :: u.sys.hostWrites } }
    else
      let h := holding s home r.sector
      if !h.owner then startRequest s home r.sector true 0
      else
        let u := settleRequests t home r.sector
        { u with sys := { u.sys with hostReads := (r.sector, h.data, h.poison) :: u.sys.hostReads } }

/-- CXL_MEM_WRITE (R337): a host write of the bytes `ev.mask` of sector `ev.sector` is delivered, or, when `ev.flag`, the
oldest delivered write is performed. -/
def execCxlMemWrite (s : State) : Result := .next (if s.ev.flag then performHost s true else deliverHost s true)

/-- CXL_MEM_READ (R337): a host read is delivered, or, when `ev.flag`, the oldest delivered read returns the home's value. -/
def execCxlMemRead (s : State) : Result := .next (if s.ev.flag then performHost s false else deliverHost s false)

/-! ### Clock and pins (R335, R343) -/

/-- The power cap in effect (R335). -/
def powerCap (s : State) : Nat := min 2600 (max 1000 s.sys.capw.toNat)

/-- The clock after one adjustment: lowered while the power or a junction is over its limit, else raised while both are
under. -/
def nextClock (clk cap watts junction : Nat) : Nat :=
  if cap < watts ∨ 105 < junction then max 1200 (clk - 100)
  else if watts + 50 < cap ∧ junction < 100 then min 3300 (clk + 100)
  else clk

/-- CLOCK_ADJUST (R343): the 10 ms average `ev.count` in watts and the hottest junction `ev.k` in °C. THERM becoming 1 raises
source 10 (R338); above 115 °C the check is fatal. -/
def execClockAdjust (s : State) : Result :=
  .next (
    if !s.sys.mainPg then s
    else
      let hot := decide (105 < s.ev.k)
      let pend := if hot && !s.sys.therm then s.sys.pending ||| (1 : BitVec 11) <<< 10 else s.sys.pending
      let s1 := { s with sys := { s.sys with clk := nextClock s.sys.clk (powerCap s) s.ev.count s.ev.k, therm := hot, pending := pend } }
      if 115 < s.ev.k then fatalCheck s1 else s1)

/-- PERST_CHANGE (R335): the pin is asserted or not, as `ev.flag` says. -/
def execPerstChange (s : State) : Result := .next { s with sys := { s.sys with perst := s.ev.flag } }

end Sys2Proof.Machine
end

