-- ==== Sys2Proof/Machine/VecFloat.lean ====
section
/-! DEFINITION. The floating-point instructions (R98 to R101): exact results rounded once, one FP32 or two packed 16-bit
values in a lane. -/

namespace Sys2Proof.Machine

/-- A rounded arithmetic instruction of two sources and the old vd. -/
def vecF (s : State) (o : V3Op) (f : FVal → FVal → FVal → Flagged) : Result :=
  let op (fmt : FloatFmt) (c a b : Nat) : Nat × NumFlags :=
    roundFlagged fmt (laneRtz o.m) (f (fmt.decode c) (fmt.decode a) (fmt.decode b))
  .next (s.mapLanes o.d.toNat (fun l =>
    laneMap3 o.m op (s.vreg o.d.toNat l).toNat (s.vreg o.a.toNat l).toNat (s.vreg o.b.toNat l).toNat))

/-- FMIN or FMAX of two sources. -/
def vecFm (s : State) (o : V3Op) (least : Bool) : Result :=
  .next (s.mapLanes o.d.toNat (fun l =>
    laneMap3 o.m (fun fmt _ a b => (fMinMax fmt least a b, 0)) 0 (s.vreg o.a.toNat l).toNat (s.vreg o.b.toNat l).toNat))

/-- A function of one source. -/
def vecF1 (s : State) (o : V2Op) (f : FloatFmt → Nat → Nat × NumFlags) : Result :=
  .next (s.mapLanes o.d.toNat (fun l => laneMap1 o.m f (s.vreg o.a.toNat l).toNat))

/-- FADD: a + b. -/
def execVfadd (o : V3Op) (s : State) : Result :=
  vecF s o (fun _ a b => fAdd a b)

/-- FSUB: a − b. -/
def execVfsub (o : V3Op) (s : State) : Result :=
  vecF s o (fun _ a b => fSub a b)

/-- FMUL: a × b. -/
def execVfmul (o : V3Op) (s : State) : Result :=
  vecF s o (fun _ a b => fMul a b)

/-- FMA: c + a × b, one rounding. -/
def execVfma (o : V3Op) (s : State) : Result :=
  vecF s o fMulAdd

/-- FMIN. -/
def execVfmin (o : V3Op) (s : State) : Result :=
  vecFm s o true

/-- FMAX. -/
def execVfmax (o : V3Op) (s : State) : Result :=
  vecFm s o false

/-- FABS. -/
def execVfabs (o : V2Op) (s : State) : Result :=
  vecF1 s o (fun fmt a => (fSignOp fmt true a, 0))

/-- FNEG. -/
def execVfneg (o : V2Op) (s : State) : Result :=
  vecF1 s o (fun fmt a => (fSignOp fmt false a, 0))

/-- FRCP: 1 ÷ a. -/
def execVfrcp (o : V2Op) (s : State) : Result :=
  vecF1 s o (fun fmt a => fRcp fmt (fmt.decode a))

/-- FRSQ: 1 ÷ √a. -/
def execVfrsq (o : V2Op) (s : State) : Result :=
  vecF1 s o (fun fmt a => fRsq fmt (fmt.decode a))

/-- FSQRT: √a under the rounding m selects. -/
def execVfsqrt (o : V2Op) (s : State) : Result :=
  vecF1 s o (fun fmt a => fSqrt fmt (laneRtz o.m) (fmt.decode a))

/-- FEXP2: 2^a. -/
def execVfexp2 (o : V2Op) (s : State) : Result :=
  vecF1 s o fExp2

/-- FLOG2: log₂ a. -/
def execVflog2 (o : V2Op) (s : State) : Result :=
  vecF1 s o fLog2

end Sys2Proof.Machine
end

