-- ==== Sys2Proof/Machine/VecInt.lean ====
section
/-! DEFINITION. The vector integer, compare, predicate, selection, conversion and packing instructions (R85 to R97), and
VNOP and HINT (R50). -/

namespace Sys2Proof.Machine

/-! ### Shared forms -/

/-- Lane values of form V3. -/
def vec3 (s : State) (o : V3Op) (f : W32 → W32 → Nat × NumFlags) : Result :=
  .next (s.mapLanes o.d.toNat (fun l => f (s.vreg o.a.toNat l) (s.vreg o.b.toNat l)))

/-- Lane values of form V3 with vd as a third source. -/
def vec3d (s : State) (o : V3Op) (f : W32 → W32 → W32 → Nat × NumFlags) : Result :=
  .next (s.mapLanes o.d.toNat (fun l => f (s.vreg o.d.toNat l) (s.vreg o.a.toNat l) (s.vreg o.b.toNat l)))

/-- Lane values of form VI: the second source is the immediate of R86. -/
def vecI (s : State) (o : V3Op) (b : W32) (f : W32 → W32 → Nat × NumFlags) : Result :=
  .next (s.mapLanes o.d.toNat (fun l => f (s.vreg o.a.toNat l) b))

/-- Lane values of form VS: the second source is a scalar register's low word (R86). -/
def vecS (s : State) (o : V3Op) (f : W32 → W32 → Nat × NumFlags) : Result :=
  .next (s.mapLanes o.d.toNat (fun l => f (s.vreg o.a.toNat l) (s.slow o.b)))

/-- Lane values of one source. -/
def vec1 (s : State) (d a : BitVec 8) (f : W32 → Nat) : Result :=
  .next (s.mapLanes d.toNat (fun l => (f (s.vreg a.toNat l), 0)))

/-- An exact integer of two sources read as m[0] says, fitted as m says (R80). -/
def fitOp (m : BitVec 2) (f : Int → Int → Int) (a b : W32) : Nat × NumFlags :=
  fit m (f (asInt (m.getLsbD 0) a) (asInt (m.getLsbD 0) b))

/-- A bit pattern of two sources. -/
def bitOp (f : W32 → W32 → W32) (a b : W32) : Nat × NumFlags := ((f a b).toNat, 0)

def opAdd (a b : Int) : Int := a + b
def opSub (a b : Int) : Int := a - b
def opMul (a b : Int) : Int := a * b

/-- The smaller (`least`) or larger of two values read as m[0] says. -/
def opMinMax (least : Bool) (m : BitVec 2) (a b : W32) : Nat × NumFlags :=
  let x := asInt (m.getLsbD 0) a
  let y := asInt (m.getLsbD 0) b
  ((if decide (x < y) == least then a else b).toNat, 0)

/-- Shifts by b[7:0] (R86). -/
def opShl (a b : W32) : W32 := a <<< amount b
def opShr (a b : W32) : W32 := a >>> amount b
def opSar (a b : W32) : W32 := a.sshiftRight (amount b)
def opRot (a b : W32) : W32 := a.rotateLeft (amount b % 32)

/-- Byte j of a lane, signed or unsigned. -/
def laneByte (unsigned : Bool) (v : W32) (j : Nat) : Int :=
  let b := bitsOf v.toNat (8 * j) 8
  if unsigned then (b : Int) else signed 8 b

/-- The sum of absolute byte differences (SAD). -/
def sumAbsDiff (unsigned : Bool) (a b : W32) : Int :=
  (List.range 4).foldl (fun acc j => acc + ((laneByte unsigned a j - laneByte unsigned b j).natAbs : Int)) 0

/-! ### No operation -/

/-- VNOP (R50). -/
def execVnop (_i : BitVec 26) (s : State) : Result := .next s

/-- HINT (R50). -/
def execVhint (_k : BitVec 4) (_i : BitVec 26) (s : State) : Result := .next s

/-! ### Arithmetic and logic (R85) -/

/-- ADD: fit(a + b). -/
def execVadd (o : V3Op) (s : State) : Result :=
  vec3 s o (fitOp o.m opAdd)

/-- SUB: fit(a − b). -/
def execVsub (o : V3Op) (s : State) : Result :=
  vec3 s o (fitOp o.m opSub)

/-- MUL: fit(a × b). -/
def execVmul (o : V3Op) (s : State) : Result :=
  vec3 s o (fitOp o.m opMul)

/-- MULH: bits [63:32] of the exact 64-bit product. -/
def execVmulh (o : V3Op) (s : State) : Result :=
  vec3 s o (fun a b => (wrap 64 (asInt (o.m.getLsbD 0) a * asInt (o.m.getLsbD 0) b) / 2 ^ 32, 0))

/-- MIN. -/
def execVmin (o : V3Op) (s : State) : Result :=
  vec3 s o (opMinMax true o.m)

/-- MAX. -/
def execVmax (o : V3Op) (s : State) : Result :=
  vec3 s o (opMinMax false o.m)

/-- ABS: fit(|a − b|). -/
def execVabs (o : V3Op) (s : State) : Result :=
  vec3 s o (fitOp o.m (fun a b => ((a - b).natAbs : Int)))

/-- NEG: fit(−a) where b is negative, else a. -/
def execVneg (o : V3Op) (s : State) : Result :=
  vec3 s o (fun a b => if b.toInt < 0 then fit o.m (-a.toInt) else (a.toNat, 0))

/-- MAD: fit(vd + a × b). -/
def execVmad (o : V3Op) (s : State) : Result :=
  vec3d s o (fun c a b => fit o.m (asInt (o.m.getLsbD 0) c + asInt (o.m.getLsbD 0) a * asInt (o.m.getLsbD 0) b))

/-- SAD: fit(vd + Σ |a.byte j − b.byte j|). -/
def execVsad (o : V3Op) (s : State) : Result :=
  vec3d s o (fun c a b => fit o.m (asInt (o.m.getLsbD 0) c + sumAbsDiff (o.m.getLsbD 0) a b))

/-- AND. -/
def execVand (o : V3Op) (s : State) : Result :=
  vec3 s o (bitOp (fun a b => a &&& b))

/-- OR. -/
def execVor (o : V3Op) (s : State) : Result :=
  vec3 s o (bitOp (fun a b => a ||| b))

/-- XOR. -/
def execVxor (o : V3Op) (s : State) : Result :=
  vec3 s o (bitOp (fun a b => a ^^^ b))

/-- NOT. -/
def execVnot (d a : BitVec 8) (s : State) : Result :=
  vec1 s d a (fun a => (~~~a).toNat)

/-- ANDN: a AND NOT b. -/
def execVandn (o : V3Op) (s : State) : Result :=
  vec3 s o (bitOp (fun a b => a &&& ~~~b))

/-- SHL. -/
def execVshl (o : V3Op) (s : State) : Result :=
  vec3 s o (bitOp opShl)

/-- SHR. -/
def execVshr (o : V3Op) (s : State) : Result :=
  vec3 s o (bitOp opShr)

/-- SAR. -/
def execVsar (o : V3Op) (s : State) : Result :=
  vec3 s o (bitOp opSar)

/-- ROT. -/
def execVrot (o : V3Op) (s : State) : Result :=
  vec3 s o (bitOp opRot)

/-- CLZ: 32 for 0. -/
def execVclz (d a : BitVec 8) (s : State) : Result :=
  vec1 s d a (fun a => leadingZeros 32 a.toNat)

/-- POPC. -/
def execVpopc (d a : BitVec 8) (s : State) : Result :=
  vec1 s d a (fun a => popcount 32 a.toNat)

/-- BREV: bit i of a moves to bit 31 − i. -/
def execVbrev (d a : BitVec 8) (s : State) : Result :=
  vec1 s d a (fun a => reverseBits 32 a.toNat)

/-! ### Bit fields and extensions (R87, R88) -/

/-- BFX: the field of va, extended per U; a field past bit 31 raises cause 3 (R87). -/
def execVbfx (d a : BitVec 8) (pos lenm1 : BitVec 5) (u : Bool) (s : State) : Result :=
  vec1 s d a (fun a =>
    let f := bitsOf a.toNat pos.toNat (lenm1.toNat + 1)
    if u then f else wrap 32 (signed (lenm1.toNat + 1) f))

/-- BFI: the low bits of va in the field of vd, its other bits kept (R87). -/
def execVbfi (d a : BitVec 8) (pos lenm1 : BitVec 5) (s : State) : Result :=
  .next (s.mapLanes d.toNat (fun l =>
    (setBits (s.vreg d.toNat l).toNat pos.toNat (lenm1.toNat + 1) (s.vreg a.toNat l).toNat, 0)))

/-- SXT: va[w − 1 : 0] sign-extended (R88). -/
def execVsxt (d a w : BitVec 8) (s : State) : Result :=
  vec1 s d a (fun a => wrap 32 (signed w.toNat a.toNat))

/-- ZXT: va[w − 1 : 0] zero-extended (R88). -/
def execVzxt (d a w : BitVec 8) (s : State) : Result :=
  vec1 s d a (fun a => a.toNat % 2 ^ w.toNat)

/-! ### Form VI (R85, R86) -/

/-- ADD of an immediate. -/
def execVaddVi (o : V3Op) (s : State) : Result :=
  vecI s o (imm8 (o.m.getLsbD 0) o.b) (fitOp o.m opAdd)

/-- MUL by an immediate. -/
def execVmulVi (o : V3Op) (s : State) : Result :=
  vecI s o (imm8 (o.m.getLsbD 0) o.b) (fitOp o.m opMul)

/-- AND with a sign-extended immediate. -/
def execVandVi (o : V3Op) (s : State) : Result :=
  vecI s o (imm8 false o.b) (bitOp (fun a b => a &&& b))

/-- OR with a sign-extended immediate. -/
def execVorVi (o : V3Op) (s : State) : Result :=
  vecI s o (imm8 false o.b) (bitOp (fun a b => a ||| b))

/-- XOR with a sign-extended immediate. -/
def execVxorVi (o : V3Op) (s : State) : Result :=
  vecI s o (imm8 false o.b) (bitOp (fun a b => a ^^^ b))

/-- SHL by an unsigned immediate. -/
def execVshlVi (o : V3Op) (s : State) : Result :=
  vecI s o (imm8 true o.b) (bitOp opShl)

/-- SHR by an unsigned immediate. -/
def execVshrVi (o : V3Op) (s : State) : Result :=
  vecI s o (imm8 true o.b) (bitOp opShr)

/-- SAR by an unsigned immediate. -/
def execVsarVi (o : V3Op) (s : State) : Result :=
  vecI s o (imm8 true o.b) (bitOp opSar)

/-- MIN with an immediate. -/
def execVminVi (o : V3Op) (s : State) : Result :=
  vecI s o (imm8 (o.m.getLsbD 0) o.b) (opMinMax true o.m)

/-- MAX with an immediate. -/
def execVmaxVi (o : V3Op) (s : State) : Result :=
  vecI s o (imm8 (o.m.getLsbD 0) o.b) (opMinMax false o.m)

/-- LI: the immediate, extended as m[0] says (R85, R86). -/
def execVli (d i : BitVec 8) (m : BitVec 2) (s : State) : Result :=
  .next (s.mapLanes d.toNat (fun _ => ((imm8 (m.getLsbD 0) i).toNat, 0)))

/-! ### Form VS (R85, R86) -/

/-- ADD of a scalar. -/
def execVaddVs (o : V3Op) (s : State) : Result :=
  vecS s o (fitOp o.m opAdd)

/-- SUB of a scalar. -/
def execVsubVs (o : V3Op) (s : State) : Result :=
  vecS s o (fitOp o.m opSub)

/-- MUL by a scalar. -/
def execVmulVs (o : V3Op) (s : State) : Result :=
  vecS s o (fitOp o.m opMul)

/-- AND with a scalar. -/
def execVandVs (o : V3Op) (s : State) : Result :=
  vecS s o (bitOp (fun a b => a &&& b))

/-- OR with a scalar. -/
def execVorVs (o : V3Op) (s : State) : Result :=
  vecS s o (bitOp (fun a b => a ||| b))

/-- XOR with a scalar. -/
def execVxorVs (o : V3Op) (s : State) : Result :=
  vecS s o (bitOp (fun a b => a ^^^ b))

/-- SHL by a scalar. -/
def execVshlVs (o : V3Op) (s : State) : Result :=
  vecS s o (bitOp opShl)

/-- SHR by a scalar. -/
def execVshrVs (o : V3Op) (s : State) : Result :=
  vecS s o (bitOp opShr)

/-- SAR by a scalar. -/
def execVsarVs (o : V3Op) (s : State) : Result :=
  vecS s o (bitOp opSar)

/-- MIN with a scalar. -/
def execVminVs (o : V3Op) (s : State) : Result :=
  vecS s o (opMinMax true o.m)

/-- MAX with a scalar. -/
def execVmaxVs (o : V3Op) (s : State) : Result :=
  vecS s o (opMinMax false o.m)

/-- BCAST: sN[31:0]. -/
def execVbcast (d r : BitVec 8) (s : State) : Result :=
  .next (s.mapLanes d.toNat (fun _ => ((s.slow r).toNat, 0)))

/-- BCASTH: sN[63:32]. -/
def execVbcasth (d r : BitVec 8) (s : State) : Result :=
  .next (s.mapLanes d.toNat (fun _ => ((s.sreg r.toNat).toNat / 2 ^ 32, 0)))

/-! ### Compares and predicates (R90 to R93) -/

/-- The relation of a CMP condition (R90); false for a reserved one. -/
def cmpCond (cond : Nat) (unsigned : Bool) (a b : W32) : Bool :=
  let x := asInt unsigned a
  let y := asInt unsigned b
  match cond with
  | 0 => a == b
  | 1 => a != b
  | 2 => decide (x < y)
  | 3 => decide (x ≤ y)
  | 4 => decide (y < x)
  | 5 => decide (y ≤ x)
  | 6 => a &&& b != 0
  | 7 => a &&& b == 0
  | _ => false

/-- The relation of an FCMP condition over FP32 values (R91). -/
def fcmpCond (cond : Nat) (a b : W32) : Bool :=
  let x := fmtFP32.decode a.toNat
  let y := fmtFP32.decode b.toNat
  let ord := !x.isNan && !y.isNan
  match cond with
  | 0 => fEq x y
  | 1 => !fEq x y
  | 2 => fLt x y
  | 3 => ord && !fLt y x
  | 4 => fLt y x
  | 5 => ord && !fLt x y
  | 6 => !ord
  | 7 => ord
  | _ => false

/-- A predicate from two 32-bit operands. -/
def vecCmp (s : State) (o : VpOp) (rel : W32 → W32 → Bool) (b : Nat → W32) : Result :=
  .next (s.mapPred o.pd.toNat (fun l => rel (s.vreg o.a.toNat l) (b l)))

/-- CMP with a register. -/
def execVcmp (o : VpOp) (s : State) : Result :=
  vecCmp s o (cmpCond o.cond.toNat (o.m.getLsbD 0)) (s.vreg o.b.toNat)

/-- CMP with an immediate. -/
def execVcmpVi (o : VpOp) (s : State) : Result :=
  vecCmp s o (cmpCond o.cond.toNat (o.m.getLsbD 0)) (fun _ => imm8 (o.m.getLsbD 0) o.b)

/-- CMP with a scalar. -/
def execVcmpVs (o : VpOp) (s : State) : Result :=
  vecCmp s o (cmpCond o.cond.toNat (o.m.getLsbD 0)) (fun _ => s.slow o.b)

/-- FCMP: no NSTAT flag (R91). -/
def execVfcmp (o : VpOp) (s : State) : Result :=
  vecCmp s o (fcmpCond o.cond.toNat) (s.vreg o.b.toNat)

/-- A predicate from two predicates, each inverted or not (R92). -/
def predOp (s : State) (o : VqOp) (f : Bool → Bool → Bool) : Result :=
  .next (s.mapPred o.pd.toNat (fun l => f (hasLane (s.pred o.pa.toNat) l != o.na) (hasLane (s.pred o.pb.toNat) l != o.nb)))

/-- PAND. -/
def execVpand (o : VqOp) (s : State) : Result :=
  predOp s o (fun a b => a && b)

/-- POR. -/
def execVpor (o : VqOp) (s : State) : Result :=
  predOp s o (fun a b => a || b)

/-- PXOR. -/
def execVpxor (o : VqOp) (s : State) : Result :=
  predOp s o (fun a b => a != b)

/-- PNOT. -/
def execVpnot (pd pa : BitVec 4) (na : Bool) (s : State) : Result :=
  .next (s.mapPred pd.toNat (fun l => !(hasLane (s.pred pa.toNat) l != na)))

/-- PTST: va ≠ 0. -/
def execVptst (pd : BitVec 4) (a : BitVec 8) (s : State) : Result :=
  .next (s.mapPred pd.toNat (fun l => s.vreg a.toNat l != 0))

/-- PTOV: 1 where the predicate is true. -/
def execVptov (d : BitVec 8) (p : BitVec 4) (s : State) : Result :=
  .next (s.mapLanes d.toNat (fun l => (boolNat (hasLane (s.pred p.toNat) l), 0)))

/-- SEL: va where the selecting predicate, inverted or not, is true, else vb. -/
def execVsel (d a b : BitVec 8) (p : BitVec 4) (inv : Bool) (s : State) : Result :=
  .next (s.mapLanes d.toNat (fun l =>
    ((if hasLane (s.pred p.toNat) l != inv then s.vreg a.toNat l else s.vreg b.toNat l).toNat, 0)))

/-- MOV. -/
def execVmov (d a : BitVec 8) (s : State) : Result :=
  vec1 s d a (fun a => a.toNat)

/-- LEA: va + %lane × vb, fitted (R89). -/
def execVlea (o : V3Op) (s : State) : Result :=
  .next (s.mapLanes o.d.toNat (fun l =>
    fit o.m (asInt (o.m.getLsbD 0) (s.vreg o.a.toNat l) + (l : Int) * asInt (o.m.getLsbD 0) (s.vreg o.b.toNat l))))

/-- GETS: the special register in each lane; a reserved selector raises cause 3 (R94). -/
def execVgets (d sel : BitVec 8) (s : State) : Result :=
  if (vectorSpecial s sel.toNat 0).isNone then .next (s.trap { vec := 1, cause := 3 })
  else .next (s.mapLanes d.toNat (fun l => ((vectorSpecial s sel.toNat l).getD 0, 0)))

/-! ### Conversions and packing (R95, R96, R102) -/

/-- Element `e` of a lane's value of a type; an absent element reads 0. -/
def laneElement (t : BitVec 4) (v e : Nat) : Nat := if e < elemsPerLane t then bitsOf v (typeBits t * e) (typeBits t) else 0

/-- The conversions of one lane, elements `j` up, `n` left (R95): `v` the source, `acc` the destination so far. -/
def convertLane (x : CvtX) (v : Nat) : Nat → Nat → Nat → NumFlags → Nat × NumFlags
  | 0, _, acc, fl => (acc, fl)
  | k + 1, j, acc, fl =>
    let n := min (elemsPerLane x.st) (elemsPerLane x.dt)
    let src := if n < elemsPerLane x.st then x.elem.toNat * n + j else j
    let dst := if n < elemsPerLane x.dt then x.elem.toNat * n + j else j
    if dst < elemsPerLane x.dt then
      let r := convertElement x.dt x.st x.sat x.rtz (laneElement x.st v src)
      convertLane x v k (j + 1) (setBits acc (typeBits x.dt * dst) (typeBits x.dt) r.1) (fl ||| r.2)
    else convertLane x v k (j + 1) acc fl

/-- A lane's value of a type at r: the pair for a 64-bit type. -/
def typeValue (s : State) (t : BitVec 4) (r lane : Nat) : Nat :=
  if typeBits t = 64 then s.vpair r lane else (s.vreg r lane).toNat

/-- A lane's bits that hold elements of a type; the others are written as 0 (R59). -/
def holdBits (t : BitVec 4) (v : Nat) : Nat := v % 2 ^ (elemsPerLane t * typeBits t)

/-- CVT and FCVT in every written lane. -/
def convertOp (s : State) (d a : BitVec 8) (x : CvtX) : Result :=
  let f (l : Nat) : Nat × NumFlags :=
    convertLane x (typeValue s x.st a.toNat l) (min (elemsPerLane x.st) (elemsPerLane x.dt)) 0
      (holdBits x.dt (typeValue s x.dt d.toNat l)) 0
  .next (if typeBits x.dt = 64 then s.mapLanes64 d.toNat f else s.mapLanes d.toNat f)

/-- CVT (R95). -/
def execVcvt (d a : BitVec 8) (x : CvtX) (s : State) : Result :=
  convertOp s d a x

/-- FCVT (R102). -/
def execVfcvt (d a : BitVec 8) (x : CvtX) (s : State) : Result :=
  convertOp s d a x

/-- T2 codes as every instruction reads them, `n` from the lowest up: the reserved code is 0 and sets TRES (R57). -/
def cleanT2 : Nat → Nat → Nat × NumFlags
  | 0, _ => (0, 0)
  | n + 1, v =>
    let e := decodeT2 v
    let r := cleanT2 n (v / 4)
    (encodeT2 e.1 + 4 * r.1, e.2 ||| r.2)

/-- The elements of a type as packing moves them: raw bits, but for the reserved code of T2 (R57, R96). -/
def moveElements (t : BitVec 4) (v : Nat) : Nat × NumFlags := if t.toNat = 7 then cleanT2 16 v else (holdBits t v, 0)

/-- PACK: va's elements at OFF of the pair vd, its other bits kept (R57, R96). -/
def execVpack (d a : BitVec 8) (t : BitVec 4) (off : BitVec 6) (s : State) : Result :=
  .next (s.mapLanes64 d.toNat (fun l =>
    let e := moveElements t (s.vreg a.toNat l).toNat
    (setBits (s.vpair d.toNat l) off.toNat (elemsPerLane t * typeBits t) e.1 % 2 ^ 64, e.2)))

/-- UNPK: the elements of the pair va from bit OFF (R57, R96). -/
def execVunpk (d a : BitVec 8) (t : BitVec 4) (off : BitVec 6) (s : State) : Result :=
  .next (s.mapLanes d.toNat (fun l =>
    moveElements t (bitsOf (s.vpair a.toNat l) off.toNat (elemsPerLane t * typeBits t))))

end Sys2Proof.Machine
end

