-- ==== Sys2Proof/Machine/Dispatch.lean ====
section
/-! DEFINITION. The dispatcher: one arm for each constructor of `Instr`. -/

namespace Sys2Proof.Machine

def exec (i : Instr) (s : State) : Host.Outcome State Fault Refusal :=
  match i with
  | .gxLaunch d a b => Sys2Proof.Machine.execGxLaunch d a b s
  | .gxReplay d a => Sys2Proof.Machine.execGxReplay d a s
  | .illegalInstruction cause => Sys2Proof.Machine.execIllegalInstruction cause s
  | .snop n => Sys2Proof.Machine.execSnop n s
  | .sadd d a b => Sys2Proof.Machine.execSadd d a b s
  | .ssub d a b => Sys2Proof.Machine.execSsub d a b s
  | .smul d a b => Sys2Proof.Machine.execSmul d a b s
  | .smulh d a b => Sys2Proof.Machine.execSmulh d a b s
  | .sand d a b => Sys2Proof.Machine.execSand d a b s
  | .sor d a b => Sys2Proof.Machine.execSor d a b s
  | .sxor d a b => Sys2Proof.Machine.execSxor d a b s
  | .sshl d a b => Sys2Proof.Machine.execSshl d a b s
  | .sshr d a b => Sys2Proof.Machine.execSshr d a b s
  | .ssar d a b => Sys2Proof.Machine.execSsar d a b s
  | .smin d a b => Sys2Proof.Machine.execSmin d a b s
  | .smax d a b => Sys2Proof.Machine.execSmax d a b s
  | .sslt d a b => Sys2Proof.Machine.execSslt d a b s
  | .sminn d a b => Sys2Proof.Machine.execSminn d a b s
  | .smaxn d a b => Sys2Proof.Machine.execSmaxn d a b s
  | .saddSi d a n => Sys2Proof.Machine.execSaddSi d a n s
  | .sandSi d a n => Sys2Proof.Machine.execSandSi d a n s
  | .sorSi d a n => Sys2Proof.Machine.execSorSi d a n s
  | .sxorSi d a n => Sys2Proof.Machine.execSxorSi d a n s
  | .sshlSi d a n => Sys2Proof.Machine.execSshlSi d a n s
  | .sshrSi d a n => Sys2Proof.Machine.execSshrSi d a n s
  | .ssarSi d a n => Sys2Proof.Machine.execSsarSi d a n s
  | .ssltSi d a n => Sys2Proof.Machine.execSsltSi d a n s
  | .sli d n => Sys2Proof.Machine.execSli d n s
  | .slsh d n => Sys2Proof.Machine.execSlsh d n s
  | .sgets d sel => Sys2Proof.Machine.execSgets d sel s
  | .sld d a n => Sys2Proof.Machine.execSld d a n s
  | .sst d a n => Sys2Proof.Machine.execSst d a n s
  | .ssltn d a b => Sys2Proof.Machine.execSsltn d a b s
  | .swaitc path sn z => Sys2Proof.Machine.execSwaitc path sn z s
  | .sfenceRel scope => Sys2Proof.Machine.execSfenceRel scope s
  | .sfenceAcq scope => Sys2Proof.Machine.execSfenceAcq scope s
  | .sbra off => Sys2Proof.Machine.execSbra off s
  | .scall off => Sys2Proof.Machine.execScall off s
  | .sret => Sys2Proof.Machine.execSret s
  | .sbrx a => Sys2Proof.Machine.execSbrx a s
  | .sexit => Sys2Proof.Machine.execSexit s
  | .sregang => Sys2Proof.Machine.execSregang s
  | .sbar a scope => Sys2Proof.Machine.execSbar a scope s
  | .sbara a scope => Sys2Proof.Machine.execSbara a scope s
  | .sfork d a b => Sys2Proof.Machine.execSfork d a b s
  | .sjoin => Sys2Proof.Machine.execSjoin s
  | .sgwalk d a => Sys2Proof.Machine.execSgwalk d a s
  | .strap code => Sys2Proof.Machine.execStrap code s
  | .ssysNclr a => Sys2Proof.Machine.execSsysNclr a s
  | .ssysTret => Sys2Proof.Machine.execSsysTret s
  | .ssysTrd a w => Sys2Proof.Machine.execSsysTrd a w s
  | .ssysTwr a w => Sys2Proof.Machine.execSsysTwr a w s
  | .ssysCtxid a => Sys2Proof.Machine.execSsysCtxid a s
  | .smfence d flag ck ctr => Sys2Proof.Machine.execSmfence d flag ck ctr s
  | .smwait a => Sys2Proof.Machine.execSmwait a s
  | .smonarm a => Sys2Proof.Machine.execSmonarm a s
  | .smonwait d a => Sys2Proof.Machine.execSmonwait d a s
  | .snlook d a => Sys2Proof.Machine.execSnlook d a s
  | .snlookHold d a => Sys2Proof.Machine.execSnlookHold d a s
  | .snlookRelease d a => Sys2Proof.Machine.execSnlookRelease d a s
  | .snnew d a b => Sys2Proof.Machine.execSnnew d a b s
  | .sndel d a => Sys2Proof.Machine.execSndel d a s
  | .sncas d a b => Sys2Proof.Machine.execSncas d a b s
  | .vnop n => Sys2Proof.Machine.execVnop n s
  | .vhint k n => Sys2Proof.Machine.execVhint k n s
  | .vadd o => Sys2Proof.Machine.execVadd o s
  | .vsub o => Sys2Proof.Machine.execVsub o s
  | .vmul o => Sys2Proof.Machine.execVmul o s
  | .vmulh o => Sys2Proof.Machine.execVmulh o s
  | .vmin o => Sys2Proof.Machine.execVmin o s
  | .vmax o => Sys2Proof.Machine.execVmax o s
  | .vabs o => Sys2Proof.Machine.execVabs o s
  | .vneg o => Sys2Proof.Machine.execVneg o s
  | .vmad o => Sys2Proof.Machine.execVmad o s
  | .vsad o => Sys2Proof.Machine.execVsad o s
  | .vand o => Sys2Proof.Machine.execVand o s
  | .vor o => Sys2Proof.Machine.execVor o s
  | .vxor o => Sys2Proof.Machine.execVxor o s
  | .vnot d a => Sys2Proof.Machine.execVnot d a s
  | .vandn o => Sys2Proof.Machine.execVandn o s
  | .vshl o => Sys2Proof.Machine.execVshl o s
  | .vshr o => Sys2Proof.Machine.execVshr o s
  | .vsar o => Sys2Proof.Machine.execVsar o s
  | .vrot o => Sys2Proof.Machine.execVrot o s
  | .vclz d a => Sys2Proof.Machine.execVclz d a s
  | .vpopc d a => Sys2Proof.Machine.execVpopc d a s
  | .vbrev d a => Sys2Proof.Machine.execVbrev d a s
  | .vbfx d a pos lenm1 u => Sys2Proof.Machine.execVbfx d a pos lenm1 u s
  | .vbfi d a pos lenm1 => Sys2Proof.Machine.execVbfi d a pos lenm1 s
  | .vaddVi o => Sys2Proof.Machine.execVaddVi o s
  | .vmulVi o => Sys2Proof.Machine.execVmulVi o s
  | .vandVi o => Sys2Proof.Machine.execVandVi o s
  | .vorVi o => Sys2Proof.Machine.execVorVi o s
  | .vxorVi o => Sys2Proof.Machine.execVxorVi o s
  | .vshlVi o => Sys2Proof.Machine.execVshlVi o s
  | .vshrVi o => Sys2Proof.Machine.execVshrVi o s
  | .vsarVi o => Sys2Proof.Machine.execVsarVi o s
  | .vminVi o => Sys2Proof.Machine.execVminVi o s
  | .vmaxVi o => Sys2Proof.Machine.execVmaxVi o s
  | .vli d n m => Sys2Proof.Machine.execVli d n m s
  | .vaddVs o => Sys2Proof.Machine.execVaddVs o s
  | .vsubVs o => Sys2Proof.Machine.execVsubVs o s
  | .vmulVs o => Sys2Proof.Machine.execVmulVs o s
  | .vandVs o => Sys2Proof.Machine.execVandVs o s
  | .vorVs o => Sys2Proof.Machine.execVorVs o s
  | .vxorVs o => Sys2Proof.Machine.execVxorVs o s
  | .vshlVs o => Sys2Proof.Machine.execVshlVs o s
  | .vshrVs o => Sys2Proof.Machine.execVshrVs o s
  | .vsarVs o => Sys2Proof.Machine.execVsarVs o s
  | .vminVs o => Sys2Proof.Machine.execVminVs o s
  | .vmaxVs o => Sys2Proof.Machine.execVmaxVs o s
  | .vbcast d r => Sys2Proof.Machine.execVbcast d r s
  | .vbcasth d r => Sys2Proof.Machine.execVbcasth d r s
  | .vcmp o => Sys2Proof.Machine.execVcmp o s
  | .vcmpVi o => Sys2Proof.Machine.execVcmpVi o s
  | .vcmpVs o => Sys2Proof.Machine.execVcmpVs o s
  | .vfcmp o => Sys2Proof.Machine.execVfcmp o s
  | .vpand o => Sys2Proof.Machine.execVpand o s
  | .vpor o => Sys2Proof.Machine.execVpor o s
  | .vpxor o => Sys2Proof.Machine.execVpxor o s
  | .vpnot pd pa na => Sys2Proof.Machine.execVpnot pd pa na s
  | .vptst pd a => Sys2Proof.Machine.execVptst pd a s
  | .vptov d p => Sys2Proof.Machine.execVptov d p s
  | .vsel d a b p inv => Sys2Proof.Machine.execVsel d a b p inv s
  | .vmov d a => Sys2Proof.Machine.execVmov d a s
  | .vcvt d a x => Sys2Proof.Machine.execVcvt d a x s
  | .vlea o => Sys2Proof.Machine.execVlea o s
  | .vpack d a t off => Sys2Proof.Machine.execVpack d a t off s
  | .vunpk d a t off => Sys2Proof.Machine.execVunpk d a t off s
  | .vsxt d a w => Sys2Proof.Machine.execVsxt d a w s
  | .vzxt d a w => Sys2Proof.Machine.execVzxt d a w s
  | .vgets d sel => Sys2Proof.Machine.execVgets d sel s
  | .vfadd o => Sys2Proof.Machine.execVfadd o s
  | .vfsub o => Sys2Proof.Machine.execVfsub o s
  | .vfmul o => Sys2Proof.Machine.execVfmul o s
  | .vfma o => Sys2Proof.Machine.execVfma o s
  | .vfmin o => Sys2Proof.Machine.execVfmin o s
  | .vfmax o => Sys2Proof.Machine.execVfmax o s
  | .vfabs o => Sys2Proof.Machine.execVfabs o s
  | .vfneg o => Sys2Proof.Machine.execVfneg o s
  | .vfrcp o => Sys2Proof.Machine.execVfrcp o s
  | .vfrsq o => Sys2Proof.Machine.execVfrsq o s
  | .vfsqrt o => Sys2Proof.Machine.execVfsqrt o s
  | .vfexp2 o => Sys2Proof.Machine.execVfexp2 o s
  | .vflog2 o => Sys2Proof.Machine.execVflog2 o s
  | .vfcvt d a x => Sys2Proof.Machine.execVfcvt d a x s
  | .vqxch d a b width => Sys2Proof.Machine.execVqxch d a b width s
  | .vshfl d a b width => Sys2Proof.Machine.execVshfl d a b width s
  | .vshflVi d a b width => Sys2Proof.Machine.execVshflVi d a b width s
  | .vshflVs d a b width => Sys2Proof.Machine.execVshflVs d a b width s
  | .vshflup d a b width => Sys2Proof.Machine.execVshflup d a b width s
  | .vshfldn d a b width => Sys2Proof.Machine.execVshfldn d a b width s
  | .vshflx d a b width => Sys2Proof.Machine.execVshflx d a b width s
  | .vvote cond pd p inv width => Sys2Proof.Machine.execVvote cond pd p inv width s
  | .vballot d width p inv => Sys2Proof.Machine.execVballot d width p inv s
  | .vwred d a width op scan => Sys2Proof.Machine.execVwred d a width op scan s
  | .vld o x => Sys2Proof.Machine.execVld o x s
  | .vst o x => Sys2Proof.Machine.execVst o x s
  | .vldu o x => Sys2Proof.Machine.execVldu o x s
  | .vstu o x => Sys2Proof.Machine.execVstu o x s
  | .vlds o x => Sys2Proof.Machine.execVlds o x s
  | .vsts o x => Sys2Proof.Machine.execVsts o x s
  | .vldx o x => Sys2Proof.Machine.execVldx o x s
  | .vstx o x => Sys2Proof.Machine.execVstx o x s
  | .vldf o x => Sys2Proof.Machine.execVldf o x s
  | .vste o x => Sys2Proof.Machine.execVste o x s
  | .vldc o count off => Sys2Proof.Machine.execVldc o count off s
  | .vstn o x => Sys2Proof.Machine.execVstn o x s
  | .vred o x => Sys2Proof.Machine.execVred o x s
  | .vpfl o x => Sys2Proof.Machine.execVpfl o x s
  | .vaadd o x => Sys2Proof.Machine.execVaadd o x s
  | .vamin o x => Sys2Proof.Machine.execVamin o x s
  | .vamax o x => Sys2Proof.Machine.execVamax o x s
  | .vaand o x => Sys2Proof.Machine.execVaand o x s
  | .vaor o x => Sys2Proof.Machine.execVaor o x s
  | .vaxor o x => Sys2Proof.Machine.execVaxor o x s
  | .vaxch o x => Sys2Proof.Machine.execVaxch o x s
  | .vacas d a b x => Sys2Proof.Machine.execVacas d a b x s
  | .vbadd o x => Sys2Proof.Machine.execVbadd o x s
  | .vbmin o x => Sys2Proof.Machine.execVbmin o x s
  | .vbmax o x => Sys2Proof.Machine.execVbmax o x s
  | .vband o x => Sys2Proof.Machine.execVband o x s
  | .vbor o x => Sys2Proof.Machine.execVbor o x s
  | .vbxor o x => Sys2Proof.Machine.execVbxor o x s
  | .vbxch o x => Sys2Proof.Machine.execVbxch o x s
  | .vbcas d a b x => Sys2Proof.Machine.execVbcas d a b x s
  | .vmma o => Sys2Proof.Machine.execVmma o s
  | .vmss o => Sys2Proof.Machine.execVmss o s
  | .vaccrd o => Sys2Proof.Machine.execVaccrd o s
  | .vaccwr o => Sys2Proof.Machine.execVaccwr o s
  | .vaccz acc => Sys2Proof.Machine.execVaccz acc s
  | .vaccq d a acc col it u => Sys2Proof.Machine.execVaccq d a acc col it u s
  | .vfmtld fmt a b => Sys2Proof.Machine.execVfmtld fmt a b s
  | .vecpy o fromSp toSp fe => Sys2Proof.Machine.execVecpy o fromSp toSp fe s
  | .vefill o fromSp fifo => Sys2Proof.Machine.execVefill o fromSp fifo s
  | .vered o op type => Sys2Proof.Machine.execVered o op type s
  | .vepkt o t ctr => Sys2Proof.Machine.execVepkt o t ctr s
  | .veblkGet o => Sys2Proof.Machine.execVeblkGet o s
  | .veblkPut o => Sys2Proof.Machine.execVeblkPut o s
  | .veblkFlush o => Sys2Proof.Machine.execVeblkFlush o s
  | .auxPowerGood => Sys2Proof.Machine.execAuxPowerGood s
  | .mainPowerGood => Sys2Proof.Machine.execMainPowerGood s
  | .mainPowerLoss => Sys2Proof.Machine.execMainPowerLoss s
  | .auxPowerLoss => Sys2Proof.Machine.execAuxPowerLoss s
  | .residentOsReady => Sys2Proof.Machine.execResidentOsReady s
  | .warmResetApply => Sys2Proof.Machine.execWarmResetApply s
  | .fatalMachineCheck => Sys2Proof.Machine.execFatalMachineCheck s
  | .hostctlWrst => Sys2Proof.Machine.execHostctlWrst s
  | .readBbhead => Sys2Proof.Machine.execReadBbhead s
  | .readBlackBoxRecord => Sys2Proof.Machine.execReadBlackBoxRecord s
  | .readRepairMapRecord => Sys2Proof.Machine.execReadRepairMapRecord s
  | .readSectorMetadata => Sys2Proof.Machine.execReadSectorMetadata s
  | .writeInjectorWords => Sys2Proof.Machine.execWriteInjectorWords s
  | .requestWarmReset => Sys2Proof.Machine.execRequestWarmReset s
  | .readModstat => Sys2Proof.Machine.execReadModstat s
  | .pldmSensorRead => Sys2Proof.Machine.execPldmSensorRead s
  | .pldmFirmwareUpdate => Sys2Proof.Machine.execPldmFirmwareUpdate s
  | .spdmMeasurement => Sys2Proof.Machine.execSpdmMeasurement s
  | .cxlMemWrite => Sys2Proof.Machine.execCxlMemWrite s
  | .cxlMemRead => Sys2Proof.Machine.execCxlMemRead s
  | .clockAdjust => Sys2Proof.Machine.execClockAdjust s
  | .registerWrite => Sys2Proof.Machine.execRegisterWrite s
  | .faultEntryFree => Sys2Proof.Machine.execFaultEntryFree s
  | .fbstatDroppedClear => Sys2Proof.Machine.execFbstatDroppedClear s
  | .interruptClaim => Sys2Proof.Machine.execInterruptClaim s
  | .namePortLook => Sys2Proof.Machine.execNamePortLook s
  | .namePortLookHold => Sys2Proof.Machine.execNamePortLookHold s
  | .namePortRelease => Sys2Proof.Machine.execNamePortRelease s
  | .namePortNew => Sys2Proof.Machine.execNamePortNew s
  | .namePortDelete => Sys2Proof.Machine.execNamePortDelete s
  | .namePortCas => Sys2Proof.Machine.execNamePortCas s
  | .injectorWrite => Sys2Proof.Machine.execInjectorWrite s
  | .injectorRelease => Sys2Proof.Machine.execInjectorRelease s
  | .linkTransmit => Sys2Proof.Machine.execLinkTransmit s
  | .linkResend => Sys2Proof.Machine.execLinkResend s
  | .linkLaneSwap => Sys2Proof.Machine.execLinkLaneSwap s
  | .linkRetrain => Sys2Proof.Machine.execLinkRetrain s
  | .patrolScrub => Sys2Proof.Machine.execPatrolScrub s
  | .blockDispatch => Sys2Proof.Machine.execBlockDispatch s
  | .preemptVictim => Sys2Proof.Machine.execPreemptVictim s
  | .preemptComplete => Sys2Proof.Machine.execPreemptComplete s
  | .gridCompletion => Sys2Proof.Machine.execGridCompletion s
  | .donationStart => Sys2Proof.Machine.execDonationStart s
  | .donationEnd => Sys2Proof.Machine.execDonationEnd s
  | .contextRemoval => Sys2Proof.Machine.execContextRemoval s
  | .graphNodeStart => Sys2Proof.Machine.execGraphNodeStart s
  | .graphNodeComplete => Sys2Proof.Machine.execGraphNodeComplete s
  | .headerWaitEnd => Sys2Proof.Machine.execHeaderWaitEnd s
  | .ageingCounterSaturate => Sys2Proof.Machine.execAgeingCounterSaturate s
  | .stackRotation => Sys2Proof.Machine.execStackRotation s
  | .convergenceTrap => Sys2Proof.Machine.execConvergenceTrap s
  | .regcacheFill => Sys2Proof.Machine.execRegcacheFill s
  | .loadDataReturn => Sys2Proof.Machine.execLoadDataReturn s
  | .storePerformed => Sys2Proof.Machine.execStorePerformed s
  | .postedWriteAck => Sys2Proof.Machine.execPostedWriteAck s
  | .scratchpadRemoteReply => Sys2Proof.Machine.execScratchpadRemoteReply s
  | .feWaitComplete => Sys2Proof.Machine.execFeWaitComplete s
  | .monwaitTimeout => Sys2Proof.Machine.execMonwaitTimeout s
  | .fenceComplete => Sys2Proof.Machine.execFenceComplete s
  | .releaseQueryReply => Sys2Proof.Machine.execReleaseQueryReply s
  | .releaseQueryResend => Sys2Proof.Machine.execReleaseQueryResend s
  | .homeArrivalQuery => Sys2Proof.Machine.execHomeArrivalQuery s
  | .barrierArrival => Sys2Proof.Machine.execBarrierArrival s
  | .checkpoint => Sys2Proof.Machine.execCheckpoint s
  | .mmaStart => Sys2Proof.Machine.execMmaStart s
  | .mmaComplete => Sys2Proof.Machine.execMmaComplete s
  | .batchComplete => Sys2Proof.Machine.execBatchComplete s
  | .selfTestProduct => Sys2Proof.Machine.execSelfTestProduct s
  | .auditReplay => Sys2Proof.Machine.execAuditReplay s
  | .engineHandover => Sys2Proof.Machine.execEngineHandover s
  | .engineSegmentStart => Sys2Proof.Machine.execEngineSegmentStart s
  | .engineCommandComplete => Sys2Proof.Machine.execEngineCommandComplete s
  | .engineChunkBoundary => Sys2Proof.Machine.execEngineChunkBoundary s
  | .epktLocalCompletion => Sys2Proof.Machine.execEpktLocalCompletion s
  | .packetReceive => Sys2Proof.Machine.execPacketReceive s
  | .prop => Sys2Proof.Machine.execProp s
  | .ack => Sys2Proof.Machine.execAck s
  | .nak => Sys2Proof.Machine.execNak s
  | .release => Sys2Proof.Machine.execRelease s
  | .commit => Sys2Proof.Machine.execCommit s
  | .done => Sys2Proof.Machine.execDone s
  | .rds => Sys2Proof.Machine.execRds s
  | .rdx => Sys2Proof.Machine.execRdx s
  | .tok => Sys2Proof.Machine.execTok s
  | .tkd => Sys2Proof.Machine.execTkd s
  | .wbk => Sys2Proof.Machine.execWbk s
  | .prq => Sys2Proof.Machine.execPrq s
  | .pdq => Sys2Proof.Machine.execPdq s
  | .pac => Sys2Proof.Machine.execPac s
  | .pda => Sys2Proof.Machine.execPda s
  | .pnd => Sys2Proof.Machine.execPnd s
  | .cnq => Sys2Proof.Machine.execCnq s
  | .cnr => Sys2Proof.Machine.execCnr s
  | .rcr => Sys2Proof.Machine.execRcr s
  | .transientTimerExpiry => Sys2Proof.Machine.execTransientTimerExpiry s
  | .eviction => Sys2Proof.Machine.execEviction s
  | .homePostedWrite => Sys2Proof.Machine.execHomePostedWrite s
  | .persistentRequest5us => Sys2Proof.Machine.execPersistentRequest5us s
  | .censusStart => Sys2Proof.Machine.execCensusStart s
  | .censusRound2 => Sys2Proof.Machine.execCensusRound2 s
  | .discardEntryExpire => Sys2Proof.Machine.execDiscardEntryExpire s
  | .censusDeferredStart => Sys2Proof.Machine.execCensusDeferredStart s
  | .blockStateError => Sys2Proof.Machine.execBlockStateError s
  | .flashWriteComplete => Sys2Proof.Machine.execFlashWriteComplete s
  | .nameOpComplete => Sys2Proof.Machine.execNameOpComplete s
  | .remoteBankAccess => Sys2Proof.Machine.execRemoteBankAccess s
  | .hartMemoryAccess => Sys2Proof.Machine.execHartMemoryAccess s
  | .perstChange => Sys2Proof.Machine.execPerstChange s

end Sys2Proof.Machine
end

