-- ==== Sys2Proof/Machine/Sched.lean ====
section
/-! DEFINITION. Issue: when a unit is ready (R117, R188 to R192, R344), which one a scheduler takes (R188), and how a bundle
is carried out (R40, R52). -/

namespace Sys2Proof.Machine

/-! ### Readiness -/

/-- A unit's hold no longer keeps it from trying its slot again. -/
def holdOver (s : State) (w : Nat) (x : Warp) (v : IUnit) : Bool :=
  match v.hold with
  | .none | .children | .walk => true
  | .loads => (openLoads x).isEmpty
  | .waitc path n => decide (pathCount x path ≤ n)
  | .pathFull path => decide (pathCount x path < 63)
  | .mwait b => x.batches.all (fun c => c.done || decide (b < c.no.toNat))
  | .tile t => !(s.block x.blk).mq.any (fun m => m.warp == w && m.op.acc.toNat == t && decide (m.id < v.firstId))
  | .monwait _ => v.wake.isSome
  | .fullEmpty => v.fe == 0
  | .cross | .regang | .wholeWarp | .tret => true
  | .headerWait | .reconv | .fault _ | .fenceRel _ | .fenceAcq _ | .fenceQuery _ | .arriving | .barrier _ _ _ _ | .atJoin | .ended => false

/-- Lanes for which an access has still to deliver a vector register. -/
def pendingLanes (c : Access) (r : Nat) : Lanes :=
  match c.dest with
  | none => 0
  | some d =>
    if d.scalar || decide (r < d.reg) || decide (d.reg + sizeRegs d.bytes ≤ r) then 0
    else maskOf ((c.parts.map (·.lane)) ++ (c.got.map (fun g => g.1)))

/-- A scalar register is pending (R117): on a load, an engine command or a name operation. -/
def scalarPending (x : Warp) (r : Nat) : Bool :=
  x.spend.any (fun p => p.1 == r) || x.accs.any (fun c => match c.dest with
    | some d => d.scalar && d.reg == r
    | none => false)

/-- The registers of an instruction may be used in some lanes at cc `now`: none pending (R117), no source in its result
latency (R344). -/
def regsFree (x : Warp) (lanes : Lanes) (now : Nat) (u : RegUse) : Bool :=
  (u.vr ++ u.vw).all (fun r => x.accs.all (fun c => pendingLanes c r &&& lanes == 0))
    && (u.sr ++ u.sw).all (fun r => !scalarPending x r)
    && x.lat.all (fun l => decide (l.ready ≤ now) || l.lanes &&& lanes == 0
        || !(if l.pred then u.pr.contains l.reg else u.vr.contains l.reg))

/-- The vector slot needs no pipe (R188). -/
def pipeless (i : Instr) : Bool :=
  match i with
  | .vnop _ => true
  | .vhint _ _ => true
  | _ => false

/-- The scheduler of a warp (R188). -/
def schedOf (x : Warp) : Nat := x.slot % 4

/-- The predicates a bundle's guard reads: none for NOP and HINT slots (R50), the guard's where the scalar slot or a vector
operation is conditional on it. -/
def guardReads (b : Bundle) (skip : Bool) : List Nat :=
  let scalar := !skip && b.gscope && (match b.scalar with
    | some (.snop _) => false
    | some _ => true
    | none => false)
  if scalar || !pipeless b.vector then [b.gpred.toNat] else []

/-- Lanes that a cross-lane instruction of a width reads beside the issue's own (R106): the groups of plies it touches. -/
def domainLanes (x : Warp) (c : Conv) (m : Lanes) : Lanes :=
  match c with
  | .groups _ _ k => m ||| touchedGroups (convGroups x (.groups false false k)) m
  | _ => m

/-- The unit waits on a sector that an engine pins (R136, R190): an access of its lanes that needs the sector's tokens has not
been performed, or stands as a posted write at the sector's home. -/
def pinHeld (s : State) (w : Nat) (x : Warp) (v : IUnit) : Bool :=
  x.accs.any (fun c => c.bank.isNone && c.lanes &&& v.lanes != 0 && (match c.stage with
    | .waiting => c.parts.any (fun p => !p.ros && (pinnedBy s (p.addr / 64)).isSome)
    | .sent => s.tok.posted.any (fun p => p.ack == some (w, c.id) && (pinnedBy s p.write.sector).isSome)
    | .replied => false))

/-- The unit can issue, or park, in this cc. -/
def unitReady (s : State) (w u : Nat) : Bool :=
  let x := s.warp w
  let v := x.unit u
  let k := s.core x.core
  let now := (k.cc[schedOf x]?).getD 0
  holdOver s w x v && !v.entering && decide (x.journal.length < 32) && !pinHeld s w x v
    && (match bundleAt s x v with
      | none => true
      | some b =>
        let c := unitConv x.arch v b
        let conv := convLanes x u c
        if conv.isNone then !isParked v.hold
        else
          let active := conv.getD v.lanes
          let lanes := active ||| helpersOf x.arch active
          let g := granulesOf x.arch lanes v b
          (v.skip || regsFree x lanes now (match b.scalar with
            | some i => regUse i
            | none => {}))
            && regsFree x (domainLanes x c lanes) now { regUse b.vector with pr := guardReads b v.skip ++ (regUse b.vector).pr }
            && (g.1 ++ g.2).all (hasGranule k w)
            && (pipeless b.vector || decide ((k.pipe[schedOf x]?).getD 0 ≤ now)))

/-! ### One bundle (R40) -/

/-- The scalar opcode of a word is a transfer that may stand only last (R35), whatever else is wrong with the word. -/
def placedWord (w : Nat) : Bool :=
  let sop := bitsOf w 52 6
  (decide (0x20 ≤ sop) && decide (sop ≤ 0x25)) || sop == 0x29 || (sop == 0x2C && bitsOf w 46 6 == 1)

/-- A bundle word spells TRET, TRD or TWR, which only trap level has, its guard lets it act, and the unit stands below trap level
(R155, R187). A header word is none (R52). -/
def levelBreach (a : WarpArch) (v : IUnit) (w : Nat) : Bool :=
  let sop := bitsOf w 52 6
  let fn := bitsOf w 46 6
  let p := a.getP (bitsOf w 59 4)
  let pass := v.lanes &&& (if bitsOf w 63 1 = 1 then p else ~~~p)
  !isHeaderWord w && v.trap.isNone && !v.skip && sop == 0x2C && decide (1 ≤ fn) && decide (fn ≤ 3) && (bitsOf w 58 1 == 0 || pass != 0)

/-- What stands at a unit's bundle: the bundle, or the lowest cause of the trap it raises (R35, R52, R155). -/
def readBundle (w : Nat) (last breach : Bool) : Except Nat Bundle :=
  match decodeBundle w with
  | .ok b => if breach then .error 3 else if placedWord w && !last then .error 8 else .ok b
  | .error e =>
    if breach && decide (3 < e.code) then .error 3
    else if e.code = 9 ∧ placedWord w ∧ !last then .error 8 else .error e.code

/-- The sub-state of a slot cleared for the next one. -/
def IUnit.freshSlot (v : IUnit) : IUnit :=
  { v with hold := .none, fenced := false, issued := false, fe := 0, wake := none, passed := false, latch := [], arms := none }

/-- Results that may not be read at once (R344). -/
def addLatency (x : Warp) (i : Instr) (lanes : Lanes) (now : Nat) : Warp :=
  let n := latency i
  if n = 0 then x
  else
    let u := regUse i
    let new := u.vw.map (fun r => (⟨false, r, lanes, now + n⟩ : Latent)) ++ u.pw.map (fun r => (⟨true, r, lanes, now + n⟩ : Latent))
    { x with lat := x.lat.filter (fun l => decide (now < l.ready)) ++ new }

/-- The issue under way as it enters a slot. -/
def slotState (s : State) (vec : Bool) : State := { s with cur := { s.cur with slotVec := vec, status := .ok, snap := s.arch } }

/-- The lanes in which a vector-slot instruction has a result: those whose guard passes and the helpers, which VOTE, BALLOT and WRED
never write (R103, R344). -/
def resultLanes (i : Instr) (s : State) : Lanes :=
  match i with
  | .vvote _ _ _ _ _ | .vballot _ _ _ _ | .vwred _ _ _ _ _ => s.cur.guard
  | _ => s.written

/-- After the vector slot: result latencies, the journal of a provisional bundle, and the end of the bundle. -/
def afterVector (b : Bundle) (t : State) : State :=
  if t.cur.status == .ok then
    let now := ((t.core t.cw.core).cc[schedOf t.cw]?).getD 0
    let earlier := ((openLoads t.cw).map (·.id)).filter (fun id => decide (id < t.unit.firstId))
    let y := addLatency t.cw b.vector (resultLanes b.vector t) now
    let y1 := if earlier.isEmpty then y else { y with journal := y.journal ++ [(y.nextId, earlier)] }
    finishBundle (t.setCw y1) t.cur.w t.cur.u
  else t

/-- The vector slot, and the end of the bundle. -/
def runVector (b : Bundle) (s : State) : Result :=
  let now := ((s.core s.cw.core).cc[schedOf s.cw]?).getD 0
  if !regsFree s.cw (s.cur.lanes ||| s.cur.helpers) now (regUse b.vector) then .next (s.setStatus .wait)
  else
    match exec b.vector (slotState s true) with
    | .next t => .next (afterVector b t)
    | .fault r => .fault r
    | .refused r => .refused r

/-- After the scalar slot: the unit stands at the vector slot with the decided transfer. -/
def afterScalar (t : State) : State :=
  let x := t.cur.xfer
  t.setUnit (fun v => { v.freshSlot with skip := true, xfer := x })

/-- The scalar slot, then the vector slot. -/
def runBundle (b : Bundle) (s : State) : Result :=
  match (if s.unit.skip then none else b.scalar) with
  | none => runVector b (s.setUnit (fun v => { v with skip := true }))
  | some i =>
    match exec i (slotState s false) with
    | .next t => if t.cur.status == .ok then runVector b (afterScalar t) else .next t
    | .fault r => .fault r
    | .refused r => .refused r

/-- A wait whose condition the issue has found met is over. -/
def waitOver (h : Hold) : Bool :=
  match h with
  | .waitc _ _ | .mwait _ => true
  | _ => false

/-- The unit stands at the first bundle of its block at least. -/
def atBundle (y : Warp) (k : Nat) : Warp := y.setUnit k (fun v => { v with pos := { v.pos with idx := max 1 v.pos.idx } })

/-- The unit issues its bundle, from operation number `id` on unless it has begun it before. -/
def IUnit.begin (v : IUnit) (id : Nat) : IUnit :=
  { v with hold := .none, passed := v.passed || waitOver v.hold, firstId := if v.midBundle then v.firstId else id }

/-- The state in which bundle `b` of unit `u` executes for the lanes `m`: converged, its block's flags started, its pipe
and granules taken, and the issue described. -/
def issueState (s : State) (w u : Nat) (b : Bundle) (m : Lanes) : State :=
  let x := s.warp w
  let v := x.unit u
  let y := converge (s.block x.blk) x u (unitConv x.arch v b) m
  let x1 := if ((y.1).unit y.2).pos.idx ≤ 1 ∧ ((y.1).unit y.2).pos.inst = 0 then startInst y.1 y.2 else y.1
  let x2 := (atBundle x1 y.2).setUnit y.2 (fun v => v.begin x1.nextId)
  let helpers := helpersOf x2.arch m
  let k := s.core x.core
  let now := (k.cc[schedOf x]?).getD 0
  let g := granulesOf x.arch (m ||| helpersOf x.arch m) v b
  let busy := if pipeless b.vector then (k.pipe[schedOf x]?).getD 0 else now + (if 4 < (pliesOf m).length then 2 else 1)
  let k1 := useGranules { k with pipe := setAt k.pipe (schedOf x) busy } w g.1 g.2
  let s1 := (s.setWarp w x2).setCore x.core k1
  { s1 with cur := {
      w := w, u := y.2, lanes := m, helpers := helpers, guard := guardLanes x2.arch b m, gscope := b.gscope, pc := v.bundleAddr,
      last := decide (v.pos.head.len.toNat ≤ max 1 v.pos.idx), xfer := (x2.unit y.2).xfer, snap := x2.arch } }

/-- A unit's issue: fetch and decode, convergence, the first bundle's flags, then the slots. -/
def issueUnit (s : State) (w u : Nat) : Result :=
  let x := s.warp w
  let v := x.unit u
  let pc := v.bundleAddr
  let last := decide (v.pos.head.len.toNat ≤ max 1 v.pos.idx)
  match fetchWord s x.ctx pc with
  | none => .next (takeTrap (s.setWarp w (atBundle x u)) w u { vec := 2, cause := 4, faddr := pc, fpc := some v.pos.hdr })
  | some word =>
    match readBundle word last (levelBreach x.arch v word) with
    | .error c =>
      exec (.illegalInstruction c)
        { s.setWarp w (atBundle x u) with cur := { w := w, u := u, lanes := v.lanes, pc := pc, last := last } }
    | .ok b =>
      match convLanes x u (unitConv x.arch v b) with
      | none =>
        .next { s.setWarp w (x.setUnit u (fun v => { v with hold := convHold b (unitConv x.arch v b) })) with
                cur := { w := w, u := u, lanes := v.lanes, pc := pc, last := last, status := .wait } }
      | some m => runBundle b (issueState s w u b m)

/-! ### One cc of a scheduler (R188, R189) -/

/-- A unit's rank in the choice of R188, lower first. -/
def issueRank (s : State) (last w u : Nat) : Nat × Nat :=
  let x := s.warp w
  let v := x.unit u
  let ply := lowestLane v.lanes / 8
  if v.trap.isSome then (0, v.trapOrder)
  else if v.age = 63 then (1, x.slot * 8 + ply)
  else (2, ((x.cls.toNat * 64 + (x.slot + 47 - last) % 48) * 2 ^ 64 + v.bundleAddr) * 8 + ply)

def rankLt (a b : Nat × Nat) : Bool := decide (a.1 < b.1) || (a.1 == b.1 && decide (a.2 < b.2))

/-- The unit of lowest rank; of two with one rank, which only a fragment and a secondary slot of one ply can have, the one listed
first. DESIGN CHOICE (log entry 103). -/
def pickUnit (s : State) (last : Nat) : List (Nat × Nat) → Option (Nat × Nat)
  | [] => none
  | e :: es =>
    match pickUnit s last es with
    | none => some e
    | some f => if rankLt (issueRank s last f.1 f.2) (issueRank s last e.1 e.2) then some f else some e

/-- The ready units of a scheduler. -/
def readyUnits (s : State) (core sched : Nat) : List (Nat × Nat) :=
  (s.warps.filter (fun e => e.2.core == core && schedOf e.2 == sched && !e.2.ended && !e.2.stopped
      && (s.block e.2.blk).status == .resident)).flatMap
    (fun e => ((List.range e.2.arch.units.length).filter (fun u => unitReady s e.1 u)).map (fun u => (e.1, u)))

/-- The chosen unit has parked or is held in its bundle: the bundle has not issued whole, and the opportunity is that of the cc in
which it does (R189, R190). -/
def onlyWaits (t : State) : Bool := t.cur.status == .wait

/-- The ageing and stack counters after an opportunity of a warp that went to unit `u` (R189): the other units that were ready
before it and are still as they were rise, those that the issue made or merged start at 0, and the counters at their limit are
events. A ply has a stack counter while its stack is not empty: it starts at 0 again with the next entry. DEDUCED (log entry 104). -/
def ageWarp (q : State) (w u : Nat) (ready : List (Nat × Nat)) (t : State) : State :=
  let x := t.warp w
  let old := q.warp w
  let others := (ready.filter (fun e => e.1 == w && e.2 != u)).map (fun e => old.unit e.2)
  let waited (v : IUnit) : Bool := others.any (fun o => o.lanes == v.lanes && o.age == v.age)
  let issued (v : IUnit) : Bool := v.lanes &&& ((old.unit u).lanes ||| t.cur.lanes) != 0
  let bump (v : IUnit) : IUnit :=
    if issued v then { v with age := 0 } else if waited v && decide (v.age < 62) then { v with age := v.age + 1 } else v
  let full := (List.range x.arch.units.length).filter (fun k => !issued (x.unit k) && waited (x.unit k) && (x.unit k).age == 62)
  let plies := (List.range 8).filter (fun p => !(stackOf old.arch p).isEmpty && !(stackOf x.arch p).isEmpty)
  let turn := plies.filter (fun p => Sparse.get 0 x.stackCtr p == 63)
  let ctr := (List.range 8).foldl (fun m p =>
    Sparse.set 0 m p (if plies.contains p then min 63 (Sparse.get 0 m p + 1) else if (stackOf x.arch p).isEmpty then 0 else Sparse.get 0 m p))
    x.stackCtr
  let evs : List Action :=
    full.map (fun k => .event .ageingCounterSaturate { w := w, u := k }) ++ turn.map (fun p => .event .stackRotation { w := w, lane := p })
  { t.setWarp w { x with arch := { x.arch with units := x.arch.units.map bump }, stackCtr := ctr } with agenda := evs ++ t.agenda }

/-- A scheduler's clock has advanced by one cc. -/
def tickSched (s : State) (core sched : Nat) : State :=
  let k := s.core core
  { s.setCore core { k with cc := modAt k.cc sched (· + 1) } with free := s.free + 1 }

/-- The unit a scheduler issues in this cc. -/
def chosenUnit (s : State) (core sched : Nat) : Option (Nat × Nat) :=
  pickUnit s (((s.core core).last[sched]?).getD 47) (readyUnits s core sched)

/-- The choice noted: the slot served last, and a context that no longer waits as a whole (R241). -/
def noteChoice (s : State) (core sched w : Nat) : State :=
  let s1 := { s with waitSince := Sparse.erase (s.warp w).ctx.toNat s.waitSince }
  let k := s1.core core
  s1.setCore core { k with last := setAt k.last sched (s1.warp w).slot }

/-- After a unit's cc: units that a merge brought from a stack enter their headers, and the counters of R189 move if it issued. -/
def afterCc (q : State) (w u : Nat) (ready : List (Nat × Nat)) (t : State) : State :=
  let t1 := settleEntries entryFuel t w
  if onlyWaits t then t1 else ageWarp q w u ready t1

/-- The outcome with its next state changed. -/
def thenNext (r : Result) (f : State → State) : Result :=
  match r with
  | .next t => .next (f t)
  | .fault e => .fault e
  | .refused e => .refused e

/-- One cc of a scheduler: at most one bundle of one ready unit. -/
def cycle (s : State) (core sched : Nat) : Result :=
  let t := tickSched s core sched
  match chosenUnit t core sched with
  | none => .next t
  | some (w, u) =>
    let q := noteChoice t core sched w
    thenNext (issueUnit q w u) (afterCc q w u (readyUnits t core sched))

end Sys2Proof.Machine
end

