-- ==== Sys2Proof/Machine/Moves.lean ====
section
/-! DEFINITION. The moves that are no row of the table: a hart's next instruction, time passing, a token message from another
module, and caches without tokens that drop an entry. -/

namespace Sys2Proof.Machine

/-- The instruction word at a hart's pc. Its fetch is not ordered with stores, so it takes no token: the RISC-V instruction fetch is
outside the memory model that R221 names (log entry 7). -/
def hartWord (s : State) (h : Nat) : Nat :=
  match domainAddr s.sys (s.hart h).pc with
  | some da => leValue (coherentBytes s da 4)
  | none => 0

/-- A hart runs its next instruction: `gx.launch` or `gx.replay`, which stands at it until it retires. A reserved word of custom-0 raises
the hart's illegal-instruction exception (R232, R256); every other word is a RISC-V instruction. -/
def hartStep (s : State) (h : Nat) : Result :=
  if s.sys.span != .service || decide (64 ≤ h) then .next s
  else
    let w := hartWord s h
    match decodeHart w with
    | .ok i =>
      let s1 := { s.setHart h { s.hart h with illegal := none } with ev := { hart := h } }
      match exec i s1 with
      | .next t =>
        let k := t.hart h
        let waits := gxWaits s1 i
        .next (if k.illegal.isSome then t else t.setHart h { k with launching := waits, pc := if waits then k.pc else k.pc + 4 })
      | .fault r => .fault r
      | .refused r => .refused r
    | .error _ =>
      if w % 128 = 0x0B then .next (s.setHart h ((s.hart h).illegalAt (BitVec.ofNat 32 w)))
      else .refused .riscvInstruction

/-- An interrupt source that is pending is routed to the hart at a level (R338). -/
def interruptFor (s : State) (h : Nat) (machine : Bool) : Bool :=
  (List.range 11).any (fun k => s.sys.pending.getLsbD k && Sparse.get none s.sys.routes k == some (machine, h))

/-- The hart takes an external interrupt, as the RISC-V privileged architecture has it: of machine level, cause 11, or, delegated by
mideleg, of supervisor level, cause 9; each where mie enables it and the mode and its interrupt enable let it in (R338). The manual
names the RISC-V Advanced Interrupt Architecture and does not repeat it (PRESUMED, log entry 109). -/
def hartInterrupt (s : State) (h : Nat) : State :=
  let k := s.hart h
  let mie := k.csrAt 0x304
  let status := k.csrAt 0x300
  let put (t : Hart) : State := s.setHart h { t with launching := false, wait := none }
  if 64 ≤ h then s
  else if interruptFor s h true && bitOf mie 11 && (k.mode != .m || bitOf status 3) then put (k.enterM (2 ^ 63 + 11) 0)
  else if interruptFor s h false && bitOf mie 9 then
    if !bitOf (k.csrAt 0x303) 9 then (if k.mode != .m || bitOf status 3 then put (k.enterM (2 ^ 63 + 9) 0) else s)
    else if k.mode == .m || k.mode == .s && !bitOf status 1 then s
    else put (k.enterS (2 ^ 63 + 9) 0)
  else s

/-- A unit whose scalar slot waits for tokens goes on with its bundle, in the opportunity that began it (R275). -/
def resumeUnit (s : State) (w u : Nat) : Result :=
  let x := s.warp w
  if decide (u < x.arch.units.length) && (x.unit u).hold == .walk && !x.ended && !x.stopped
      && (s.block x.blk).status == .resident && unitReady s w u then thenNext (issueUnit s w u) (afterCc s w u [])
  else .next s

/-- The data of a read-only-shared sector reaches a waiting scalar slot from another module's home (R280). -/
def rosArrive (s : State) (w u : Nat) (r : SectorRead) : State :=
  let x := s.warp w
  if (x.unit u).hold == .walk && !isHomeOf s (homeAgent s.sys (sectorBase r.sec)) r.sec then
    { s.setWarp w (x.setUnit u (fun v => { v with latch := r :: v.latch.filter (fun e => e.sec != r.sec) })) with agenda := .resume w u :: s.agenda }
  else s

/-- Data of read-only-shared sectors reaches the launch unit and the walker from other modules' homes (R280): what waits for it is
carried out, and the data is kept no longer. -/
def rosHub (s : State) (l : List (Nat × SectorData × Bool)) : State :=
  let t := { s with tok := { s.tok with ros := l.filter (fun e => !isHomeOf s (homeAgent s.sys (sectorBase e.1)) e.1) } }
  if l.isEmpty then t else { t with agenda := retryLaunches t ++ .rosHub [] :: t.agenda }

/-- Time passes (R83). -/
def tickTime (s : State) (ns : Nat) : State :=
  let service := s.sys.span == .service
  watchMore (noteWaits { s with sys := { s.sys with auxTime := s.sys.auxTime + ns, time := if service then s.sys.time + ns else s.sys.time } })

/-- A token message arrives from another module (R270). PAC and PDA name the winner in SRC, which may be an agent of this module
(R271); no other message of an own agent comes from outside. -/
def arriveMsg (s : State) (m : Msg) : State :=
  if isOwnAgent s.sys m.src && m.type != 0x12 && m.type != 0x13 then s
  else if m.dst = 0x1FFF then
    { s with tok := { s.tok with flights := s.tok.flights ++ [⟨m, ownAgents s, m.poison, false⟩] } }
  else if isOwnAgent s.sys m.dst then
    { s with tok := { s.tok with flights := s.tok.flights ++ [⟨m, [m.dst], m.poison, false⟩] } }
  else s

/-- A first-level TLB drops an entry; its tokens stay with the second level (R250). -/
def dropTlbEntry (s : State) (core k : Nat) : State :=
  let c := s.core core
  s.setCore core { c with tlb := dropAt c.tlb k }

/-- A name cache drops an entry; the token of its sector goes back to the home unless another entry keeps it (R262, R267). -/
def dropNameEntry (s : State) (core k : Nat) : State :=
  let c := s.core core
  match c.names[k]? with
  | none => s
  | some e =>
    let t := s.setCore core { c with names := dropAt c.names k }
    if e.gone then t else returnResult t core e.sector

/-- The step is an event of the table, not an encoded instruction. -/
def isEvent : Instr → Bool
  | .auxPowerGood | .mainPowerGood | .mainPowerLoss | .auxPowerLoss | .residentOsReady | .warmResetApply
  | .fatalMachineCheck | .hostctlWrst | .readBbhead | .readBlackBoxRecord | .readRepairMapRecord
  | .readSectorMetadata | .writeInjectorWords | .requestWarmReset | .readModstat | .pldmSensorRead
  | .pldmFirmwareUpdate | .spdmMeasurement | .cxlMemWrite | .cxlMemRead | .clockAdjust | .registerWrite
  | .faultEntryFree | .fbstatDroppedClear | .interruptClaim | .namePortLook | .namePortLookHold | .namePortRelease
  | .namePortNew | .namePortDelete | .namePortCas | .injectorWrite | .injectorRelease | .linkTransmit | .linkResend
  | .linkLaneSwap | .linkRetrain | .patrolScrub | .blockDispatch | .preemptVictim | .preemptComplete
  | .gridCompletion | .donationStart | .donationEnd | .contextRemoval | .graphNodeStart | .graphNodeComplete
  | .headerWaitEnd | .ageingCounterSaturate | .stackRotation | .convergenceTrap | .regcacheFill | .loadDataReturn
  | .storePerformed | .postedWriteAck | .scratchpadRemoteReply | .feWaitComplete | .monwaitTimeout | .fenceComplete
  | .releaseQueryReply | .releaseQueryResend | .homeArrivalQuery | .barrierArrival | .checkpoint | .mmaStart
  | .mmaComplete | .batchComplete | .selfTestProduct | .auditReplay | .engineHandover | .engineSegmentStart
  | .engineCommandComplete | .engineChunkBoundary | .epktLocalCompletion | .packetReceive | .prop | .ack | .nak
  | .release | .commit | .done | .rds | .rdx | .tok | .tkd | .wbk | .prq | .pdq | .pac | .pda | .pnd | .cnq | .cnr
  | .rcr | .transientTimerExpiry | .eviction | .homePostedWrite | .persistentRequest5us | .censusStart
  | .censusRound2 | .discardEntryExpire | .censusDeferredStart | .blockStateError | .flashWriteComplete
  | .nameOpComplete | .remoteBankAccess | .hartMemoryAccess | .perstChange => true
  | _ => false

/-- The event runs in every span: power, resets, the side-band port and the host interface (R7, R336). -/
def worksAlways : Instr → Bool
  | .auxPowerGood | .mainPowerGood | .mainPowerLoss | .auxPowerLoss | .residentOsReady | .warmResetApply
  | .fatalMachineCheck | .hostctlWrst | .readBbhead | .readBlackBoxRecord | .readRepairMapRecord
  | .readSectorMetadata | .writeInjectorWords | .requestWarmReset | .readModstat | .pldmSensorRead
  | .pldmFirmwareUpdate | .spdmMeasurement | .cxlMemWrite | .cxlMemRead | .clockAdjust | .perstChange => true
  | _ => false

/-- The module's own parts work: in bring-up and service (R7). -/
def working (s : State) : Bool := s.sys.span == .service || s.sys.span == .bringUp

/-- The event may take place in the module's span: the module's own parts work in bring-up and service only (R7). -/
def mayHappen (s : State) (i : Instr) : Bool :=
  isEvent i && (worksAlways i || working s)

/-- One action. -/
def runAction (a : Action) (s : State) : Result :=
  match a with
  | .cycle core sched => if s.sys.span == .service then thenNext (cycle s core sched) watchMore else .next s
  | .event i e => if mayHappen s i then thenNext (exec i { s with ev := e }) watchMore else .next s
  | .hart h => hartStep s h
  | .tick ns => .next (tickTime s ns)
  | .arrive m => .next (arriveMsg s m)
  | .arrivePacket l p => .next (if working s then arrivePacket s l p else s)
  | .arriveRound type m => .next (if m.src = s.sys.modid then s else { s with roundMsgs := s.roundMsgs ++ [(type, m)] })
  | .arriveWrite w => .next (arriveWrite s w)
  | .engineMove k d p => .next (if working s then engineMove { s with ev := { data := d, flag := p } } k else s)
  | .walk w => .next (if working s then goOnWalk s w else s)
  | .resume w u => if s.sys.span == .service then thenNext (resumeUnit s w u) watchMore else .next s
  | .rosArrive w u sec d p => .next (if working s then rosArrive s w u ⟨sec, d, p, true⟩ else s)
  | .rosHub l => .next (if working s then rosHub s l else s)
  | .hartDrain h k => .next (if working s && decide (h < 64) then hartDrain s h k else s)
  | .linkRoom l pair bytes => .next (freeRoom s l pair bytes)
  | .upset u => .next (upset s u)
  | .hostRead config off => .next (hostRead s config off)
  | .hostRange base gib => .next (if working s then placeHostRange s base gib else s)
  | .route k m h => .next (if working s && decide (0 < k) && decide (k < 11) && decide (h < 64) then
      { s with sys := { s.sys with routes := Sparse.set none s.sys.routes k (some (m, h)) } } else s)
  | .hartInterrupt h => .next (if working s then hartInterrupt s h else s)
  | .dropL1 core line => .next (s.setCore core (l1Drop (s.core core) line))
  | .dropTlb core k => .next (dropTlbEntry s core k)
  | .dropName core k => .next (dropNameEntry s core k)
  | .linkAccepted l k => .next (linkDelivered s l k)

/-! ### Placing an instruction -/

/-- Where the placed code stands, virtual and physical. -/
def placedCode : Nat := 0x30000

/-- A header of one bundle without flags, every group live (R36). -/
def placedHeader : Nat := 0xF82001FE0001FE00

/-- Words stored little-endian. -/
def putWords (m : List Host.Cell) : List (Nat × Nat) → List Host.Cell
  | [] => m
  | (a, w) :: r => putWords (writeBytes m a (leSplit 8 w)) r

/-- The words that context 1 and its code take: its descriptor, two table entries that map the first GiB, and a block of
one bundle followed by another header. -/
def placedWords (word : Nat) : List (Nat × Nat) :=
  [(0x20, 0x10001), (0x28, 1), (0x10000, 0x20001), (0x20000, 0x1F), (placedCode, placedHeader), (placedCode + 8, word),
   (placedCode + 16, placedHeader)]

/-- The warp that runs the placed bundle: block 1, slot 0 of core 0, one ply of live lanes at the header. -/
def placedWarp : Warp :=
  let at0 : BlockPos := { hdr := placedCode, idx := 0, head := decodeHeader placedHeader, inst := 0 }
  { blk := 1, ctx := 1, arch := { live := 255, units := [{ lanes := 255, pos := at0 }] } }

/-- A state with a resident warp whose next bundle is `word`. -/
def placeBundle (s : State) (word : Nat) : State :=
  { s with
    mem := putWords s.mem (placedWords word)
    codeDirty := []
    warps := [(16, placedWarp)]
    blocks := [(1, { ctx := 1, code := placedCode, spAlloc := 65536 })]
    cores := Sparse.insert 0 { granules := ((List.range 8).map (8 * ·) ++ [64, 65, 80]).map (fun g => ⟨16, g, false⟩) } s.cores
    tok := {}
    sys := { s.sys with span := .service, ctxBase := 0 }
    agenda := [.cycle 0 0] }

/-- A state whose hart 0 reaches `word`. -/
def placeHart (s : State) (word : Nat) : State :=
  { s with
    mem := writeBytes s.mem placedCode (leSplit 4 word)
    harts := Sparse.insert 0 { pc := placedCode } s.harts
    tok := {}
    sys := { s.sys with span := .service, ctxBase := 0 }
    agenda := [.hart 0] }

end Sys2Proof.Machine
end

