-- ==== Sys2Proof/Machine/Step.lean ====
section
/-! DEFINITION. One step of the machine, and the placing of an instruction where the next step fetches it. -/

namespace Sys2Proof.Machine

/-- One step: the first action of the agenda, else the choice that is free. -/
def step (s : State) : Host.Outcome State Fault Refusal :=
  let s1 := { s with moves := s.moves + 1 }
  match s.agenda with
  | a :: rest => runAction a { s1 with agenda := rest }
  | [] => runAction (chooseAction s.moves) s1

/-- The state with an opcode-table instruction stored where the next step fetches it: a 32-bit row at a hart's pc, a 24-bit
row in the scalar slot of a bundle of its own, anything else as a whole code word. -/
def State.withFetchWord (s : State) (nbits w : Nat) : State :=
  if nbits = 32 then placeHart s w else placeBundle s (if nbits = 24 then tableBundle w else w)

end Sys2Proof.Machine
end

