-- ==== Sys2Proof/Safety.lean ====
section
/-! DEFINITION. What counts as a safe run: runs of any length that neither fault nor refuse, states that a run reaches, and
the invariant of the canonical memory form. -/

namespace Sys2Proof

open Machine

/-- One step leads from a state to another. -/
def Steps (s t : State) : Prop := step s = .next t

/-- A run leads from a state to another. -/
inductive Reaches : State → State → Prop where
  | refl (s : State) : Reaches s s
  | tail {s t u : State} : Reaches s t → Steps t u → Reaches s u

/-- A state from which no run faults or is refused. -/
def SafeFrom (s : State) : Prop := ∀ t, Reaches s t → ∃ u, Steps t u

/-- Memory is in its canonical form. -/
def MemoryCanonical (s : State) : Prop := Memory.wf s.mem

/-- The byte of a module's memory at its home. -/
def homeByte (s : State) (pa : Nat) : Byte := readByte s.mem pa

/-- Nothing of the module but one warp's registers, flags and units, and the issue under way, differs. -/
def SameButWarp (w : Nat) (s t : State) : Prop :=
  t = { s with warps := t.warps, cur := t.cur } ∧ (∀ v, v ≠ w → t.warp v = s.warp v)
    ∧ t.warp w = { s.warp w with arch := (t.warp w).arch }

end Sys2Proof
end

