-- ==== Sys2Proof/Certificates/Slice0/ClaimTables.lean ====
section
/-! DEFINITION. What the rules say of the register instructions, read from their tables as plain functions of the operands, and
the frames that the statements use. -/

namespace Sys2Proof.Claim

open Machine

/-! ### Frames -/

/-- Only the register state of the issuing warp differs. -/
def OnlyArch (s t : State) : Prop :=
  t = { s with warps := t.warps } ∧ (∀ v, v ≠ s.cur.w → t.warp v = s.warp v) ∧ t.cw = { s.cw with arch := t.arch }

/-- Only scalar register `d` of the issuing warp differs. -/
def OnlyScalar (s t : State) (d : Nat) : Prop :=
  OnlyArch s t ∧ t.arch = { s.arch with sregs := t.arch.sregs } ∧ ∀ r, r ≠ d → t.sreg r = s.sreg r

/-- Only vector registers d to d + n - 1 differ, in the lanes that the issue writes, and NSTAT only gains bits (R66, R79, R80). -/
def OnlyVector (s t : State) (d n : Nat) : Prop :=
  OnlyArch s t ∧ t.arch = { s.arch with vregs := t.arch.vregs, nstat := t.arch.nstat }
    ∧ s.arch.nstat &&& t.arch.nstat = s.arch.nstat
    ∧ ∀ r l, l < 64 → ¬ (d ≤ r ∧ r < d + n ∧ hasLane s.written l = true) → t.vreg r l = s.vreg r l

/-- One result in each written lane of register `d`, the flags of those lanes joining NSTAT, and nothing else. -/
def WritesLanes (s t : State) (d : Nat) (f : Nat → W32 × NumFlags) : Prop :=
  OnlyVector s t d 1 ∧ (∀ l, hasLane s.written l = true → t.vreg d l = (f l).1)
    ∧ ∀ k, t.arch.nstat.getLsbD k = true
        ↔ s.arch.nstat.getLsbD k = true ∨ ∃ l, hasLane s.written l = true ∧ (f l).2.getLsbD k = true

/-- Only predicate `p` differs, in the lanes that the issue writes. -/
def OnlyPred (s t : State) (p : Nat) : Prop :=
  OnlyArch s t ∧ t.arch = { s.arch with preds := t.arch.preds } ∧ (∀ k, k ≠ p → t.pred k = s.pred k)
    ∧ ∀ l, hasLane s.written l = false → hasLane (t.pred p) l = hasLane (s.pred p) l

/-! ### Scalar integers (R81, R82) -/

/-- Shifts by an amount: 0, or every bit the sign, from 64 up. -/
def shlBy (a : W64) (n : Nat) : W64 := if 64 ≤ n then 0 else a <<< n
def shrBy (a : W64) (n : Nat) : W64 := if 64 ≤ n then 0 else a >>> n
def sarBy (a : W64) (n : Nat) : W64 := if 64 ≤ n then (if a.getLsbD 63 then BitVec.allOnes 64 else 0) else a.sshiftRight n

/-- 1 or 0. -/
def bit (b : Bool) : W64 := if b then 1 else 0

/-- The destination and the result of a scalar integer instruction. -/
def scalarResult (i : Instr) : Option (BitVec 6 × (State → W64)) :=
  let two (d a b : BitVec 6) (f : W64 → W64 → W64) : Option (BitVec 6 × (State → W64)) :=
    some (d, fun s => f (s.sreg a.toNat) (s.sreg b.toNat))
  let imm (d a : BitVec 6) (f : W64 → W64) : Option (BitVec 6 × (State → W64)) := some (d, fun s => f (s.sreg a.toNat))
  match i with
  | .sadd d a b => two d a b (· + ·)
  | .ssub d a b => two d a b (· - ·)
  | .smul d a b => two d a b (· * ·)
  | .smulh d a b => two d a b (fun x y => (x.signExtend 128 * y.signExtend 128).extractLsb' 64 64)
  | .sand d a b => two d a b (· &&& ·)
  | .sor d a b => two d a b (· ||| ·)
  | .sxor d a b => two d a b (· ^^^ ·)
  | .sshl d a b => two d a b (fun x y => shlBy x (y.extractLsb' 0 8).toNat)
  | .sshr d a b => two d a b (fun x y => shrBy x (y.extractLsb' 0 8).toNat)
  | .ssar d a b => two d a b (fun x y => sarBy x (y.extractLsb' 0 8).toNat)
  | .smin d a b => two d a b (fun x y => if x.toInt ≤ y.toInt then x else y)
  | .smax d a b => two d a b (fun x y => if y.toInt ≤ x.toInt then x else y)
  | .sslt d a b => two d a b (fun x y => bit (decide (x.toInt < y.toInt)))
  | .sminn d a b => two d a b (fun x y => if x.toNat ≤ y.toNat then x else y)
  | .smaxn d a b => two d a b (fun x y => if y.toNat ≤ x.toNat then x else y)
  | .ssltn d a b => two d a b (fun x y => bit (decide (x.toNat < y.toNat)))
  | .saddSi d a i => imm d a (fun x => x + i.signExtend 64)
  | .sandSi d a i => imm d a (fun x => x &&& i.signExtend 64)
  | .sorSi d a i => imm d a (fun x => x ||| i.signExtend 64)
  | .sxorSi d a i => imm d a (fun x => x ^^^ i.signExtend 64)
  | .sshlSi d a i => imm d a (fun x => shlBy x i.toNat)
  | .sshrSi d a i => imm d a (fun x => shrBy x i.toNat)
  | .ssarSi d a i => imm d a (fun x => sarBy x i.toNat)
  | .ssltSi d a i => imm d a (fun x => bit (decide (x.toInt < i.toInt)))
  | .sli d i => some (d, fun _ => BitVec.ofInt 64 i.toInt)
  | .slsh d i => imm d d (fun x => x * 4096 ||| i.setWidth 64)
  | _ => none

/-! ### Vector integers (R80, R85 to R89, R93) -/

/-- fit of R80: an exact integer clamped to the type, or taken modulo 2^32; and whether NSTAT.SAT is raised. -/
def fitted (m : BitVec 2) (x : Int) : W32 × Bool :=
  let lo : Int := if m.getLsbD 0 then 0 else -2147483648
  let hi : Int := if m.getLsbD 0 then 4294967295 else 2147483647
  if m.getLsbD 1 = true ∧ x < lo then (BitVec.ofInt 32 lo, true)
  else if m.getLsbD 1 = true ∧ hi < x then (BitVec.ofInt 32 hi, true)
  else (BitVec.ofInt 32 x, false)

/-- A lane value as m[0] reads it. -/
def value (m : BitVec 2) (v : W32) : Int := if m.getLsbD 0 then (v.toNat : Int) else v.toInt

/-- Shifts by b[7:0]. -/
def shl32 (a b : W32) : W32 := if 32 ≤ b.toNat % 256 then 0 else a <<< (b.toNat % 256)
def shr32 (a b : W32) : W32 := if 32 ≤ b.toNat % 256 then 0 else a >>> (b.toNat % 256)
def sar32 (a b : W32) : W32 :=
  if 32 ≤ b.toNat % 256 then (if a.getLsbD 31 then BitVec.allOnes 32 else 0) else a.sshiftRight (b.toNat % 256)

/-- |a − b|. -/
def absDiff (x y : Int) : Int := if x < y then y - x else x - y

/-- Byte j as m[0] reads it. -/
def byteValue (m : BitVec 2) (v : W32) (j : Nat) : Int :=
  let b : BitVec 8 := v.extractLsb' (8 * j) 8
  if m.getLsbD 0 then (b.toNat : Int) else b.toInt

/-- Bits pos to pos + len − 1 of a word replaced by the low bits of another. -/
def insertBits (old new : W32) (pos len : Nat) : W32 :=
  BitVec.ofNat 32 ((List.range 32).foldl (fun acc k =>
    acc + boolNat (if pos ≤ k ∧ k < pos + len then new.getLsbD (k - pos) else old.getLsbD k) * 2 ^ k) 0)

/-- The immediate of form VI (R86). -/
def immOf (m : BitVec 2) (b : BitVec 8) : W32 := if m.getLsbD 0 then b.setWidth 32 else BitVec.ofInt 32 b.toInt

/-- An operation of two lane values with m. -/
abbrev LaneOp := BitVec 2 → W32 → W32 → W32 × Bool

def plain (f : W32 → W32 → W32) : LaneOp := fun _ a b => (f a b, false)
def exactly (f : Int → Int → Int) : LaneOp := fun m a b => fitted m (f (value m a) (value m b))
def lesser : LaneOp := fun m a b => (if value m a ≤ value m b then a else b, false)
def greater : LaneOp := fun m a b => (if value m b ≤ value m a then a else b, false)

/-- The destination and the lane results of a vector integer instruction: the value, and whether NSTAT.SAT is raised. -/
def vectorResult (i : Instr) : Option (BitVec 8 × (State → Nat → W32 × Bool)) :=
  let reg (o : V3Op) (f : LaneOp) : Option (BitVec 8 × (State → Nat → W32 × Bool)) :=
    some (o.d, fun s l => f o.m (s.vreg o.a.toNat l) (s.vreg o.b.toNat l))
  let imm (o : V3Op) (unsigned : Bool) (f : LaneOp) : Option (BitVec 8 × (State → Nat → W32 × Bool)) :=
    some (o.d, fun s l => f o.m (s.vreg o.a.toNat l) (if unsigned then o.b.setWidth 32 else immOf o.m o.b))
  let sca (o : V3Op) (f : LaneOp) : Option (BitVec 8 × (State → Nat → W32 × Bool)) :=
    some (o.d, fun s l => f o.m (s.vreg o.a.toNat l) ((s.sreg o.b.toNat).extractLsb' 0 32))
  let one (d a : BitVec 8) (f : W32 → W32) : Option (BitVec 8 × (State → Nat → W32 × Bool)) :=
    some (d, fun s l => (f (s.vreg a.toNat l), false))
  match i with
  | .vadd o => reg o (exactly (· + ·))
  | .vsub o => reg o (exactly (· - ·))
  | .vmul o => reg o (exactly (· * ·))
  | .vmulh o => reg o (fun m a b => (BitVec.ofInt 32 (value m a * value m b / 4294967296), false))
  | .vmin o => reg o lesser
  | .vmax o => reg o greater
  | .vabs o => reg o (exactly absDiff)
  | .vneg o => reg o (fun m a b => if b.getLsbD 31 then fitted m (-a.toInt) else (a, false))
  | .vmad o => some (o.d, fun s l => fitted o.m (value o.m (s.vreg o.d.toNat l)
      + value o.m (s.vreg o.a.toNat l) * value o.m (s.vreg o.b.toNat l)))
  | .vsad o => some (o.d, fun s l =>
      let a := s.vreg o.a.toNat l
      let b := s.vreg o.b.toNat l
      let d (j : Nat) : Int := absDiff (byteValue o.m a j) (byteValue o.m b j)
      fitted o.m (value o.m (s.vreg o.d.toNat l) + (d 0 + d 1 + d 2 + d 3)))
  | .vand o => reg o (plain (· &&& ·))
  | .vor o => reg o (plain (· ||| ·))
  | .vxor o => reg o (plain (· ^^^ ·))
  | .vnot d a => one d a (fun x => ~~~x)
  | .vandn o => reg o (plain (fun x y => x &&& ~~~y))
  | .vshl o => reg o (plain shl32)
  | .vshr o => reg o (plain shr32)
  | .vsar o => reg o (plain sar32)
  | .vrot o => reg o (plain (fun x y => x.rotateLeft (y.toNat % 32)))
  | .vclz d a => one d a (fun x => if x = 0 then 32 else BitVec.ofNat 32 (31 - x.toNat.log2))
  | .vpopc d a => one d a (fun x => BitVec.ofNat 32 ((List.range 32).countP (fun k => x.getLsbD k)))
  | .vbrev d a => one d a (fun x => BitVec.ofNat 32 ((List.range 32).foldl (fun acc k => acc + boolNat (x.getLsbD (31 - k)) * 2 ^ k) 0))
  | .vbfx d a pos lenm1 u => one d a (fun x =>
      let f : BitVec (lenm1.toNat + 1) := x.extractLsb' pos.toNat (lenm1.toNat + 1)
      if u then f.setWidth 32 else f.signExtend 32)
  | .vbfi d a pos lenm1 => some (d, fun s l => (insertBits (s.vreg d.toNat l) (s.vreg a.toNat l) pos.toNat (lenm1.toNat + 1), false))
  | .vsxt d a w => one d a (fun x => (x.setWidth w.toNat).signExtend 32)
  | .vzxt d a w => one d a (fun x => (x.setWidth w.toNat).setWidth 32)
  | .vaddVi o => imm o false (exactly (· + ·))
  | .vmulVi o => imm o false (exactly (· * ·))
  | .vandVi o => imm o false (plain (· &&& ·))
  | .vorVi o => imm o false (plain (· ||| ·))
  | .vxorVi o => imm o false (plain (· ^^^ ·))
  | .vshlVi o => imm o true (plain shl32)
  | .vshrVi o => imm o true (plain shr32)
  | .vsarVi o => imm o true (plain sar32)
  | .vminVi o => imm o false lesser
  | .vmaxVi o => imm o false greater
  | .vli d i m => some (d, fun _ _ => (immOf m i, false))
  | .vaddVs o => sca o (exactly (· + ·))
  | .vsubVs o => sca o (exactly (· - ·))
  | .vmulVs o => sca o (exactly (· * ·))
  | .vandVs o => sca o (plain (· &&& ·))
  | .vorVs o => sca o (plain (· ||| ·))
  | .vxorVs o => sca o (plain (· ^^^ ·))
  | .vshlVs o => sca o (plain shl32)
  | .vshrVs o => sca o (plain shr32)
  | .vsarVs o => sca o (plain sar32)
  | .vminVs o => sca o lesser
  | .vmaxVs o => sca o greater
  | .vbcast d r => some (d, fun s _ => ((s.sreg r.toNat).extractLsb' 0 32, false))
  | .vbcasth d r => some (d, fun s _ => ((s.sreg r.toNat).extractLsb' 32 32, false))
  | .vptov d p => some (d, fun s l => (if hasLane (s.pred p.toNat) l then 1 else 0, false))
  | .vsel d a b p inv => some (d, fun s l =>
      (if hasLane (s.pred p.toNat) l != inv then s.vreg a.toNat l else s.vreg b.toNat l, false))
  | .vmov d a => one d a id
  | .vlea o => some (o.d, fun s l => fitted o.m (value o.m (s.vreg o.a.toNat l) + (l : Int) * value o.m (s.vreg o.b.toNat l)))
  | _ => none

/-! ### Predicates (R90 to R93) -/

/-- The relation of a CMP condition. -/
def relation (m : BitVec 2) (cond : BitVec 4) (a b : W32) : Bool :=
  match cond.toNat with
  | 0 => decide (a = b)
  | 1 => decide (a ≠ b)
  | 2 => decide (value m a < value m b)
  | 3 => decide (value m a ≤ value m b)
  | 4 => decide (value m b < value m a)
  | 5 => decide (value m b ≤ value m a)
  | 6 => decide (a &&& b ≠ 0)
  | _ => decide (a &&& b = 0)

/-- The relation of an FCMP condition over FP32 values (R91). -/
def floatRelation (cond : BitVec 4) (a b : W32) : Bool :=
  let x := fmtFP32.decode a.toNat
  let y := fmtFP32.decode b.toNat
  let unordered := x.isNan || y.isNan
  match cond.toNat with
  | 0 => !unordered && fEq x y
  | 1 => unordered || !fEq x y
  | 2 => !unordered && fLt x y
  | 3 => !unordered && (fLt x y || fEq x y)
  | 4 => !unordered && fLt y x
  | 5 => !unordered && (fLt y x || fEq x y)
  | 6 => unordered
  | _ => !unordered

/-- The destination and the lane results of an instruction that writes a predicate. -/
def predResult (i : Instr) : Option (BitVec 4 × (State → Nat → Bool)) :=
  let logic (o : VqOp) (f : Bool → Bool → Bool) : Option (BitVec 4 × (State → Nat → Bool)) :=
    some (o.pd, fun s l => f (hasLane (s.pred o.pa.toNat) l != o.na) (hasLane (s.pred o.pb.toNat) l != o.nb))
  match i with
  | .vcmp o => some (o.pd, fun s l => relation o.m o.cond (s.vreg o.a.toNat l) (s.vreg o.b.toNat l))
  | .vcmpVi o => some (o.pd, fun s l => relation o.m o.cond (s.vreg o.a.toNat l) (immOf o.m o.b))
  | .vcmpVs o => some (o.pd, fun s l => relation o.m o.cond (s.vreg o.a.toNat l) ((s.sreg o.b.toNat).extractLsb' 0 32))
  | .vfcmp o => some (o.pd, fun s l => floatRelation o.cond (s.vreg o.a.toNat l) (s.vreg o.b.toNat l))
  | .vpand o => logic o (· && ·)
  | .vpor o => logic o (· || ·)
  | .vpxor o => logic o (fun a b => a != b)
  | .vpnot pd pa na => some (pd, fun s l => hasLane (s.pred pa.toNat) l == na)
  | .vptst pd a => some (pd, fun s l => decide (s.vreg a.toNat l ≠ 0))
  | _ => none

/-! ### Floating point (R98 to R101) -/

/-- An operation of one format: the rounding toward zero or not, the old vd, va and vb as encodings; the result, and the
flags. -/
abbrev FloatOp := FloatFmt → Bool → Nat → Nat → Nat → Nat × NumFlags

/-- The lane result that m selects (R98): one FP32 value, or two 16-bit values computed independently. -/
def perElement (m : BitVec 2) (op : FloatOp) (c a b : W32) : W32 × NumFlags :=
  if m.toNat < 2 then
    let r := op fmtFP32 (m == 1) c.toNat a.toNat b.toNat
    (BitVec.ofNat 32 r.1, r.2)
  else
    let fmt := if m = 2 then fmtFP16 else fmtBF16
    let half (k : Nat) : Nat × NumFlags :=
      op fmt false (c.extractLsb' (16 * k) 16).toNat (a.extractLsb' (16 * k) 16).toNat (b.extractLsb' (16 * k) 16).toNat
    (BitVec.ofNat 16 (half 1).1 ++ BitVec.ofNat 16 (half 0).1, (half 0).2 ||| (half 1).2)

/-- The destination and the lane results of a floating-point instruction, with the NSTAT flags each lane raises. -/
def floatResult (i : Instr) : Option (BitVec 8 × (State → Nat → W32 × NumFlags)) :=
  let three (o : V3Op) (op : FloatOp) : Option (BitVec 8 × (State → Nat → W32 × NumFlags)) :=
    some (o.d, fun s l => perElement o.m op (s.vreg o.d.toNat l) (s.vreg o.a.toNat l) (s.vreg o.b.toNat l))
  let one (o : V2Op) (op : FloatFmt → Bool → Nat → Nat × NumFlags) : Option (BitVec 8 × (State → Nat → W32 × NumFlags)) :=
    some (o.d, fun s l => perElement o.m (fun f z _ a _ => op f z a) 0 (s.vreg o.a.toNat l) 0)
  match i with
  | .vfadd o => three o (fun f z _ a b => roundFlagged f z (fAdd (f.decode a) (f.decode b)))
  | .vfsub o => three o (fun f z _ a b => roundFlagged f z (fSub (f.decode a) (f.decode b)))
  | .vfmul o => three o (fun f z _ a b => roundFlagged f z (fMul (f.decode a) (f.decode b)))
  | .vfma o => three o (fun f z c a b => roundFlagged f z (fMulAdd (f.decode c) (f.decode a) (f.decode b)))
  | .vfmin o => three o (fun f _ _ a b => (fMinMax f true a b, 0))
  | .vfmax o => three o (fun f _ _ a b => (fMinMax f false a b, 0))
  | .vfabs o => one o (fun f _ a => (if (f.decode a).isNan then f.canonicalNan else a % 2 ^ (f.e + f.m), 0))
  | .vfneg o => one o (fun f _ a =>
      (if (f.decode a).isNan then f.canonicalNan else Nat.xor a (2 ^ (f.e + f.m)), 0))
  | .vfrcp o => one o (fun f _ a => fRcp f (f.decode a))
  | .vfrsq o => one o (fun f _ a => fRsq f (f.decode a))
  | .vfsqrt o => one o (fun f z a => fSqrt f z (f.decode a))
  | .vfexp2 o => one o (fun f _ a => fExp2 f a)
  | .vflog2 o => one o (fun f _ a => fLog2 f a)
  | _ => none

/-! ### Special registers (R83, R94) -/

/-- The number of active lanes of the issue. -/
def activeCount (s : State) : Nat := (List.range 64).countP (hasLane s.cur.lanes)

/-- The value of a selector of the scalar GETS; 0 for a reserved one. -/
def scalarSpecialValue (s : State) (sel : Nat) : W64 :=
  match sel with
  | 0 => BitVec.ofNat 64 s.cw.idx
  | 1 => BitVec.ofNat 64 s.cblk.idx
  | 2 => BitVec.ofNat 64 s.cw.core
  | 3 => BitVec.ofNat 64 (s.cw.core / 4)
  | 4 => s.cblk.dbase
  | 5 => BitVec.ofNat 64 (activeCount s)
  | 6 => s.cur.lanes
  | 7 => BitVec.ofNat 64 s.cw.nply
  | 8 => BitVec.ofNat 64 s.sys.time
  | 32 => s.arch.nstat
  | _ => 0

/-- The value of a selector of the vector GETS in a lane; 0 for a reserved one. -/
def vectorSpecialValue (s : State) (sel l : Nat) : W32 :=
  match sel with
  | 0 => BitVec.ofNat 32 l
  | 1 => BitVec.ofNat 32 (l / 4)
  | 2 => BitVec.ofNat 32 (l / 8)
  | 3 => BitVec.ofNat 32 (activeCount s)
  | 4 => BitVec.ofNat 32 s.cw.idx
  | 5 => BitVec.ofNat 32 s.cblk.idx
  | 6 => BitVec.ofNat 32 s.cw.core
  | 7 => BitVec.ofNat 32 (s.cw.core / 4)
  | _ => 0

/-! ### Conversions (R95, R102) -/

/-- The element index that R95 forms from a type's elements per lane. -/
def elementIndex (x : CvtX) (epl n j : Nat) : Nat := if n < epl then x.elem.toNat * n + j else j

/-- What element `e` of the destination becomes: the conversion of the source element that R95 pairs with it, or its old
value. -/
def convertedElement (x : CvtX) (src old e : Nat) : Nat :=
  let n := min (elemsPerLane x.st) (elemsPerLane x.dt)
  match (List.range n).find? (fun j => elementIndex x (elemsPerLane x.dt) n j == e) with
  | some j => (convertElement x.dt x.st x.sat x.rtz (laneElement x.st src (elementIndex x (elemsPerLane x.st) n j))).1
      % 2 ^ typeBits x.dt
  | none => laneElement x.dt old e

/-- The NSTAT flags that a lane's conversions raise: those of the source elements that have a destination element. -/
def conversionFlag (x : CvtX) (src k : Nat) : Prop :=
  let n := min (elemsPerLane x.st) (elemsPerLane x.dt)
  ∃ j, j < n ∧ elementIndex x (elemsPerLane x.dt) n j < elemsPerLane x.dt
    ∧ (convertElement x.dt x.st x.sat x.rtz (laneElement x.st src (elementIndex x (elemsPerLane x.st) n j))).2.getLsbD k = true

/-- The registers that an element type takes: two for a 64-bit type. -/
def typeRegCount (t : BitVec 4) : Nat := if typeBits t = 64 then 2 else 1

/-- A conversion's effect: each element of vd in the written lanes is its conversion or its old value, the bits above the last
element are 0 (R59), NSTAT gains the flags of the elements converted, and nothing else differs. -/
def Converted (s t : State) (d a : BitVec 8) (x : CvtX) : Prop :=
  OnlyVector s t d.toNat (typeRegCount x.dt)
    ∧ (∀ l, hasLane s.written l = true →
        (∀ e, e < elemsPerLane x.dt →
            laneElement x.dt (typeValue t x.dt d.toNat l) e
              = convertedElement x (typeValue s x.st a.toNat l) (typeValue s x.dt d.toNat l) e)
          ∧ typeValue t x.dt d.toNat l < 2 ^ (elemsPerLane x.dt * typeBits x.dt))
    ∧ ∀ k, t.arch.nstat.getLsbD k = true
        ↔ s.arch.nstat.getLsbD k = true ∨ ∃ l, hasLane s.written l = true ∧ conversionFlag x (typeValue s x.st a.toNat l) k

/-- Bit `k` of elements that PACK or UNPK moves, given the bits found: raw bits, but the reserved code 10 of T2 moves as 00
(R57, R96). -/
def movedBit (ty : BitVec 4) (v : Nat → Bool) (k : Nat) : Bool := if ty = 7 ∧ k % 2 = 1 then v k && v (k - 1) else v k

/-- The reserved code of T2 stands among 16 codes. -/
def reservedCode (ty : BitVec 4) (v : Nat → Bool) : Prop := ty = 7 ∧ ∃ j, j < 16 ∧ v (2 * j + 1) = true ∧ v (2 * j) = false

/-- NSTAT gains TRES where a written lane moves a reserved code, and nothing else. -/
def TresJoined (s t : State) (ty : BitVec 4) (v : Nat → Nat → Bool) : Prop :=
  ∀ k, t.arch.nstat.getLsbD k = true
    ↔ s.arch.nstat.getLsbD k = true ∨ (k = 3 ∧ ∃ l, hasLane s.written l = true ∧ reservedCode ty (v l))

/-! ### Lanes of a cross-lane issue (R103 to R111) -/

/-- The issue under way is one that the scheduler forms: the guard passes in active lanes only, the helpers are those of
R103, and every lane lies in a declared ply. -/
def ProperIssue (s : State) : Prop :=
  s.cur.guard &&& s.cur.lanes = s.cur.guard ∧ s.cur.helpers = helpersOf s.arch s.cur.lanes ∧ 0 < s.cw.nply ∧ s.cw.nply ≤ 8
    ∧ ∀ l, hasLane s.cur.lanes l = true → l < 8 * s.cw.nply

/-- The group of a lane (R104): its first lane, its lane count, and which lanes are in the domain. -/
def groupOf (s : State) (width : Option (BitVec 4)) (l : Nat) : Nat × Nat × (Nat → Bool) :=
  let k := (width.getD 0).toNat
  if k = 0 then (0, 8 * s.cw.nply, fun j => hasLane (s.cur.lanes ||| s.cur.helpers) j)
  else
    let n := min k s.cw.nply
    let g := l / 8 / n
    let size := min n (s.cw.nply - g * n)
    (8 * (g * n), 8 * size, fun j => decide (8 * (g * n) ≤ j ∧ j < 8 * (g * n) + 8 * size))

/-- The destination, the source register, the width and the lane a lane reads from, of the exchanges and shuffles (R107);
the lane is given by the group's first lane, its count and the lane's own number, none where R107 calls it invalid. -/
def sourceLane (i : Instr) :
    Option (BitVec 8 × BitVec 8 × Option (BitVec 4) × (State → Nat → Nat → Nat → Option Nat)) :=
  let within (gb g : Nat) (j : Nat) : Option Nat := if j < g then some (gb + j) else none
  match i with
  | .vqxch d a b w => some (d, a, w, fun _ _ _ l =>
      some (match b.toNat with
        | 0 => if l % 2 = 0 then l + 1 else l - 1
        | 1 => if l % 4 < 2 then l + 2 else l - 2
        | 2 => l / 4 * 4 + (3 - l % 4)
        | n => l / 4 * 4 + (n - 3)))
  | .vshfl d a b w => some (d, a, w, fun s gb g l => within gb g (s.vreg b.toNat l).toNat)
  | .vshflVi d a b w => some (d, a, w, fun _ gb g _ => within gb g b.toNat)
  | .vshflVs d a b w => some (d, a, w, fun s gb g _ => within gb g ((s.sreg b.toNat).extractLsb' 0 32).toNat)
  | .vshflup d a b w => some (d, a, w, fun _ gb _ l => if gb + b.toNat ≤ l then some (l - b.toNat) else none)
  | .vshfldn d a b w => some (d, a, w, fun _ gb g l => if l + b.toNat < gb + g then some (l + b.toNat) else none)
  | .vshflx d a b w => some (d, a, w, fun _ gb g l => within gb g (Nat.xor (l - gb) b.toNat))
  | _ => none

/-- The lane that is read: an invalid source yields the reading lane itself (R106). -/
def readLane (inDomain : Nat → Bool) (src : Option Nat) (l : Nat) : Nat :=
  match src with
  | some j => if inDomain j then j else l
  | none => l

/-- The participants of a lane's domain: the active lanes where the guard passes (R108). -/
def participant (s : State) (width : Option (BitVec 4)) (l j : Nat) : Bool :=
  (groupOf s width l).2.2 j && hasLane s.cur.guard j

/-- The participants of a lane's domain in increasing order. -/
def participantList (s : State) (width : Option (BitVec 4)) (l : Nat) : List Nat :=
  (List.range 64).filter (participant s width l)

/-- The source of a vote or ballot in a lane. -/
def ballotBit (s : State) (p : BitVec 4) (inv : Bool) (j : Nat) : Bool := hasLane (s.pred p.toNat) j != inv

/-- A vote (R109). -/
def voteValue (cond : BitVec 4) (src : List Bool) : Bool :=
  match cond.toNat with
  | 0 => src.any id
  | 1 => src.all id
  | 2 => src.all id || src.all (!·)
  | _ => src.all (!·)

/-- One step of a reduction (R111). -/
def wredOf (op : BitVec 4) (x y : W32) : W32 × NumFlags :=
  match op.toNat with
  | 0 => (x + y, 0)
  | 1 => let r := fitted 2 (x.toInt + y.toInt); (r.1, if r.2 then nfSat else 0)
  | 2 => let r := fitted 3 ((x.toNat : Int) + y.toNat); (r.1, if r.2 then nfSat else 0)
  | 3 => (if x.toInt ≤ y.toInt then x else y, 0)
  | 4 => (if x.toInt ≤ y.toInt then y else x, 0)
  | 5 => (if x.toNat ≤ y.toNat then x else y, 0)
  | 6 => (if x.toNat ≤ y.toNat then y else x, 0)
  | 7 => (x &&& y, 0)
  | 8 => (x ||| y, 0)
  | 9 => (x ^^^ y, 0)
  | 10 => let r := roundFlagged fmtFP32 false (fAdd (fmtFP32.decode x.toNat) (fmtFP32.decode y.toNat)); (BitVec.ofNat 32 r.1, r.2)
  | 11 => (BitVec.ofNat 32 (fMinMax fmtFP32 true x.toNat y.toNat), 0)
  | _ => (BitVec.ofNat 32 (fMinMax fmtFP32 false x.toNat y.toNat), 0)

/-- acc of R111 after a list of values, with the flags raised. -/
def accOf (op : BitVec 4) : List W32 → W32 × NumFlags
  | [] => (0, 0)
  | v :: vs => vs.foldl (fun r y => let e := wredOf op r.1 y; (e.1, r.2 ||| e.2)) (v, 0)

end Sys2Proof.Claim
end

