-- ==== Sys2Proof/Certificates/Slice0/ClaimAccess.lean ====
section
/-! DEFINITION. What the rules say of the memory instructions as a slot hands them out, and of taking a trap, as plain
functions of the operands, with the frames that the statements use. -/

namespace Sys2Proof.Claim

open Machine

/-! ### What an issue leaves alone -/

/-- Memory at its homes, scratchpads, full/empty bits, harts, names and the system logic are as before, every other warp is,
and the issuing warp keeps its scalar registers, predicates, tiles, formats, NSTAT, flags, units, stacks and splits. -/
def IssueFrame (s t : State) : Prop :=
  (∀ a, homeByte t a = homeByte s a)
    ∧ (∀ b, (t.block b).sp = (s.block b).sp ∧ (t.block b).full = (s.block b).full)
    ∧ t.harts = s.harts ∧ t.names = s.names ∧ t.sys = s.sys ∧ t.free = s.free
    ∧ (∀ v, v ≠ s.cur.w → t.warp v = s.warp v)
    ∧ t.arch = { s.arch with vregs := t.arch.vregs, insts := t.arch.insts }

/-- The vector registers are as before but for registers d to d + n - 1 in helper lanes. -/
def OnlyHelpers (s t : State) (d n : Nat) : Prop :=
  ∀ r l, l < 64 → ¬ (d ≤ r ∧ r < d + n ∧ hasLane s.cur.helpers l = true) → t.vreg r l = s.vreg r l

/-- The outstanding accesses without their stage: a posted write may leave at once. -/
def unstaged (cs : List Access) : List Access := cs.map (fun c => { c with stage := .waiting })

/-! ### Vector accesses (R113, R118 to R128) -/

/-- The address of a lane: sN + sign-extend(va) + OFFSET × size, modulo 2^64 (R113). -/
def laneAddr (s : State) (base : BitVec 6) (a : BitVec 8) (off : Int) (l : Nat) : W64 :=
  s.sreg base.toNat + (s.vreg a.toNat l).signExtend 64 + BitVec.ofInt 64 off

/-- Byte `k` of the data a lane holds in register `d` and those after it. -/
def dataByte (s : State) (d : BitVec 8) (l k : Nat) : Byte := (s.vreg (d.toNat + k / 4) l).extractLsb' (8 * (k % 4)) 8

/-- What a vector access asks for. -/
structure AccessForm where
  /-- What it does when it performs. -/
  kind : AccKind
  order : BitVec 2
  scope : BitVec 3
  size : Nat
  addr : State → Nat → W64
  /-- It may cross a multiple of its size. -/
  split : Bool := false
  /-- The register whose bytes it stores or combines, and the one it compares with. -/
  data : Option (BitVec 8) := none
  expect : Option (BitVec 8) := none
  /-- The register its data goes to, and whether it is sign-extended. -/
  dest : Option (BitVec 8 × Bool) := none
  count : Option (BitVec 12) := none
  useL1 : Bool := false

/-- A load of form VM. -/
def loadForm (o : VmOp) (x : Option MemX) (dflt : BitVec 3) : AccessForm :=
  { kind := .load, order := memOrder x, scope := memScope dflt x, size := sizeBytes o.size,
    addr := fun s => laneAddr s o.base o.a (memOff o x), dest := some (o.d, !o.m.getLsbD 0) }

/-- A store of form VM. -/
def storeForm (kind : AccKind) (o : VmOp) (x : Option MemX) (dflt : BitVec 3) : AccessForm :=
  { kind := kind, order := memOrder x, scope := memScope dflt x, size := sizeBytes o.size,
    addr := fun s => laneAddr s o.base o.a (memOff o x), data := some o.d }

/-- An atomic of form VM: its old value goes to the register its operand came from. -/
def atomicForm (op : Nat) (o : VmOp) (x : Option MemX) (dflt : BitVec 3) : AccessForm :=
  { storeForm (.atomic op (o.m.getLsbD 0)) o x dflt with dest := some (o.d, true) }

/-- A compare-and-swap (R127). -/
def casForm (d a b : BitVec 8) (x : CasX) : AccessForm :=
  { kind := .cas, order := x.order, scope := x.scope, size := 4 * 2 ^ x.size.toNat,
    addr := fun s => laneAddr s x.base a 0, data := some d, expect := some b, dest := some (d, true) }

/-- The vector accesses to global memory. -/
def globalForm (i : Instr) : Option AccessForm :=
  match i with
  | .vld o x => some { loadForm o x 3 with useL1 := true }
  | .vldu o x => some { loadForm o x 3 with useL1 := true, split := true }
  | .vldc o count off => some { loadForm o (some ⟨0, 3, off.signExtend 13⟩) 3 with count := some count }
  | .vst o x => some (storeForm (.store 0) o x 3)
  | .vstu o x => some { storeForm (.store 0) o x 3 with split := true }
  | .vstn o x => some (storeForm .posted o x 3)
  | .vred o x => some (storeForm (.red o.m) o x 3)
  | .vaadd o x => some (atomicForm 0 o x 3)
  | .vamin o x => some (atomicForm 1 o x 3)
  | .vamax o x => some (atomicForm 2 o x 3)
  | .vaand o x => some (atomicForm 3 o x 3)
  | .vaor o x => some (atomicForm 4 o x 3)
  | .vaxor o x => some (atomicForm 5 o x 3)
  | .vaxch o x => some (atomicForm 6 o x 3)
  | .vacas d a b x => some (casForm d a b x)
  | _ => none

/-- The vector accesses to a scratchpad, and whether the address names a block of the cluster. -/
def scratchForm (i : Instr) : Option (AccessForm × Bool) :=
  match i with
  | .vlds o x => some (loadForm o x 1, false)
  | .vldx o x => some (loadForm o x 2, true)
  | .vsts o x => some (storeForm (.store o.m) o x 1, false)
  | .vstx o x => some (storeForm (.store o.m) o x 2, true)
  | .vbadd o x => some (atomicForm 0 o x 2, true)
  | .vbmin o x => some (atomicForm 1 o x 2, true)
  | .vbmax o x => some (atomicForm 2 o x 2, true)
  | .vband o x => some (atomicForm 3 o x 2, true)
  | .vbor o x => some (atomicForm 4 o x 2, true)
  | .vbxor o x => some (atomicForm 5 o x 2, true)
  | .vbxch o x => some (atomicForm 6 o x 2, true)
  | .vbcas d a b x => some (casForm d a b x, true)
  | _ => none

/-- The pieces that the lanes of an access ask for: the selected lanes, and for a plain load the helpers (R115). -/
def AccessForm.pieces (f : AccessForm) (s : State) : List Piece :=
  (lanesOf s.cur.guard).flatMap (fun l => lanePieces f.split f.size l (f.addr s l).toNat false)
    ++ (if f.kind = .load then (lanesOf s.cur.helpers).flatMap (fun l => lanePieces f.split f.size l (f.addr s l).toNat true) else [])

/-- What an access needs of a page: every one but a load needs a writable page (R114). -/
def AccessForm.need (f : AccessForm) : Need := if f.kind = .load then .load else .store

/-- The pieces placed by the checks of R114, with the state that translation leaves. -/
def AccessForm.placed (f : AccessForm) (s : State) : List Placed × State :=
  placeGlobal s f.need (if f.split then 1 else f.size) (f.pieces s)

/-- The bytes a lane stores, and those it compares with. -/
def laneData (s : State) (r : Option (BitVec 8)) (size l : Nat) : List Byte :=
  match r with
  | some d => (List.range size).map (dataByte s d l)
  | none => []

/-- The path counter of a global access: 3 for one that returns nothing, else 2 (R132). -/
def AccessForm.path (f : AccessForm) : Nat := if f.dest.isSome then 2 else 3

/-- The access's order is met: relaxed, or a release whose round is complete (R130, R131); it has not been handed out, in whole
or for some lanes; and no helper is a selected lane, as in every issue (R103). -/
def AccessForm.ready (f : AccessForm) (s : State) : Prop :=
  (f.order = 0 ∨ (f.order = 2 ∧ s.unit.fenced = true)) ∧ s.unit.issued = false ∧ s.unit.fe = 0 ∧ s.cur.guard &&& s.cur.helpers = 0

/-- As `AccessForm.ready`, for an access with `.acq` too. -/
def AccessForm.fresh (f : AccessForm) (s : State) : Prop :=
  (f.order = 2 → s.unit.fenced = true) ∧ s.unit.issued = false ∧ s.unit.fe = 0 ∧ s.cur.guard &&& s.cur.helpers = 0

/-- An LDF or STE of the slot. -/
def feForm (load : Bool) (o : VmOp) (x : Option MemX) : AccessForm :=
  if load then { loadForm o x 2 with kind := .loadFe, dest := some (o.d, true) } else storeForm .storeFe o x 2

/-- The registers of the destination. -/
def AccessForm.destRegs (f : AccessForm) : Nat := max 1 (f.size / 4)

/-- Some new access holds byte `k` of lane `l`, at the address of R113, with the byte the lane stores there. -/
def Carries (f : AccessForm) (s : State) (placed : List Placed) (new : List Access) (l k : Nat) : Prop :=
  ∃ c, c ∈ new ∧ ∃ p, p ∈ c.parts ∧ p.lane = l ∧ p.off ≤ k ∧ k < p.off + p.size
    ∧ (p.va + (k - p.off)) % 2 ^ 64 = ((f.addr s l).toNat + k) % 2 ^ 64
    ∧ (∃ q, q ∈ placed ∧ q.1.lane = l ∧ q.1.va = p.va ∧ q.2 = .ok p.addr p.ros)
    ∧ (∀ d, f.data = some d → p.data[k - p.off]? = some (dataByte s d l k))
    ∧ (∀ d, f.expect = some d → p.expect[k]? = some (dataByte s d l k))

/-- The accesses that an issue hands out: their kind, scope and destination, and a part for every byte of every selected lane
and none for an unselected one. -/
def HandsOut (f : AccessForm) (s : State) (placed : List Placed) (new : List Access) : Prop :=
  (∀ c, c ∈ new → (c.kind = f.kind ∨ (f.kind = .store 0 ∧ c.kind = .posted)) ∧ c.scope = f.scope ∧ c.count = f.count
      ∧ c.useL1 = f.useL1 ∧ c.dest = f.dest.map (fun d => ⟨false, d.1.toNat, f.size, d.2⟩)
      ∧ ∀ p, p ∈ c.parts → p.helper = false → hasLane s.cur.guard p.lane = true)
    ∧ ∀ l k, hasLane s.cur.guard l = true → k < f.size → Carries f s placed new l k

/-! ### Taking a trap (R153, R154) -/

/-- The issuing unit stands below trap level, its launch names a handler, and the handler's header can be entered. -/
def CanTrap (s : State) : Prop :=
  s.unit.trap = none ∧ s.cur.u < s.arch.units.length
    ∧ ∃ entry h, s.cblk.handler = some entry ∧ headerAt s s.cw.ctx entry = .ok h

/-- The trap is taken: the frame of R154, trap level, the handler's header; registers and memory as they were but for groups
the handler's header makes undefined, and a black-box record. -/
def TrapTaken (s t : State) (vec cause : Nat) (code : BitVec 12) (fmask : Lanes) (faddr : Nat) (skips : Bool) : Prop :=
  t.cur.status = .trapped
    ∧ (∃ f, t.unit.trap = some f ∧ f.fpc = BitVec.ofNat 64 (s.unit.pos.hdr + 8 * s.unit.pos.idx)
        ∧ f.vec = BitVec.ofNat 8 vec ∧ f.cause = BitVec.ofNat 8 cause ∧ f.slotVec = s.cur.slotVec ∧ f.skips = skips
        ∧ f.code = code ∧ f.fmask = fmask ∧ f.faddr = BitVec.ofNat 64 faddr ∧ f.fres = f.fpc ∧ f.fact = s.unit.lanes
        ∧ f.kept = if s.cur.slotVec then s.unit.xfer else none)
    ∧ (∃ entry, s.cblk.handler = some entry ∧ t.unit.pos.hdr = entry ∧ t.unit.pos.idx = 0) ∧ t.unit.lanes = s.unit.lanes
    ∧ (∀ k, k ≠ s.cur.u → t.cw.unit k = s.cw.unit k)
    ∧ t.arch.sregs = s.arch.sregs ∧ t.arch.preds = s.arch.preds ∧ t.arch.acc = s.arch.acc ∧ t.arch.nstat = s.arch.nstat
    ∧ t.cw.accs = s.cw.accs ∧ t.mem = s.mem ∧ t.blocks = s.blocks ∧ (∀ v, v ≠ s.cur.w → t.warp v = s.warp v)
    ∧ t.sys.boxHead = s.sys.boxHead + 1

/-- The slot waits for its fault to be driven again, and nothing it could have done is done (R114, R253). -/
def FaultParked (s t : State) : Prop :=
  t.cur.status = .wait ∧ t.unit.hold = .fault s.cur.slotVec ∧ t.cw.accs = s.cw.accs
    ∧ (∀ a, homeByte t a = homeByte s a) ∧ t.arch.sregs = s.arch.sregs ∧ ∀ r l, t.vreg r l = s.vreg r l

/-- The slot waits for `hold` with its accesses `new` handed out, and memory, scratchpads, scalar registers, predicates
and flags as they were. -/
def HeldOut (f : AccessForm) (s t : State) (placed : List Placed) (new : List Access) (hold : Hold) : Prop :=
  t.cur.status = .wait ∧ t.unit.hold = hold ∧ t.unit.issued = true ∧ t.unit.fenced = false
    ∧ unstaged t.cw.accs = unstaged (s.cw.accs ++ new) ∧ HandsOut f s placed new
    ∧ (∀ b, (t.block b).sp = (s.block b).sp ∧ (t.block b).full = (s.block b).full) ∧ (∀ a, homeByte t a = homeByte s a)
    ∧ t.arch.sregs = s.arch.sregs ∧ t.arch.preds = s.arch.preds ∧ t.arch.nstat = s.arch.nstat

end Sys2Proof.Claim
end

