-- ==== Sys2Proof/Certificates/Slice0/ClaimPerform.lean ====
section
/-! DEFINITION. What the rules say of accesses that perform: bytes stored, values loaded, and atomic steps in lane order, as
plain functions of the parts. -/

namespace Sys2Proof.Claim

open Machine

/-- An outstanding access whose parts all lie in the sector or bank that the event names, none of which has performed, and
which nothing earlier of its warp holds back. -/
def Performable (s : State) (x : Warp) (c : Access) : Prop :=
  eventAccess s = some (x, c) ∧ c.stage = .waiting ∧ partsAt c s.ev.sector = c.parts ∧ c.parts ≠ [] ∧ c.got = []
    ∧ mayPerform x c c.parts = true

/-- The access is no longer outstanding. -/
def Completed (s t : State) (c : Access) : Prop := ∀ e, e ∈ (t.warp s.ev.w).accs → e.id ≠ c.id

/-- A byte of a block's scratchpad. -/
def spByte (s : State) (b off : Nat) : Byte := Sparse.get 0 (s.block b).sp off

/-- Parts of one lane each, at offset 0, of the destination's size. -/
def LoadShape (c : Access) (d : AccDest) : Prop :=
  c.dest = some d ∧ (c.parts.map (·.lane)).Nodup ∧ (d.scalar = true → c.parts.length = 1)
    ∧ ∀ p, p ∈ c.parts → p.off = 0 ∧ p.size = d.bytes ∧ 0 < p.size ∧ (d.scalar = true ∨ p.lane < 64)

/-- Word `k` of a loaded value (R113, R118): below 32 bits it is extended to the whole register. -/
def loadedWord (d : AccDest) (v k : Nat) : W32 :=
  if d.bytes < 4 then
    (if d.signed then (BitVec.ofNat (8 * d.bytes) v).signExtend 32 else (BitVec.ofNat (8 * d.bytes) v).setWidth 32)
  else BitVec.ofNat 32 (v / 2 ^ (32 * k))

/-- The destination holds the bytes in a lane, little-endian. -/
def Loaded (t : State) (w : Nat) (d : AccDest) (lane : Nat) (bs : List Byte) : Prop :=
  if d.scalar then (t.warp w).arch.getS d.reg = BitVec.ofNat 64 (leValue bs)
  else ∀ k, k < max 1 (d.bytes / 4) → (t.warp w).arch.getV t.free (d.reg + k) lane = loadedWord d (leValue bs) k

/-! ### Stores -/

/-- A byte after parts are stored one after another at addresses modulo `n`: the last part that covers it (R116). -/
def storedByte (n : Nat) (ps : List AccPart) (off : Nat) (old : Byte) : Byte :=
  ps.foldl (fun b p => if p.addr % n ≤ off ∧ off < p.addr % n + p.data.length then (p.data[off - p.addr % n]?).getD b else b) old

/-- Some part stores to a 32-bit word. -/
def touchesWord (ps : List AccPart) (k : Nat) : Prop := ∃ p, p ∈ ps ∧ ∃ j, j < p.data.length ∧ (p.addr % 2 ^ 21 + j) / 4 = k

/-- The scratchpad of block `b` after a store with a full/empty setting (R118, R119), every other scratchpad and all memory
as before. -/
def ScratchStored (s t : State) (b : Nat) (ps : List AccPart) (fe : BitVec 2) : Prop :=
  (∀ off, spByte t b off = storedByte (2 ^ 21) ps off (spByte s b off))
    ∧ (∀ k, (fe = 0 ∨ ¬ touchesWord ps k) → spFull t b (4 * k) = spFull s b (4 * k))
    ∧ (∀ k, fe ≠ 0 → touchesWord ps k → spFull t b (4 * k) = decide (fe = 2))
    ∧ (∀ e, e ≠ b → (t.block e).sp = (s.block e).sp ∧ (t.block e).full = (s.block e).full)
    ∧ ∀ a, homeByte t a = homeByte s a

/-! ### Atomics (R116, R126, R127) -/

/-- Bytes of a byte map, and a byte map with bytes replaced. -/
def bytesAt (m : Nat → Byte) (a n : Nat) : List Byte := (List.range n).map (fun k => m (a + k))
def putAt (m : Nat → Byte) (a : Nat) (bs : List Byte) : Nat → Byte :=
  fun k => if a ≤ k ∧ k < a + bs.length then (bs[k - a]?).getD (m k) else m k

/-- new ← of R126 for a width of `w` bits. -/
def atomicWord (op : Nat) (unsigned : Bool) (w : Nat) (old v : BitVec w) : BitVec w :=
  let less (a b : BitVec w) : Bool := if unsigned then decide (a.toNat < b.toNat) else decide (a.toInt < b.toInt)
  match op with
  | 0 => old + v
  | 1 => if less v old then v else old
  | 2 => if less old v then v else old
  | 3 => old &&& v
  | 4 => old ||| v
  | 5 => old ^^^ v
  | _ => v

/-- The bytes an atomic or compare-and-swap leaves where it found `old`. -/
def stepBytes (k : AccKind) (p : AccPart) (old : List Byte) : List Byte :=
  match k with
  | .atomic op u =>
    leSplit p.size (atomicWord op u (8 * p.size) (BitVec.ofNat _ (leValue old)) (BitVec.ofNat _ (leValue p.data))).toNat
  | _ => if old = p.expect then p.data else old

/-- The parts performed one after another: what each lane receives, and the bytes that remain. -/
def atomicSeq (k : AccKind) : List AccPart → (Nat → Byte) → List (Nat × List Byte) × (Nat → Byte)
  | [], m => ([], m)
  | p :: ps, m =>
    let old := bytesAt m p.addr p.size
    let r := atomicSeq k ps (putAt m p.addr (stepBytes k p old))
    ((p.lane, old) :: r.1, r.2)

/-- The access is an atomic or a compare-and-swap, with data of its size. -/
def AtomicShape (c : Access) : Prop :=
  ((∃ op u, c.kind = .atomic op u) ∨ c.kind = .cas) ∧ ∀ p, p ∈ c.parts → p.data.length = p.size

end Sys2Proof.Claim
end

