-- ==== Sys2Proof/Certificates/Slice0/ClaimUnits.lean ====
section
/-! DEFINITION. What events leave alone, and what the rules say of posted writes, traps of a unit, and where a transfer
leads, as plain functions. -/

namespace Sys2Proof.Claim

open Machine

/-! ### What an event leaves alone -/

/-- The registers of a warp that its instructions read as operands. -/
def registersOf (x : Warp) : Sparse W32 × BitVec 512 × Sparse W64 × Sparse Lanes × Sparse W32 × Sparse (BitVec 128) × W64
    × Sparse (List Nat) :=
  (x.arch.vregs, x.arch.dead, x.arch.sregs, x.arch.preds, x.arch.acc, x.arch.fmt, x.arch.nstat, x.arch.rstk)

/-- Memory at its homes, and every block's scratchpad and full/empty bits, are as before. -/
def MemoryKept (s t : State) : Prop :=
  (∀ a, homeByte t a = homeByte s a) ∧ ∀ b, (t.block b).sp = (s.block b).sp ∧ (t.block b).full = (s.block b).full

/-- So are the harts and the registers of every warp. -/
def DataKept (s t : State) : Prop :=
  MemoryKept s t ∧ t.harts = s.harts ∧ ∀ v, registersOf (t.warp v) = registersOf (s.warp v)

/-! ### Posted writes at their home (R124, R274) -/

/-- A census or a recreation of the sector is under way (R317, R318); a deferred one is not. -/
def CensusRuns (s : State) (sec : Nat) : Prop := ∃ c, c ∈ s.tok.census ∧ c.sector = sec ∧ c.phase ≠ .deferred

/-- A byte after steps are stored one after another. -/
def steppedByte (steps : List (Nat × List Byte)) (off : Nat) (old : Byte) : Byte :=
  steps.foldl (fun b e => if e.1 ≤ off ∧ off < e.1 + e.2.length then (e.2[off - e.1]?).getD b else b) old

/-- The step of RED: add, signed minimum and maximum, and the sum of two FP32 numbers rounded to nearest even. -/
def redWord (op : BitVec 2) (w : Nat) (old v : BitVec w) : BitVec w :=
  if op = 3 then BitVec.ofNat w (roundFlagged fmtFP32 false (fAdd (fmtFP32.decode old.toNat) (fmtFP32.decode v.toNat))).1
  else atomicWord op.toNat false w old v

/-- The bytes after the steps of a RED, each made from the bytes under it. -/
def redBytes (op : BitVec 2) : List (Nat × List Byte) → (Nat → Byte) → Nat → Byte
  | [], m => m
  | (off, bs) :: r, m =>
    let n := bs.length
    redBytes op r (putAt m off (leSplit n
      (redWord op (8 * n) (BitVec.ofNat _ (leValue (bytesAt m off n))) (BitVec.ofNat _ (leValue bs))).toNat))

/-- The bytes of a sector after a posted write. -/
def postedBytes (w : PostedWrite) (m : Nat → Byte) (off : Nat) : Byte :=
  w.red.elim (steppedByte w.steps off (m off)) (fun op => redBytes op w.steps m off)

/-- The arrivals a home has counted of a source's round (R214). -/
def arrived (s : State) (home : Nat) (srcId : W64) (round : BitVec 32) : Nat :=
  ((s.tok.arrivals.find? (fun a => a.home == home && a.srcId == srcId && a.round == round)).map (·.count)).getD 0

/-! ### A unit that traps (R153) -/

/-- Unit `u` of warp `w` stands below trap level, its launch names a handler, and the handler's header can be entered. -/
def MayTrap (s : State) (w u : Nat) : Prop :=
  ((s.warp w).unit u).trap = none ∧ u < (s.warp w).arch.units.length
    ∧ ∃ entry h, (s.block (s.warp w).blk).handler = some entry ∧ headerAt s (s.warp w).ctx entry = .ok h

/-- It has taken a trap: its frame names the vector, the cause and where it stood; it stands at the handler's header. -/
def UnitTrapped (s t : State) (w u vec cause fpc : Nat) : Prop :=
  ∃ f entry, ((t.warp w).unit u).trap = some f ∧ f.vec = BitVec.ofNat 8 vec ∧ f.cause = BitVec.ofNat 8 cause
    ∧ f.fpc = BitVec.ofNat 64 fpc ∧ f.fres = f.fpc ∧ f.fact = ((s.warp w).unit u).lanes
    ∧ (s.block (s.warp w).blk).handler = some entry ∧ ((t.warp w).unit u).pos.hdr = entry ∧ ((t.warp w).unit u).pos.idx = 0
    ∧ ((t.warp w).unit u).lanes = ((s.warp w).unit u).lanes

/-- Where a unit stands: the bundle it issues next, or the header it waits at. -/
def standing (v : IUnit) : Nat := v.pos.hdr + 8 * v.pos.idx

/-- A unit after a write to frame `f`, which its handler's sides share (R154, R155). -/
def sharedFrame (f g : TrapFrame) (v : IUnit) : IUnit :=
  { v with trap := v.trap.map (fun q => if q.fact = f.fact then g else q), more := v.more.map (fun q => if q.fact = f.fact then g else q) }

/-! ### Transfers (R138 to R145) -/

/-- The taken lanes are lanes of the unit, and a RET has an address for each. -/
def ProperTransfer (v : IUnit) (t : Transfer) : Prop :=
  t.taken &&& v.lanes = t.taken ∧ (t.kind = .regang ∨ t.kind = .join → t.taken = v.lanes)
    ∧ (t.kind = .ret → ∃ f : Nat → Nat, t.rets = (lanesOf t.taken).map (fun l => (l, f l)))

/-- Where a lane of the unit goes: taken lanes to the destination, or for RET to their own; the others to the next header. -/
def laneDest (v : IUnit) (t : Transfer) (l : Nat) : Nat :=
  if hasLane t.taken l then
    (if t.kind = .ret then ((t.rets.find? (fun e => e.1 == l)).map (·.2)).getD 0 else t.dest)
  else v.pos.hdr + 8 * (1 + v.pos.head.len.toNat)

/-- A lane's return stack after the transfer: CALL pushes the next header, RET drops the top. -/
def stackAfter (a : WarpArch) (v : IUnit) (t : Transfer) (l : Nat) : List Nat :=
  let old := Sparse.get [] a.rstk l
  if hasLane t.taken l = false then old
  else if t.kind = .call then (v.pos.hdr + 8 * (1 + v.pos.head.len.toNat)) :: old
  else if t.kind = .ret then old.drop 1 else old

/-- Every ply's slots are as full as its stack allows, and no unit is empty or about to enter a header (R183). -/
def Settled (a : WarpArch) : Prop :=
  (∀ p, p < 8 → (a.units.any (isPrimaryOf p) = true ∨ (a.units.any (isSecondaryOf p) = false ∧ stackOf a p = []))
      ∧ (a.units.any (isSecondaryOf p) = true ∨ stackOf a p = []))
    ∧ (∀ v, v ∈ a.units → v.lanes ≠ 0 ∧ v.entering = false) ∧ ∀ v, v ∈ a.stack → v.lanes ≠ 0

/-- The unit's address checks pass when it has any (R143). -/
def TargetOk (s : State) (w : Nat) (t : Transfer) : Prop := t.checked = true → targetTrap s (s.warp w).ctx t.dest = none

/-- The header at an address can be entered and asks no one to wait for another side. -/
def PlainHeader (s : State) (w dest : Nat) (h : Header) : Prop := headerAt s (s.warp w).ctx dest = .ok h ∧ h.rcpt = false

end Sys2Proof.Claim
end

