-- ==== Sys2Proof/Certificates/Slice0/ClaimSync.lean ====
section
/-! DEFINITION. What the rules say of fences, barriers, scalar reads at issue, children and names, as plain functions. -/

namespace Sys2Proof.Claim

open Machine

/-! ### Fences (R130) -/

/-- The fragment's accesses that have not completed and for which a test holds. -/
def NoneLeft (x : Warp) (v : IUnit) (p : AccKind → Prop) : Prop := ∀ c, c ∈ x.accs → c.lanes &&& v.lanes ≠ 0 → ¬ p c.kind

/-- A kind that a release waits for: every one but posted writes, which `.d` and wider wait for by their count. -/
def ReleaseWaits (k : AccKind) : Prop := ¬ (k = .posted ∨ ∃ op, k = .red op)

/-- A kind that an acquire waits for: loads and atomics. -/
def AcquireWaits (k : AccKind) : Prop := k = .load ∨ k = .loadFe ∨ k = .cas ∨ ∃ op u, k = .atomic op u

/-- The unit's fence is complete. -/
def FenceDone (s t : State) : Prop :=
  (t.warp s.ev.w).unit s.ev.u = { (s.warp s.ev.w).unit s.ev.u with hold := .none, fenced := true } ∧ DataKept s t
    ∧ ∀ v, v ≠ s.ev.w → t.warp v = s.warp v

/-- The warp waits for no load or atomic (R303). -/
def NoLoads (x : Warp) : Prop := ∀ c, c ∈ x.accs → c.kind ≠ .load ∧ c.kind ≠ .cas ∧ ∀ op u, c.kind ≠ .atomic op u

/-! ### Barriers (R146) -/

/-- The doubleword at an offset of a scratchpad, and its fields. -/
def barDword (s : State) (b off : Nat) : W64 := BitVec.ofNat 64 (leValue (bytesAt (spByte s b) off 8))
def expectOf (w : W64) : Nat := (w.extractLsb' 0 16).toNat
def countOf (w : W64) : Nat := (w.extractLsb' 16 16).toNat
def phaseOf (w : W64) : Nat := (w.extractLsb' 32 16).toNat

/-- The arrivals a phase needs: EXPECT, or with 0 one of every warp of the block that has not ended. -/
def arrivalsNeeded (s : State) (b : Nat) (w : W64) : Nat :=
  if expectOf w = 0 then (s.warps.filter (fun e => e.2.blk == b && !e.2.ended)).length else expectOf w

/-- Where the address of a barrier leads (R112, R148). -/
def BarrierAt (s : State) (va b off : Nat) : Prop :=
  va % 8 = 0 ∧ va < 2 ^ 23 ∧ s.cblk.cluster[va / 2 ^ 21]? = some b ∧ off = va % 2 ^ 21 ∧ off + 8 ≤ (s.block b).spAlloc

/-! ### Scalar reads and stores at issue (R114, R178) -/

/-- A scalar slot of the issuing core may read a sector, which is not poisoned: its data, and the state after. The slot has it from
before it waited (R275), reads it under a token of its L2, whose L1 then drops the line (R197), or on a read-only-shared page
from the home, which holds every token (R280); it notes the sector among those it has read. -/
def SlotSector (t : State) (sec : Nat) (ros : Bool) (d : SectorData) (u : State) : Prop :=
  let core := coreAgent t t.cw.core
  let home := homeAgent t.sys (sectorBase sec)
  let kept := t.unit.latch.find? (fun r => r.sec == sec)
  (∃ r, kept = some r ∧ r.poison = false ∧ d = r.data ∧ u = noteSector t ⟨sec, d, false, ros⟩)
  ∨ (kept = none ∧ ros = false ∧ satisfied t core sec false = true ∧ (holding t core sec).poison = false
    ∧ d = (holding t core sec).data
    ∧ u = noteSector (t.setCore t.cw.core (l1Drop (t.core t.cw.core) (sec / 2))) ⟨sec, d, false, ros⟩)
  ∨ (kept = none ∧ ros = true ∧ isHomeOf t home sec = true ∧ (holding t home sec).tokens = 2048
    ∧ (holding t home sec).poison = false ∧ d = (holding t home sec).data ∧ u = noteSector t ⟨sec, d, false, ros⟩)

/-- A scalar slot may read these bytes at a placed domain address. -/
def SlotReads (t : State) (da n : Nat) (ros : Bool) (bs : List Byte) : Prop :=
  ∃ d u, SlotSector t (da / 64) ros d u ∧ bs = sectorBytes d (da % 64) n

/-- A scalar read of `n` bytes passes its checks and its core may read: the bytes, and the state that translation and the read
leave. The fragment has no store of its own on the way. -/
def ReadsBytes (n : Nat) (s : State) (va : Nat) (bs : List Byte) (t : State) : Prop :=
  ∃ da ros d p, placeGlobal s .load n [⟨64, va, 0, n, false⟩] = ([(⟨64, va, 0, n, false⟩, .ok da ros)], p)
    ∧ (∀ c, c ∈ p.cw.accs → c.lanes &&& p.unit.lanes = 0) ∧ SlotSector p (da / 64) ros d t
    ∧ bs = sectorBytes d (da % 64) n

/-- A name is read. -/
def Reads16 (s : State) (va : Nat) (bs : List Byte) (t : State) : Prop := ReadsBytes 16 s va bs t

/-- A body is read: two 64-bit words, one after the other. -/
def ReadsBody (s : State) (va : Nat) (bs : List Byte) (t : State) : Prop :=
  ∃ lo hi u, ReadsBytes 8 s va lo u ∧ ReadsBytes 8 u ((va + 8) % 2 ^ 64) hi t ∧ bs = lo ++ hi

/-- A scalar address to be stored to, of `n` bytes, passes its checks. -/
def StoresBytes (n : Nat) (s : State) (va da : Nat) (t : State) : Prop :=
  ∃ ros, placeGlobal s .store n [⟨64, va, 0, n, false⟩] = ([(⟨64, va, 0, n, false⟩, .ok da ros)], t)

/-- A scalar instruction that counts on path nlk may be handed over (R132, R303). -/
def NlkReady (s : State) : Prop := s.scalarOn = true ∧ NoLoads s.cw ∧ pathCount s.cw 5 < 63

/-- A status word: the code in its top byte. -/
def HasStatus (v : W64) (code : Nat) : Prop := (v.extractLsb' 56 8).toNat = code

/-- Only scalar register `d` of the issuing warp differs among registers, and no memory. -/
def OnlySregAndState (s t : State) (d : Nat) : Prop :=
  MemoryKept s t ∧ (∀ r, r ≠ d → t.sreg r = s.sreg r) ∧ t.arch.vregs = s.arch.vregs ∧ t.arch.preds = s.arch.preds
    ∧ t.arch.nstat = s.arch.nstat ∧ t.arch.acc = s.arch.acc ∧ ∀ v, v ≠ s.cur.w → registersOf (t.warp v) = registersOf (s.warp v)

/-! ### Children (R149 to R151) -/

/-- A lane's argument word is placed, and its core may read it: its value. -/
def ArgWord (t : State) (ps : List Placed) (l : Nat) (v : W64) : Prop :=
  ∃ q da ros bs, (q, TransResult.ok da ros) ∈ ps ∧ q.lane = l ∧ SlotReads t da 8 ros bs ∧ v.toNat = leValue bs

/-- Every argument word of a FORK may be read, and there is room for a child for each. -/
def ArgsReady (t : State) (ps : List Placed) (r : LaunchRec) (n : Nat) : Prop :=
  (∀ e, e ∈ ps → ∃ da ros bs, e.2 = .ok da ros ∧ SlotReads t da 8 ros bs)
    ∧ t.cblk.children + n ≤ 4096 ∧ (queueOf t t.cw.ctx r.prio).length + n ≤ 1024

/-- FORK has found a live name of KIND 7 that its context may use, and holds the object (R149, R179, R263): the state it goes on
in, with what it has found in its unit. -/
def ForkHolds (t0 : State) (name : BitVec 128) (key : Nat) (t1 : State) : Prop :=
  let e := nameEntry t0 key
  resolve t0 name = .live key ∧ mayUse t0 t0.cw.ctx e = true ∧ e.w0.toNat / 2 ^ 56 = 7
    ∧ ∃ u, takeHold t0 key = some u
      ∧ t1 = u.setUnit (fun v => { v with fork := some ⟨BitVec.ofNat 64 (name.toNat % 2 ^ 64), e.w0, e.w1, none⟩ })

/-- The launch unit has read FORK's record under its tokens, as a snapshot (R231): the state it goes on in. -/
def ForkReads (t1 : State) (f : ForkWait) (base : Nat) (r : LaunchRec) : State :=
  (takeRead t1 (launchAgent t1) t1.cw.ctx base 128).setUnit (fun v => { v with fork := some { f with launch := some r } })

/-- The k-th child of a FORK (R149): its parent and ordinal, its record and its s0. -/
def ChildOf (t : State) (ps : List Placed) (u : State) (r : LaunchRec) (k l : Nat) : Prop :=
  ∃ g, Sparse.find u.grids (t.nextId + k) = some g ∧ g.ctx = t.cw.ctx ∧ g.launch = r
    ∧ g.parent = .block t.cw.blk (t.cblk.nextChild + k) ∧ g.doneVal = BitVec.ofNat 64 (t.cblk.nextChild + k)
    ∧ g.dispatched = 0 ∧ g.ended = 0 ∧ g.completed = false ∧ ArgWord t ps l g.s0

/-- Keys of the warp table rise and the issuing warp is in it. -/
def WarpTable (s : State) : Prop := (s.warps.map (·.1)).Pairwise (· < ·) ∧ Sparse.find s.warps s.cur.w = some s.cw

/-! ### Name operations (R178, R179) -/

/-- The home of an entry's sector can collect its tokens now, and write the entry (R263, R269). -/
def TableWritable (s : State) (key : Nat) : Prop :=
  (collectAll s (homeAgent s.sys (sectorBase (nameSector key))) (nameSector key)).isSome = true

/-- A name operation is handed over: sd pending, and of a look sd + 1 and sd + 2 too, path nlk raised, nothing else of the warp's
registers changed. -/
def NameHandedOver (s t : State) (kind : NameOpKind) (sd : BitVec 6) (name : BitVec 128) (body new : List Byte)
    (out high : Nat) : Prop :=
  ∃ o id, t.names.ops = s.names.ops ++ [o] ∧ o.asker = .warp s.cur.w id sd ∧ o.kind = kind ∧ o.ctx = s.cw.ctx ∧ o.name = name
    ∧ o.b0.toNat = leValue (body.take 8) ∧ o.b1.toNat = leValue ((body.drop 8).take 8)
    ∧ o.n0.toNat = leValue (new.take 8) ∧ o.n1.toNat = leValue ((new.drop 8).take 8) ∧ o.out = some (out, high)
    ∧ o.waitFlash = false
    ∧ (sd.toNat, id) ∈ t.cw.spend ∧ (kind = .look ∨ kind = .lookHold → (sd.toNat + 1, id) ∈ t.cw.spend ∧ (sd.toNat + 2, id) ∈ t.cw.spend)
    ∧ pathCount t.cw 5 = pathCount s.cw 5 + 1 ∧ t.names.table = s.names.table ∧ DataKept s t

end Sys2Proof.Claim
end

