-- ==== Sys2Proof/Certificates/Slice0/ClaimMatrix.lean ====
section
/-! DEFINITION. What the rules say of the matrix instructions: the checks of R74 and R160, the sums of R75 and R76, the tile
accesses of R164 and R165, and chunk counters, as plain functions. -/

namespace Sys2Proof.Claim

open Machine

/-! ### Format-block registers (R70, R74, R160) -/

def fmtField (w : BitVec 128) (lo n : Nat) : Nat := (w.extractLsb' lo n).toNat

/-- The element types of the operands form a row of R73. -/
def typePair (mss : Bool) (a b : Nat) : Prop :=
  if mss then a = 8 ∧ b = 7 else (a ≤ 3 ∧ b ≤ 3) ∨ (a = 4 ∧ b = 4) ∨ (a = 5 ∧ b = 5)

/-- Elements of a k-block. -/
def kblock (w : BitVec 128) (bit : Nat) : Nat := if w.getLsbD bit then 32 else 16

/-- Every scale byte of an operand lies in the block's allocation. -/
def scalesIn (w : BitVec 128) (scl base str blk kc alloc : Nat) : Prop :=
  scl ≠ 0 → ∀ row kb, row < 64 → kb < 32 * kc / blk → base + row * str + fmtField w 96 8 + kb < alloc

/-- Bytes of an operand (R158). -/
def operandSize (t : BitVec 4) (kc : Nat) : Nat := kc * (64 * 32 * typeBits t / 8)

/-- The check of the format trap with a cause. -/
def fmtCheck (w : BitVec 128) (mss : Bool) (kc alloc : Nat) (cause : Nat) : Prop :=
  match cause with
  | 1 => typePair mss (fmtField w 0 4) (fmtField w 4 4)
  | 2 => fmtField w 10 2 ≠ 3 ∧ fmtField w 12 2 ≠ 3
  | 3 => 32 * kc % max (kblock w 8) (kblock w 9) = 0
  | 4 => scalesIn w (fmtField w 10 2) (fmtField w 16 21) (fmtField w 64 16) (kblock w 8) kc alloc
      ∧ scalesIn w (fmtField w 12 2) (fmtField w 40 21) (fmtField w 80 16) (kblock w 9) kc alloc
  | _ => operandSize (w.extractLsb' 0 4) kc ≤ 65536 ∧ operandSize (w.extractLsb' 4 4) kc ≤ 65536

/-- The rows that a matrix instruction writes (R161). -/
def matrixRow (s : State) (l : Nat) : Prop :=
  hasLane s.cur.guard l = true ∨ (hasLane s.cur.helpers l = true ∧ ∃ k, k / 4 = l / 4 ∧ hasLane s.cur.guard k = true)

/-- The snapshot holds the scale bytes of the issue (R72). -/
def snapshotOf (s : State) (w : BitVec 128) (kc : Nat) (m : MatOp) : Prop :=
  ∀ row kb, row < 64 →
    (fmtField w 10 2 ≠ 0 → kb < 32 * kc / kblock w 8 → Sparse.get 0 m.scaleA (64 * kb + row)
      = spByte s s.cw.blk (fmtField w 16 21 + row * fmtField w 64 16 + fmtField w 96 8 + kb))
    ∧ (fmtField w 12 2 ≠ 0 → kb < 32 * kc / kblock w 9 → Sparse.get 0 m.scaleB (64 * kb + row)
      = spByte s s.cw.blk (fmtField w 40 21 + row * fmtField w 80 16 + fmtField w 96 8 + kb))

/-! ### Sums (R58, R75, R76) -/

/-- Element k of a row of an operand: chunk c holds 64 rows of 32 packed elements. -/
def packedElement (bytes : List Byte) (t : BitVec 4) (row k : Nat) : Nat :=
  let w := typeBits t
  leValue bytes / 2 ^ (8 * (k / 32 * (64 * 32 * w / 8) + row * (32 * w / 8)) + w * (k % 32)) % 2 ^ w

/-- One step of R76: the product joins the sum modulo 2^32; IOVF where the exact sum does not fit. -/
def intStep (m : MatOp) (i j : Nat) (r : W32 × NumFlags) (k : Nat) : W32 × NumFlags :=
  let ta : BitVec 4 := m.fmt.extractLsb' 0 4
  let tb : BitVec 4 := m.fmt.extractLsb' 4 4
  let a := intElement ta (packedElement m.aBytes ta i k)
  let b := intElement tb (packedElement m.bBytes tb j k)
  let y : Int := r.1.toInt + a.1 * b.1
  (BitVec.ofInt 32 y, r.2 ||| a.2 ||| b.2 ||| (if y < -2147483648 ∨ 2147483647 < y then nfIovf else 0))

/-- One step of R75: a segment's exact sum of products, scaled, joins the accumulator with one rounding. -/
def floatStep (m : MatOp) (i j : Nat) (r : W32 × NumFlags) (g : Nat) : W32 × NumFlags :=
  let ta : BitVec 4 := m.fmt.extractLsb' 0 4
  let tb : BitVec 4 := m.fmt.extractLsb' 4 4
  let seg := min (kblock m.fmt 8) (kblock m.fmt 9)
  let els := (List.range seg).map (fun e =>
    (elementValue ta (packedElement m.aBytes ta i (g * seg + e)), elementValue tb (packedElement m.bBytes tb j (g * seg + e))))
  let sa := scaleValue (fmtField m.fmt 10 2) (Sparse.get 0 m.scaleA (64 * (g * seg / kblock m.fmt 8) + i))
  let sb := scaleValue (fmtField m.fmt 12 2) (Sparse.get 0 m.scaleB (64 * (g * seg / kblock m.fmt 9) + j))
  let t := scaleSum (segmentSum (els.map (fun e => (e.1.1, e.2.1)))) sa sb
  let x := roundFlagged fmtFP32 false (fAdd (fmtFP32.decode r.1.toNat) t.1)
  (BitVec.ofNat 32 x.1, r.2 ||| els.foldl (fun f e => f ||| e.1.2 ||| e.2.2) 0 ||| t.2 ||| x.2)

/-- An element of the tile from its old value. -/
def tileElement (m : MatOp) (i j : Nat) (old : W32) : W32 × NumFlags :=
  let start : W32 × NumFlags := (if m.op.za then 0 else old, 0)
  let k := 32 * m.op.kc.toNat
  if m.mss = true ∧ fmtField m.fmt 10 2 = 0 ∧ fmtField m.fmt 12 2 = 0 then (List.range k).foldl (intStep m i j) start
  else (List.range (k / min (kblock m.fmt 8) (kblock m.fmt 9))).foldl (floatStep m i j) start

/-! ### Starting (R161, R162) -/

/-- Bytes in a FIFO. -/
def fifoBytes (b : Block) (k : BitVec 3) : List Byte := Sparse.get [] b.fifos k.toNat

/-- Both operands stand in their FIFOs, the earlier instructions let it start, no earlier tile instruction waits for its tile, and
its warp's earlier loads have returned. -/
def MayStart (s : State) (b : Block) (k : Nat) (m : MatOp) : Prop :=
  let na := operandSize (m.fmt.extractLsb' 0 4) m.op.kc.toNat
  let nb := operandSize (m.fmt.extractLsb' 4 4) m.op.kc.toNat
  m.started = false ∧ (if m.op.fa = m.op.fb then na + nb ≤ (fifoBytes b m.op.fa).length
      else na ≤ (fifoBytes b m.op.fa).length ∧ nb ≤ (fifoBytes b m.op.fb).length)
    ∧ (∀ j e, j < k → b.mq[j]? = some e →
        (e.started = true ∨ (e.op.fa ≠ m.op.fa ∧ e.op.fa ≠ m.op.fb ∧ e.op.fb ≠ m.op.fa ∧ e.op.fb ≠ m.op.fb))
          ∧ ¬ (e.warp = m.warp ∧ e.op.acc = m.op.acc))
    ∧ (∀ v, v ∈ (s.warp m.warp).arch.units ∨ v ∈ (s.warp m.warp).arch.stack → v.hold = .tile m.op.acc.toNat → m.id < v.firstId)
    ∧ ∀ c, c ∈ openLoads (s.warp m.warp) → m.id ≤ c.id

/-- An array that is free and in service; a clean one has no fenced part. -/
def arrayAt (k : Core) (n : Nat) : ArrayState := (k.arrays[n]?).getD {}
def FreeArray (k : Core) (n : Nat) : Prop := (arrayAt k n).busy = none ∧ popcount 4 (arrayAt k n).fenced.toNat < 2
def CleanArray (k : Core) (n : Nat) : Prop := FreeArray k n ∧ (arrayAt k n).fenced = 0

/-! ### Tiles (R164, R165) -/

/-- No matrix instruction of the warp that names the tile and issued before is outstanding (R166). -/
def TileFree (s : State) (acc : BitVec 2) : Prop :=
  ∀ m, m ∈ s.cblk.mq → ¬ (m.warp = s.cur.w ∧ m.op.acc = acc ∧ m.id < s.unit.firstId)

/-- Only elements of one tile differ. -/
def OnlyTile (s t : State) (acc : BitVec 2) : Prop :=
  OnlyArch s t ∧ t.arch = { s.arch with acc := t.arch.acc }
    ∧ ∀ n i j, n ≠ acc.toNat → i < 64 → j < 64 → t.arch.getAcc n i j = s.arch.getAcc n i j

/-- One byte of R165 and its flags. -/
def requantByte (it u : Bool) (x scale : W32) : BitVec 8 × NumFlags :=
  let v := if it then FVal.ofInt x.toInt else fmtFP32.decode x.toNat
  let p := (fMul v (fmtFP32.decode scale.toNat)).1
  if p.isNan then (0, nfInv) else (BitVec.ofNat 8 (floatToInt false true (!u) 8 p).1, (floatToInt false true (!u) 8 p).2)

/-- Four bytes of R165 in one register. -/
def requantWord (s : State) (a : BitVec 8) (acc : BitVec 2) (col : BitVec 6) (it u : Bool) (l : Nat) : W32 × NumFlags :=
  let e (j : Nat) := requantByte it u (s.arch.getAcc acc.toNat l (col.toNat + j)) (s.vreg a.toNat l)
  ((e 3).1 ++ (e 2).1 ++ (e 1).1 ++ (e 0).1, (e 0).2 ||| (e 1).2 ||| (e 2).2 ||| (e 3).2)

/-- A block's chunk counter. -/
def counterOf (s : State) (b : Nat) (k : BitVec 5) : ChunkCtr := Sparse.get {} (s.block b).ctrs k.toNat

end Sys2Proof.Claim
end

