-- ==== Sys2Proof/Certificates/Slice0/ClaimEngine.lean ====
section
/-! DEFINITION. What the rules say of engine commands and of collectives: the forms of the commands, the statuses they end
with, round messages, and packets, as plain functions. -/

namespace Sys2Proof.Claim

open Machine

/-! ### Command forms (R171, R174, R175, R177) -/

/-- What an engine command asks for. -/
structure CommandForm where
  kind : CmdKind
  o : EngOp
  /-- The destination operand, where it is an address. -/
  x : State → Option W64
  /-- The length's unit. -/
  unit : Nat
  fromSp : Bool := false
  toSp : Bool := false
  /-- It goes to a block-transfer engine. -/
  pool : Bool := false
  /-- The FIFO that it names, which the block must own. -/
  fifo : Option (BitVec 3) := none

/-- The commands that move bytes. -/
def commandForm (i : Instr) : Option CommandForm :=
  match i with
  | .vecpy o a b fe => some { kind := .ecpy a b fe, o := o, x := fun s => some (s.sreg o.x.toNat), unit := 4, fromSp := a, toSp := b }
  | .vefill o a f => some { kind := .efill a f, o := o, x := fun _ => none, unit := 32, fromSp := a, fifo := some f }
  | .vered o op ty => some { kind := .ered op ty, o := o, x := fun s => some (s.sreg o.x.toNat), unit := 4 }
  | .veblkGet o => some { kind := .eblkGet, o := o, x := fun s => some (s.sreg o.x.toNat), unit := 4, pool := true }
  | .veblkPut o => some { kind := .eblkPut, o := o, x := fun s => some (s.sreg o.x.toNat), unit := 4, pool := true }
  | _ => none

/-- Every byte of a range in the cluster form lies in the allocation of its block (R112). -/
def RangeOk (s : State) (va len : Nat) : Prop :=
  va + len ≤ 2 ^ 23
    ∧ ∀ a, va ≤ a → a < va + len → ∃ b, s.cblk.cluster[a / 2 ^ 21]? = some b ∧ a % 2 ^ 21 < (s.block b).spAlloc

/-- The engine of a command: the copy engine of the core's pair, or one of the four block-transfer engines. -/
def EngineFor (s : State) (pool : Bool) (e : Nat) : Prop :=
  if pool then 216 ≤ e ∧ e < 220 else e = 96 + 6 * (s.cw.core / 12) + s.cw.core % 12 / 2

def CommandForm.len (f : CommandForm) (s : State) : Nat := (s.sreg f.o.z.toNat).toNat
def CommandForm.src (f : CommandForm) (s : State) : Nat := (s.sreg f.o.y.toNat).toNat
def CommandForm.dst (f : CommandForm) (s : State) : Nat := ((f.x s).getD 0).toNat

/-- The operands are multiples of 4 and the length is a multiple of its unit from 1 to 2^32. -/
def CommandForm.aligned (f : CommandForm) (s : State) : Prop :=
  f.src s % 4 = 0 ∧ f.dst s % 4 = 0 ∧ f.len s ≠ 0 ∧ f.len s ≤ 2 ^ 32 ∧ f.len s % f.unit = 0

/-- The scratchpad ranges are valid. -/
def CommandForm.ranges (f : CommandForm) (s : State) : Prop :=
  (f.fromSp = true → RangeOk s (f.src s) (f.len s)) ∧ (f.toSp = true → RangeOk s (f.dst s) (f.len s))

/-- The issuing unit may hand a command out: the guard passes somewhere, the warp's loads have returned, path eng has room. -/
def EngReady (s : State) : Prop := s.cur.guard ≠ 0 ∧ NoLoads s.cw ∧ pathCount s.cw 4 < 63

/-- A command handed out, the last in issue order: its operands, its status register pending, its flag cleared, path eng raised. -/
def CommandIssued (s t : State) (o : EngOp) (kind : CmdKind) (pool : Bool) (x y len : Nat) : Prop :=
  t.cur = { s.cur with cleared := t.cur.cleared } ∧ ∃ c id, t.cmds = s.cmds ++ [c] ∧ (∀ e, e ∈ s.cmds → e.seq < c.seq) ∧ c.kind = kind ∧ c.owner = .warp s.cur.w id ∧ c.x.toNat = x ∧ c.y.toNat = y
    ∧ c.len = len ∧ c.sd = o.sd ∧ c.cf = o.cf ∧ c.ctx = s.cw.ctx ∧ c.blk = s.cw.blk ∧ c.stage = .issued ∧ c.pos = 0
    ∧ EngineFor s pool c.engine ∧ (o.sd.toNat, id) ∈ t.cw.spend ∧ pathCount t.cw 4 = pathCount s.cw 4 + 1
    ∧ (∀ k, k < 12 → t.arch.flags.getLsbD k = (s.arch.flags.getLsbD k && k != o.cf.toNat))
    ∧ (∀ e, e ∈ s.cw.accs → e.lanes &&& s.unit.lanes ≠ 0 → e.kind ≠ .loadFe → (∀ b sc, e.kind ≠ .arrive b sc) → e.id ∈ c.waits)
    ∧ DataKept s t ∧ ∀ v, v ≠ s.cur.w → t.warp v = s.warp v

/-! ### Completion (R172, R173) -/

/-- The command is gone, and every other is as before, but that a step may arm or start on the chunk counter that it named (R170). -/
def CommandGone (s t : State) (k : Nat) (c : Cmd) : Prop :=
  ∀ j : Nat, t.cmds[j]? = (dropAt s.cmds k)[j]? ∨ ∃ e st ctr, c.kind = .epkt true ctr ∧ onCounter c.blk ctr e = true
    ∧ (dropAt s.cmds k)[j]? = some e ∧ t.cmds[j]? = some { e with stage := st }

/-- A command of a warp has ended: it is gone, its status stands in SD, its flag is set and its register no longer pending. -/
def CommandEnded (s t : State) (k : Nat) (c : Cmd) (st info : Nat) : Prop :=
  CommandGone s t k c ∧ ∀ w id x, c.owner = .warp w id → Sparse.find s.warps w = some x →
    ((t.warp w).arch.getS c.sd.toNat).toNat = st * 2 ^ 56 + info % 2 ^ 56
      ∧ (∀ r, r ≠ c.sd.toNat → (t.warp w).arch.getS r = x.arch.getS r)
      ∧ (c.cf.toNat < 12 → (t.warp w).arch.flags.getLsbD c.cf.toNat = true)
      ∧ (∀ r, (r, id) ∉ (t.warp w).spend) ∧ (t.warp w).arch.vregs = x.arch.vregs ∧ (t.warp w).arch.preds = x.arch.preds

/-- No sector of a command stays pinned. -/
def Unpinned (s t : State) (c : Cmd) : Prop := ∀ p, p ∈ t.tok.pins → ¬ (p.agent = engineAgent s c.engine ∧ p.sector ∈ c.pins)

/-- A chunk counter that no step waits to arm has risen by one, up to 65,535 (R168, R170). -/
def raised (c : ChunkCtr) : ChunkCtr := { c with count := if c.count = 65535 then 65535 else c.count + 1 }

/-! ### Rounds (R290) -/

/-- The word 0 of a channel pair's object can be read under a token now (R267, R289). -/
def ObjectReadable (s : State) (pair : Nat) : Prop :=
  ∀ o da, commOf s pair = some o → domainAddr s.sys o.base = some da → canRead s (objectAgent s (da / 64)) (da / 64) = true

/-- The tables that place a packet's destination at a receiving module can be read under tokens now, and neither they nor the object
of its pair stand in a sector that the packet writes (R267, R288). -/
def HopReads (s : State) (p : Packet) (o : CommObject) (written : List Nat) : Prop :=
  (∀ sec, sec ∈ chunkTables s o.ctx p.dstc.toNat p.payload.length → canRead s (hopAgent s p) sec = true ∧ sec ∉ written)
    ∧ ∀ da, domainAddr s.sys o.base = some da → da / 64 ∉ written

/-- A round message goes out: into this module's own inputs, or onto the link that leads to its receiver. -/
def RoundSent (s t : State) (type : BitVec 3) (m : RoundMsg) : Prop :=
  if m.dst = s.sys.modid then (type, m) ∈ t.roundMsgs else .round type m ∈ (t.link (Config.linkTo m.dst.toNat % 24)).queue

/-- The reply to a message. -/
def replyTo (s : State) (m : RoundMsg) (dst : BitVec 3) : RoundMsg := ⟨s.sys.modid, dst, m.pair, m.version, m.mask⟩

/-- The step in an agreement round that a message answers. -/
def InRound (s : State) (m : RoundMsg) (k : Nat) (c : Cmd) (r : Round) : Prop :=
  s.cmds[k]? = some c ∧ c.round = some r ∧ r.pair = m.pair ∧ r.version = m.version
    ∧ ∀ j e q, j < k → s.cmds[j]? = some e → e.round = some q → ¬ (q.pair = m.pair ∧ q.version = m.version)

/-- The home of a domain address holds every token of its sector, and nothing stands in its way. -/
def HomeHasAll (s : State) (da : Nat) : Prop :=
  let home := homeAgent s.sys (da / 64 * 64)
  isHomeOf s home (da / 64) = true ∧ (holding s home (da / 64)).tokens = 2048 ∧ blockedFor s home (da / 64) = false
    ∧ isPending s home (da / 64) = false
    ∧ (∀ p, p ∈ s.tok.pins → p.sector ≠ da / 64) ∧ (∀ f, f ∈ s.tok.flights → f.msg.sector ≠ da / 64)
    ∧ ∀ e, e ∈ s.tok.held → e.1 % 2 ^ 46 ≠ da / 64

/-! ### Packets (R287, R288, R291) -/

def entryField (p : Packet) (lo n : Nat) : Nat := (p.ops.extractLsb' lo n).toNat

/-- The packet with its next entry popped. -/
def popped (p : Packet) : Packet := { p with ops := p.ops >>> 16, nrem := p.nrem - 1 }

/-- The status word after a write or combine (R291). -/
def statusAfter (old : W64) (members own contrib : BitVec 8) (version : BitVec 32) (red final : Bool) : W64 :=
  let held : BitVec 8 := if old.extractLsb' 8 2 = 0 then own else old.extractLsb' 0 8
  let c : BitVec 8 := if red then held ||| contrib else contrib
  let state : BitVec 2 := if (final && !red) || c == members then 2 else 1
  version ++ (0 : BitVec 22) ++ state ++ c

/-- A byte of an agent's holding of a sector, by domain address. -/
def heldByte (s : State) (agent : BitVec 13) (a : Nat) : Byte := (holding s agent (a / 64)).data.extractLsb' (8 * (a % 64)) 8

end Sys2Proof.Claim
end

