-- ==== Sys2Proof/Certificates/Slice0/ClaimSystem.lean ====
section
/-! DEFINITION. What the rules say of names at the table, of the harts, of blocks and grids, and of the sectors that a writer
holds whole, as plain functions. -/

namespace Sys2Proof.Claim

open Machine

/-! ### A writer with every token (R268, R270) -/

/-- The agent, which is no home, holds every token of the sector of `da`, and nothing stands in its way. -/
def OwnsAll (s : State) (agent : BitVec 13) (da : Nat) : Prop :=
  collectAll s agent (da / 64) = some s ∧ isHomeOf s agent (da / 64) = false

/-- A store by the agent at a virtual address leads to `da` (R236, R242): the tables that place it are read under tokens that the agent
takes (R267), and it then holds every token of the sector. -/
def StorePlaced (s : State) (agent : BitVec 13) (ctx : BitVec 12) (va da : Nat) : Prop :=
  ∃ u ros, readUnderTokens s agent (walkSectors s ctx va) = (true, u) ∧ translatePure u ctx va .store = .ok da ros ∧ OwnsAll u agent da

/-- The agent holds these bytes at a domain address. -/
def Holds (s : State) (agent : BitVec 13) (da : Nat) (bs : List Byte) : Prop :=
  ∀ j, j < bs.length → some (heldByte s agent (da + j)) = bs[j]?

/-! ### Names (R179, R259 to R266) -/

/-- The name was handed out by this chip. -/
def KnownName (s : State) (n : BitVec 128) : Prop :=
  n.extractLsb' 64 64 = s.names.chip.setWidth 64 ∧ (n.extractLsb' 0 64).toNat < s.names.next.toNat

/-- The kinds that an asker may create (R179, R266). -/
def MayCreate (s : State) (o : NameOp) : Prop :=
  let kind := (o.b0.extractLsb' 56 8).toNat
  kind = 2 ∨ kind = 7 ∨ ((∃ h, o.asker = .port h) ∧ partOf s o.ctx = 0 ∧ 1 ≤ kind ∧ kind ≤ 7)

/-- A body's right. -/
def HasRight (w1 : W64) (k : Nat) : Prop := w1.getLsbD (40 + k) = true

/-- The context may delete (right 3) or replace (right 4) the entry. -/
def MayChange (s : State) (ctx : BitVec 12) (e : NameEntry) (right : Nat) : Prop :=
  isPrivileged s ctx = true ∨ (mayUse s ctx e = true ∧ HasRight e.w1 right)

/-- A body word 1 under another generation, RIGHTS bits 5 to 7 zero (R178). -/
def UnderGen (w new : W64) (gen : BitVec 16) : Prop :=
  w.extractLsb' 48 16 = gen ∧ w.extractLsb' 45 3 = 0 ∧ w.extractLsb' 0 45 = new.extractLsb' 0 45

/-- The agent that stores an operation's words: the asking warp's core or the asking hart's cache. -/
def askerAgent (s : State) (o : NameOp) : BitVec 13 :=
  match o.asker with
  | .warp w _ _ => coreAgent s (s.warp w).core
  | .port h => ownAgent s.sys (152 + h % 64)
  | .hub => 0

/-- The 16 bytes that an operation stores lie in one sector, which the asker's agent owns whole. -/
def StoresAt (s : State) (o : NameOp) (da : Nat) : Prop :=
  o.out = some (da, da + 8) ∧ da % 64 + 16 ≤ 64 ∧ OwnsAll s (askerAgent s o) da

/-- The operation holds the name at NPA and the bodies at NPB (R266). -/
def HasOperands (s : State) (p : NamePort) (o : NameOp) : Prop :=
  o.name = BitVec.ofNat 128 (leValue (leSplit 8 (physWord s p.npa.toNat) ++ leSplit 8 (physWord s (p.npa.toNat + 8))))
    ∧ o.b0 = BitVec.ofNat 64 (physWord s p.npb.toNat) ∧ o.b1 = BitVec.ofNat 64 (physWord s (p.npb.toNat + 8))
    ∧ o.n0 = BitVec.ofNat 64 (physWord s (p.npb.toNat + 16)) ∧ o.n1 = BitVec.ofNat 64 (physWord s (p.npb.toNat + 24)) ∧ o.fetch = false

/-- The operation of the event is gone and its asker has its answer: the status, and the body words of a look. -/
def NameAnswered (s t : State) (o : NameOp) (st : Nat) (body : Option (W64 × W64)) : Prop :=
  t.names.ops = dropAt s.names.ops s.ev.k
    ∧ (∀ w id sd x, o.asker = .warp w id sd → Sparse.find s.warps w = some x →
        (t.warp w).arch.getS sd.toNat = BitVec.ofNat 64 (st * 2 ^ 56)
        ∧ (∀ v, body = some v → (t.warp w).arch.getS (sd.toNat + 1) = v.1 ∧ (t.warp w).arch.getS (sd.toNat + 2) = v.2)
        ∧ (∀ r, r ≠ sd.toNat → (body = none ∨ (r ≠ sd.toNat + 1 ∧ r ≠ sd.toNat + 2)) →
            (t.warp w).arch.getS r = x.arch.getS r)
        ∧ (∀ r, (r, id) ∉ (t.warp w).spend) ∧ (t.warp w).arch.vregs = x.arch.vregs ∧ (t.warp w).arch.preds = x.arch.preds)
    ∧ ∀ h, o.asker = .port h → (t.port h).npst = BitVec.ofNat 64 (st * 2 ^ 56)
        ∧ ∀ v, body = some v → (t.port h).npw0 = v.1 ∧ (t.port h).npw1 = v.2

/-- Neither the table nor memory has changed. -/
def TableKept (s t : State) : Prop := t.names.table = s.names.table ∧ t.names.next = s.names.next ∧ MemoryKept s t

/-! ### Harts (R4, R221, R232, R256) -/

/-- The hart's register `d` receives `v`; x0 discards it. The other registers and harts are as before. -/
def HartWrote (s t : State) (h : Nat) (d : BitVec 5) (v : W64) : Prop :=
  (∀ r : BitVec 5, (t.hart h).get r = if r = d ∧ d ≠ 0 then v else (s.hart h).get r) ∧ ∀ k, k ≠ h → t.hart k = s.hart k

/-- A status as a hart reads it. -/
def hartStatus (st : Nat) : W64 := BitVec.ofNat 64 (st * 2 ^ 56)

/-- A 16-byte name is readable at an address of the bound context. -/
def NameRead (s : State) (ctx : BitVec 12) (va : Nat) (n : BitVec 128) : Prop :=
  va % 16 = 0 ∧ ∃ bs, readVirtual s ctx va 16 = some bs ∧ n = BitVec.ofNat 128 (leValue bs)

/-- A grid joins the queue of its context and class (R232, R233). -/
def GridQueued (s t : State) (ctx : BitVec 12) (r : LaunchRec) (parent : GridParent) (doneVal s0 : W64) : Prop :=
  ∃ g, Sparse.find t.grids s.nextId = some g ∧ g.ctx = ctx ∧ g.launch = r ∧ g.parent = parent ∧ g.doneVal = doneVal ∧ g.s0 = s0
    ∧ g.dispatched = 0 ∧ g.ended = 0 ∧ g.completed = false ∧ queueOf t ctx r.prio = queueOf s ctx r.prio ++ [s.nextId]

/-- The unit is parked on a page fault. -/
def parkedUnit (v : IUnit) : Bool := match v.hold with
  | .fault _ => true
  | _ => false

/-- A warp of the context whose block is on a core. -/
def onCore (s : State) (ctx : BitVec 12) (x : Warp) : Bool :=
  x.ctx == ctx && ((s.block x.blk).status == .resident || (s.block x.blk).status == .stopping)

/-- The units and commands of a context that are parked (R256, R258). -/
def parkedCount (s : State) (ctx : BitVec 12) : Nat :=
  ((s.warps.filter (fun e => onCore s ctx e.2)).map (fun e => (e.2.arch.units ++ e.2.arch.stack).countP parkedUnit)).sum
    + s.cmds.countP (fun c => c.ctx == ctx && c.parked)

/-- A hart may perform an access of `n` bytes at `pa`, which lie in one sector: no store of its own that waits touches them, and its
cache has the tokens. -/
def HartMay (s : State) (h pa n da : Nat) (write : Bool) : Prop :=
  h < 64 ∧ (s.sys.span = .service ∨ s.sys.span = .bringUp) ∧ (∀ op, (s.hart h).wait = some op → op = s.ev.hartOp)
    ∧ domainAddr s.sys pa = some da ∧ da % 64 + n ≤ 64 ∧ isHomeOf s (hartAgent s h) (da / 64) = false
    ∧ bufferTouches (s.hart h).buffer da n = false
    ∧ satisfied s (hartAgent s h) (da / 64) write = true ∧ (holding s (hartAgent s h) (da / 64)).poison = false

/-- Nothing that a release at `.d` of a hart waits for is open (R221, R266). -/
def HartReleases (s : State) (h : Nat) : Prop := (s.hart h).buffer = [] ∧ (s.port h).npst.extractLsb' 56 8 ≠ 255

/-- The hart stands at no access; its registers and the other harts are as before. -/
def HartPassed (s t : State) (h : Nat) : Prop := t.hart h = { s.hart h with wait := none } ∧ ∀ k, k ≠ h → t.hart k = s.hart k

/-- The bytes that the hart's cache holds, as a number. -/
def cacheRead (s : State) (h da n : Nat) : Nat := leValue (bytesAt (heldByte s (hartAgent s h)) da n)

/-- A value of `n` bytes extended to a register. -/
def extended (n : Nat) (sign : Bool) (v : Nat) : W64 :=
  if sign then (BitVec.ofNat (8 * n) v).signExtend 64 else (BitVec.ofNat (8 * n) v).setWidth 64

/-- The new value of an atomic operation of a hart. -/
def amoResult (op : BitVec 4) (w : Nat) (old v : BitVec w) : BitVec w :=
  match op.toNat with
  | 0 => v
  | 1 => old + v
  | 2 => old ^^^ v
  | 3 => old &&& v
  | 4 => old ||| v
  | 5 => if v.slt old then v else old
  | 6 => if old.slt v then v else old
  | 7 => if v.ult old then v else old
  | _ => if old.ult v then v else old

/-- The hart's cache holds `n` new bytes at `da`, and every other byte that it holds is as before. -/
def HartStored (s t : State) (h da n v : Nat) : Prop :=
  cacheRead t h da n = v % 2 ^ (8 * n)
    ∧ ∀ a, ¬ (da ≤ a ∧ a < da + n) → heldByte t (hartAgent s h) a = heldByte s (hartAgent s h) a

/-! ### Blocks (R234 to R244, R306 to R310) -/

/-- A core in service on an ashlar that PLACE allows has warp slots, scratchpad, FIFOs and counters free for a block (R234). -/
def RoomOn (s : State) (need : CoreNeed) (core : Nat) : Prop :=
  let rs := (s.blocks.filter (fun e => e.2.core == core && (e.2.status == .resident || e.2.status == .stopping))).map (·.2)
  (s.core core).fenced = false ∧ s.sys.pass.getLsbD (core / 4) = true ∧ (need.place = 0 ∨ need.place.getLsbD (core / 12) = true)
    ∧ need.nwarps + (rs.map (·.nwarps)).sum ≤ 48 ∧ need.sp + (rs.map (·.spAlloc)).sum ≤ 0x180000
    ∧ ∀ b, b ∈ rs → b.fifoSet &&& need.fifos = 0 ∧ b.ctrSet &&& need.ctrs = 0

/-- Blocks of a grid have been placed on these cores, in order, with the warps that R235 describes. -/
def NewBlocks (t : State) (gid : Nat) (g : Grid) (cores : List Nat) : Prop :=
  (∃ g', Sparse.find t.grids gid = some g' ∧ g'.dispatched = g.dispatched + cores.length)
    ∧ ∀ k core, cores[k]? = some core → ∃ blk b, Sparse.find t.blocks blk = some b ∧ b.grid = gid ∧ b.idx = g.dispatched + k
      ∧ b.core = core ∧ b.ctx = g.ctx ∧ b.status = .resident ∧ b.spAlloc = g.launch.spAlloc ∧ b.fifoSet = g.launch.fifos
      ∧ b.ctrSet = g.launch.ctrs ∧ b.cluster.length = cores.length
      ∧ ∀ i, i ≤ g.launch.warpM1.toNat → ∃ x, Sparse.find t.warps (16 * blk + i) = some x ∧ x.blk = blk ∧ x.idx = i ∧ x.core = core
          ∧ x.ctx = g.ctx ∧ x.nply = g.launch.plyM1.toNat + 1 ∧ x.arch.live = BitVec.ofNat 64 (2 ^ (g.launch.liveM1.toNat + 1) - 1)
          ∧ (∀ r, x.arch.getS r = if r = 0 then g.s0 else 0) ∧ x.arch.vregs = [] ∧ x.arch.acc = [] ∧ x.arch.fmt = [] ∧ x.arch.nstat = 0

/-- Every queued launch has its copy of the data segment (R28). -/
def DataCopied (s : State) : Prop :=
  ∀ q gid g, q ∈ s.queues → gid ∈ q.2 → Sparse.find s.grids gid = some g → g.copy = .whole

/-- The command keeps its block: every one but an EFILL at a 32-byte boundary (R174, R238). -/
def KeepsBlock (c : Cmd) : Prop := ¬ ∃ a f, c.kind = .efill a f ∧ c.pos % 32 = 0 ∧ c.stage ≠ .issued

/-- An LDF or STE whose lanes only wait. -/
def OnlyWaits (c : Access) : Prop := (c.kind = .loadFe ∨ c.kind = .storeFe) ∧ c.stage = .waiting ∧ c.got = []

/-- What a stopping block must let complete has completed (R238). -/
def Drained (s : State) (blk : Nat) : Prop :=
  (∀ e, e ∈ s.warps → e.2.blk = blk → e.2.ended = true ∨ (e.2.acks = 0 ∧ ∀ c, c ∈ e.2.accs → OnlyWaits c))
    ∧ (∀ m, m ∈ (s.block blk).mq → m.started = false)
    ∧ (∀ o w id sd, o ∈ s.names.ops → o.asker = .warp w id sd → (s.warp w).blk ≠ blk)
    ∧ ((s.block blk).cut = true ∨ ∀ c w id, c ∈ s.cmds → c.owner = .warp w id → c.blk = blk → ¬ KeepsBlock c)

/-- Every resident warp of a context, and there is one, has every unit in a wait that counts for donation (R190, R241);
what stands in a stack holds no unit. -/
def Waits (s : State) (ctx : BitVec 12) : Prop :=
  residentWarps s ctx ≠ [] ∧ ∀ e, e ∈ residentWarps s ctx → e.2.arch.live ≠ 0
    ∧ ∀ v, v ∈ e.2.arch.units → countsForDonation v = true

/-- The blocks of a context end, or stop to be cut (R244). -/
def CutOff (s t : State) (ctx : BitVec 12) : Prop :=
  ∀ k b, Sparse.find s.blocks k = some b → b.ctx = ctx → b.status ≠ .ended →
    ((b.status = .saved ∨ b.status = .ready ∨ b.status = .suspended) → (t.block k).status = .ended)
    ∧ ((b.status = .resident ∨ b.status = .stopping) → (t.block k).status = .stopping ∧ (t.block k).cut = true)

/-! ### Task graphs (R242, R243) -/

/-- A node of the graph. -/
def nodeOf (s : State) (gid n : Nat) (g : Graph) (v : NodeState) : Prop :=
  Sparse.find s.graphs gid = some g ∧ g.nodes[n]? = some v

/-- Node `n` runs: its count stands at NPRED again, and its work may already have ended. -/
def NodeRuns (t : State) (gid n : Nat) (v : NodeState) (res : Option W64) : Prop :=
  ∃ g w, nodeOf t gid n g w ∧ w.running = true ∧ w.ready = false ∧ w.count = v.npred ∧ w.result = res

/-- The nodes that the edges of a node go to, and how many of them to node `j`. -/
def edgesTo (r : NodeRec) (cond : Bool) (j : Nat) : Nat :=
  let all := if r.type = 4 ∨ r.type = 5 then [if cond then r.succ.headD 0xFFFF else (r.succ.drop 1).headD 0xFFFF] else r.succ
  if j = 0xFFFF then 0 else all.count j

end Sys2Proof.Claim
end

