-- ==== Sys2Proof/Certificates/Slice0/ClaimTokens.lean ====
section
/-! DEFINITION. What the rules say of token messages, persistent requests and the census (R267 to R279, R316 to R319), as plain
functions. -/

namespace Sys2Proof.Claim

open Machine

/-! ### Messages (R270) -/

/-- The state once agent `ev.agent` has taken flight `ev.k`. -/
def received (s : State) (f : Flight) : State :=
  let rest := f.dests.erase s.ev.agent
  { s with tok := { s.tok with flights := if rest = [] then dropAt s.tok.flights s.ev.k else setAt s.tok.flights s.ev.k { f with dests := rest } } }

/-- The link layer refuses the message at agent `ev.agent`: a PRQ of the same source is held at its input (R276). -/
def Refused (s : State) (f : Flight) : Prop :=
  f.held = false ∧ ∃ e, e ∈ s.tok.flights ∧ e.held = true ∧ e.msg.src = f.msg.src ∧ s.ev.agent ∈ e.dests

/-- A message of a type reaches agent `a`. -/
def Arrives (s : State) (f : Flight) (type : BitVec 8) : Prop :=
  s.tok.flights[s.ev.k]? = some f ∧ s.ev.agent ∈ f.dests ∧ f.msg.type = type ∧ ¬ Refused s f

/-- Flight `k` is the PRQ that the home takes: the event's, or, where all those under way for its sector reach the home in one cycle,
the one that ranks before every other (R277). -/
def PrqTaken (s : State) (k : Nat) (f : Flight) : Prop :=
  s.tok.flights[k]? = some f ∧ s.ev.agent ∈ f.dests ∧ f.msg.type = 0x10 ∧ ¬ Refused s f
    ∧ (s.ev.flag = false → k = s.ev.k)
    ∧ (s.ev.flag = true → (∃ e, s.tok.flights[s.ev.k]? = some e ∧ e.msg.sector = f.msg.sector)
        ∧ ∀ j e, j ≠ k → s.tok.flights[j]? = some e → s.ev.agent ∈ e.dests → e.msg.type = 0x10 → e.msg.sector = f.msg.sector →
          f.msg.tc.toNat < e.msg.tc.toNat ∨ (f.msg.tc = e.msg.tc ∧ f.msg.src.toNat < e.msg.src.toNat))

/-- It is well formed: an owner token comes with data (R271). -/
def Proper (f : Flight) : Prop := f.msg.owner = true → f.msg.data ≠ none

/-- A message to one agent is on its way. -/
def MsgSent (s t : State) (m : Msg) : Prop :=
  if isOwnAgent s.sys m.dst then ∃ g, g ∈ t.tok.flights ∧ g.msg = m ∧ m.dst ∈ g.dests
  else .token m ∈ (t.link (Config.linkTo (m.dst.toNat / 1024) % 24)).queue

/-- A message to every agent of the domain but its sender is on its way. -/
def Broadcast (s t : State) (home : BitVec 13) (m : Msg) : Prop :=
  let b := { m with dst := 0x1FFF }
  (∃ g, g ∈ t.tok.flights ∧ g.msg = b ∧ ∀ a, a ∈ ownAgents s → a ≠ home → a ∈ g.dests)
    ∧ ∀ k, k ∈ otherModules s → .token b ∈ (t.link (Config.linkTo k % 24)).queue

/-- `n` tokens of what an agent holds, with or without the owner and its data, as a message (R272). -/
def tokensMsg (s : State) (a dst : BitVec 13) (sec : Nat) (type : BitVec 8) (n : Nat) (owner data : Bool) (reqid : BitVec 16)
    (tc : BitVec 2) : Msg :=
  let h := holding s a sec
  { type := type, reqid := reqid, sector := sec, dst := dst, src := a, count := BitVec.ofNat 11 (n - if owner then 1 else 0),
    data := if data then some h.data else none, tc := tc, dirty := h.dirty && owner, owner := owner, serial := serialOf s sec,
    poison := h.poison }

/-- Everything an agent holds of a sector goes to `dst`: TKD with the owner, else TOK. -/
def GaveAll (s t : State) (a dst : BitVec 13) (sec : Nat) (reqid : BitVec 16) (tc : BitVec 2) : Prop :=
  let h := holding s a sec
  (holding t a sec).tokens = 0 ∧ MsgSent s t (tokensMsg s a dst sec (if h.owner then 4 else 3) h.tokens h.owner h.owner reqid tc)

/-- The agent is no second-level TLB: it surrenders its tokens at once (R250, R273). -/
def NoTlb (a : BitVec 13) : Prop := a.toNat % 1024 < 144 ∨ 152 ≤ a.toNat % 1024

/-- A control message of the protocol. -/
def control (type : BitVec 8) (sec : Nat) (src dst : BitVec 13) (reqid : BitVec 16) (tc : BitVec 2) (count : BitVec 11) : Msg :=
  { type := type, reqid := reqid, sector := sec, dst := dst, src := src, count := count, data := none, tc := tc, dirty := false,
    owner := false, serial := 0, poison := false }

/-- The home of a sector. -/
def homeOf (s : State) (sec : Nat) : BitVec 13 := homeAgent s.sys (sec * 64)

/-! ### Persistent requests (R276 to R278) -/

/-- A request ranks at least as high as another: lower class, then lower agent number. -/
def RanksFirst (p q : PersistReq) : Prop := p.tc.toNat < q.tc.toNat ∨ (p.tc = q.tc ∧ p.agent.toNat ≤ q.agent.toNat)

/-- A request of a sector has been activated at its home: its entry, the next number, PAC to every agent, and the home's tokens. -/
def Activated (s t : State) (sec : Nat) (p : PersistReq) (queue : List PersistReq) : Prop :=
  let home := homeOf s sec
  let n := Sparse.get 0 s.tok.actNo sec + 1
  (∃ e, e ∈ t.tok.persist ∧ e.sector = sec ∧ e.winner = p ∧ e.act = n ∧ e.since = s.now ∧ e.queue = queue)
    ∧ (∀ e, e ∈ t.tok.persist → e.sector = sec → e.winner = p)
    ∧ Sparse.get 0 t.tok.actNo sec = n ∧ (actState t home sec).winner = some p.agent ∧ (actState t home sec).last = some n
    ∧ Broadcast s t home (control 0x12 sec p.agent 0 p.reqid p.tc n)
    ∧ (p.agent ≠ home → (actState s home sec).frozen = false → pins s home sec = false → 0 < (holding s home sec).tokens →
        GaveAll s t home p.agent sec p.reqid p.tc)

/-- An activation number is later than the last one applied. -/
def Later (last : Option (BitVec 11)) (n : BitVec 11) : Prop :=
  ∀ l, last = some l → 1 ≤ (n - l).toNat ∧ (n - l).toNat < 1024

/-! ### Census (R316 to R319) -/

/-- A census asks every agent of the domain what it holds. -/
def CensusAsked (s t : State) (sec round : Nat) (phase : CensusPhase) : Prop :=
  let home := homeOf s sec
  (∃ c, c ∈ t.tok.census ∧ c.sector = sec ∧ c.phase = phase ∧ c.n = 0 ∧ c.owners = 0 ∧ ∀ a, a ∈ ownAgents s → a ≠ home → a ∈ c.waiting)
    ∧ Broadcast s t home { control 0x20 sec home 0 0 0 (BitVec.ofNat 11 round) with serial := serialOf s sec }

/-- What starts a census (R316). -/
def CensusDue (s : State) (sec : Nat) : Prop :=
  (Sparse.get ({} : HomeMeta) s.tok.homes sec).badParity = true
    ∨ ∃ e, e ∈ s.tok.persist ∧ e.sector = sec ∧ e.since + 20000 ≤ s.now

/-- What puts it off (R319): a recreation of the sector, or four of its home, within 100 µs. -/
def PutOff (s : State) (sec : Nat) : Prop :=
  (∃ e, e ∈ s.tok.recreated ∧ e.1 = sec ∧ s.now < e.2 + 100000)
    ∨ 4 ≤ (s.tok.recreated.filter (fun e => decide (s.now < e.2 + 100000) && homeOf s e.1 == homeOf s sec)).length

/-- The only census of a sector. -/
def OnlyCensus (s : State) (sec : Nat) (c : Census) : Prop := s.tok.census.find? (fun c => c.sector == sec) = some c

end Sys2Proof.Claim
end

