-- ==== Sys2Proof/Certificates/Slice0/ClaimHost.lean ====
section
/-! DEFINITION. What the rules say of black-box records, links, bring-up, the side-band port and the host (R7 to R10, R300 to
R302, R320 to R328, R333 to R343), as plain functions. -/

namespace Sys2Proof.Claim

open Machine

/-- One record has been written, with this type, severity and address (R323, R324). -/
def Recorded (s t : State) (type sev : Nat) (addr : W64) : Prop :=
  let r := Sparse.get ({} : BoxRecord) t.sys.box (s.sys.boxHead.toNat % 65536)
  t.sys.boxHead = s.sys.boxHead + 1 ∧ (r.w1.extractLsb' 0 14).toNat = type ∧ (r.w1.extractLsb' 14 2).toNat = sev
    ∧ r.w1.extractLsb' 48 16 = s.sys.epoch ∧ r.w2 = addr ∧ (r.w0.getLsbD 63 = true ↔ s.sys.span ≠ .service)

/-- The links of the module work (R7). -/
def LinksWork (s : State) : Prop := s.sys.span = .service ∨ s.sys.span = .bringUp

/-- An injector's word 0 after a write (R328), in the service span or another. -/
def InjectorWord (service : Prop) (old v w : W64) : Prop :=
  w.extractLsb' 48 7 = v.extractLsb' 48 7 ∧ w.extractLsb' 40 8 = v.extractLsb' 40 8
    ∧ (w.getLsbD 63 = true ↔ service ∧ v.getLsbD 63 = true ∧ 1 ≤ (v.extractLsb' 48 7).toNat ∧ (v.extractLsb' 48 7).toNat ≤ 100)
    ∧ (w.getLsbD 62 = true ↔ old.getLsbD 62 = true ∧ v.getLsbD 62 = false)
    ∧ w.extractLsb' 0 40 = 0 ∧ w.extractLsb' 55 7 = 0

/-- The links other than `l` are as before. -/
def InjectorSet (s t : State) (l : Nat) : Prop := ∀ k, k ≠ l → t.link k = s.link k

/-- What MODSTAT holds (R335). -/
def ModstatHolds (s : State) (v : W64) : Prop :=
  (s.sys.clk < 65536 → (v.extractLsb' 48 16).toNat = s.sys.clk) ∧ v.extractLsb' 44 4 = 0 ∧ v.getLsbD 43 = s.sys.therm
    ∧ v.getLsbD 42 = s.sys.mainPg ∧ v.getLsbD 41 = s.sys.auxPg ∧ v.getLsbD 40 = s.sys.perst ∧ v.extractLsb' 35 5 = 0
    ∧ v.extractLsb' 32 3 = s.sys.modid ∧ v.extractLsb' 16 16 = s.sys.epoch ∧ v.extractLsb' 3 13 = 0 ∧ v.getLsbD 2 = s.sys.dllc
    ∧ v.extractLsb' 0 2 = (match s.sys.span with
      | .auxiliary => 0
      | .bringUp => 1
      | .service => 2
      | .recovery => 3)

/-- What the fault registers of a core hold at an offset of its block (R254, R255). -/
def FaultRegisterHolds (k : Core) (off : Nat) (v : W64) : Prop :=
  (off = 0 → k.faults.length ≤ 8 → v.toNat = 256 * (k.faults.filter (·.valid)).length + if k.dropped then 1 else 0)
    ∧ ∀ e x, e < 8 → k.faults[e]? = some x →
      (off = 16 + 16 * e → v.getLsbD 63 = x.valid ∧ v.extractLsb' 61 2 = x.kind ∧ v.extractLsb' 56 5 = 0
        ∧ v.extractLsb' 16 40 = x.region ∧ v.extractLsb' 12 4 = 0 ∧ v.extractLsb' 0 12 = x.ctx)
      ∧ (off = 24 + 16 * e → v.extractLsb' 32 32 = 0 ∧ v.extractLsb' 16 16 = x.count ∧ v.extractLsb' 12 4 = 0
        ∧ v.extractLsb' 0 12 = x.cores)

/-- What a register of the control window holds for a supervisor hart (R246, R254, R255, R266, R289, R314, R323, R328, R335). -/
def WindowHolds (s : State) (hart : Hart) (off : Nat) (v : W64) : Prop :=
  (off = 0 → v = s.sys.ctxBase) ∧ (off = 8 → v = s.names.reclaim)
    ∧ (off = 0x10 → v = s.names.recHead.setWidth 64) ∧ (off = 0x18 → v = s.names.recTail.setWidth 64)
    ∧ (∀ g o, g < 96 → o < 0x100 → off = 0x10000 + 0x100 * g + o → FaultRegisterHolds (s.core g) o v)
    ∧ (∀ p, p < 64 →
      (off = 0x20000 + 0x40 * p → v = (s.port p).npcmd) ∧ (off = 0x20008 + 0x40 * p → v = (s.port p).npa)
      ∧ (off = 0x20010 + 0x40 * p → v = (s.port p).npb) ∧ (off = 0x20018 + 0x40 * p → v = (s.port p).npst)
      ∧ (off = 0x20020 + 0x40 * p → v = (s.port p).npw0) ∧ (off = 0x20028 + 0x40 * p → v = (s.port p).npw1))
    ∧ (∀ p, p < 16 → off = 0x30000 + 8 * p → v = Sparse.get 0 s.sys.channels p)
    ∧ (off = 0x40000 → v = s.sys.audctl)
    ∧ (off = 0x40008 → v.extractLsb' 32 32 = s.sys.audSkip ∧ v.extractLsb' 0 32 = s.sys.audDone)
    ∧ (off = 0x50000 → v = s.sys.boxHead.setWidth 64)
    ∧ (∀ l, l < 24 → osHart hart = true →
      (off = 0x60000 + 16 * l → v = (s.link l).inj.w0) ∧ (off = 0x60008 + 16 * l → v = (s.link l).inj.w1))
    ∧ (off = 0x70000 → ModstatHolds s v) ∧ (off = 0x70008 → v = s.sys.capw.setWidth 64)
    ∧ ∀ i, i < 65536 → let r := Sparse.get ({} : BoxRecord) s.sys.box i
      (off = 0x400000 + 32 * i → v = r.w0) ∧ (off = 0x400008 + 32 * i → v = r.w1)
      ∧ (off = 0x400010 + 32 * i → v = r.w2) ∧ (off = 0x400018 + 32 * i → v = r.w3)

/-- A register that a hart cannot change (RO of R246, R314, R323, R335). -/
def WindowReadOnly (off : Nat) : Prop :=
  off ∈ [0x10, 0x40008, 0x50000, 0x70000] ∨ (∃ i, i < 0x40000 ∧ off = 0x400000 + 8 * i)
    ∨ (∃ p k, p < 64 ∧ k ∈ [24, 32, 40] ∧ off = 0x20000 + 0x40 * p + k) ∨ ∃ g e, g < 96 ∧ e < 8 ∧ off = 0x10018 + 0x100 * g + 16 * e

/-- What a write of the control window leaves in the register (R12, R246, R254, R255, R266, R289, R314, R328, R335). -/
def WindowWritten (s t : State) (hart : Hart) (off : Nat) (v : W64) : Prop :=
  (off = 0 → t.sys.ctxBase = v &&& ~~~0xFFF) ∧ (off = 8 → t.names.reclaim = v &&& 0x000FFFFFFFFFF001)
    ∧ (off = 0x18 → t.names.recTail = v.extractLsb' 0 12)
    ∧ (∀ g, g < 96 →
      (off = 0x10000 + 0x100 * g → (t.core g).dropped = ((s.core g).dropped && !v.getLsbD 0)
        ∧ (t.core g).faults = (s.core g).faults)
      ∧ ∀ e, e < 8 → off = 0x10010 + 0x100 * g + 16 * e → (t.core g).dropped = (s.core g).dropped
        ∧ ∀ j, (t.core g).faults[j]? = ((s.core g).faults[j]?).map (fun x =>
            if j = e ∧ v.getLsbD 63 = true then { x with valid := false } else x))
    ∧ (∀ p, p < 64 →
      ((s.port p).npst.extractLsb' 56 8 = 255 → (∃ k, k < 64 ∧ off = 0x20000 + 0x40 * p + k) →
        (t.port p) = s.port p ∧ t.names = s.names)
      ∧ ((s.port p).npst.extractLsb' 56 8 ≠ 255 →
        (off = 0x20008 + 0x40 * p → (t.port p) = { s.port p with npa := v } ∧ t.names = s.names)
        ∧ (off = 0x20010 + 0x40 * p → (t.port p) = { s.port p with npb := v } ∧ t.names = s.names)
        ∧ (off = 0x20000 + 0x40 * p → (t.port p).npcmd = v &&& 0x0FFF000F
          ∧ (v.getLsbD 63 = false → (t.port p).npst = (s.port p).npst ∧ t.names = s.names)
          ∧ (v.getLsbD 63 = true → 5 < (v.extractLsb' 0 4).toNat → HasStatus (t.port p).npst 3 ∧ t.names = s.names)
          ∧ (v.getLsbD 63 = true → (v.extractLsb' 0 4).toNat ≤ 5 → (t.port p).npst.extractLsb' 56 8 = 255
            ∧ ∃ o, t.names.ops = s.names.ops ++ [o] ∧ o.asker = .port p ∧ o.ctx = v.extractLsb' 16 12))))
    ∧ (∀ p, p < 16 → off = 0x30000 + 8 * p → Sparse.get 0 t.sys.channels p = v &&& 0x800FFFFFFFFFFFFF)
    ∧ (off = 0x40000 → t.sys.audctl = v &&& 0x800000000000001F)
    ∧ (∀ l, l < 24 →
      (off = 0x60000 + 16 * l → InjectorSet s t l ∧ (t.link l).inj.w1 = (s.link l).inj.w1
        ∧ (osHart hart = true → InjectorWord (s.sys.span = .service) (s.link l).inj.w0 v (t.link l).inj.w0)
        ∧ (osHart hart = false → t.link l = s.link l))
      ∧ (off = 0x60008 + 16 * l → InjectorSet s t l ∧ (t.link l).inj.w0 = (s.link l).inj.w0
        ∧ (osHart hart = true → (t.link l).inj.w1 = (v.extractLsb' 0 46).setWidth 64)
        ∧ (osHart hart = false → t.link l = s.link l)))
    ∧ (off = 0x70008 → t.sys.capw = v.extractLsb' 0 16)

/-- How many sub-arrays of an array are out of service (R312). -/
def outOf (a : ArrayState) : Nat := (List.range 4).countP (fun j => a.fenced.getLsbD j)

/-- The TYPE, ASHLAR and UNIT of a repair record (R321). -/
def RecordOf (r : BitVec 128) (type ashlar unit : Nat) : Prop :=
  (r.extractLsb' 120 8).toNat = type ∧ (r.extractLsb' 116 4).toNat = ashlar ∧ (r.extractLsb' 104 12).toNat = unit

/-- The repair map's records have taken effect (R3, R9, R14, R320, R322): those of the factory section, and those of the field section
where it verifies; a link with records runs with its spare, and one lane fewer for each beyond the first. -/
def MapRead (s t : State) (b : BringUp) : Prop :=
  (∀ r, r ∈ t.sys.repairs ↔ r ∈ s.sys.factory.map (·.2) ∨ (b.fieldGood = true ∧ r ∈ s.sys.fieldMap.map (·.2)))
    ∧ (∀ e, s.sys.factory.find? (fun e => e.2.extractLsb' 120 8 == 9) = some e → t.names.chip = e.2.extractLsb' 0 32)
    ∧ ∀ l, l < 24 → b.links.getLsbD l = true → (∀ r, r ∈ t.sys.repairs → ¬ RecordOf r 6 8 l) →
        (t.link l).lanes = 8 ∧ (t.link l).spareUsed = false

/-- The module is in bring-up with what its steps leave, or in recovery when an image or the map's factory section fails its check (R8,
R9, R265, R322). A core whose self-test fails has its cluster left out, and a record for the next bring-up. -/
def BroughtUp (s t : State) (b : BringUp) : Prop :=
  t.sys.epoch = s.sys.epoch + 1 ∧ t.sys.resetPending = false ∧ t.warps = [] ∧ t.blocks = [] ∧ t.grids = [] ∧ t.cmds = []
    ∧ (∀ k, k < s.sys.fieldCount → Sparse.find t.sys.fieldMap k = Sparse.find s.sys.fieldMap k)
    ∧ (b.failing = [] → b.failingArrays = [] → t.sys.fieldMap = s.sys.fieldMap) ∧ t.sys.factory = s.sys.factory ∧ t.sys.flash = s.sys.flash
    ∧ (t.sys.span = .bringUp ↔ s.sys.flash.firmwareGood = true ∧ b.factoryGood = true ∧ s.sys.flash.osGood = true
        ∧ b.osSignatureGood = true)
    ∧ (t.sys.span = .bringUp ∨ t.sys.span = .recovery)
    ∧ (s.sys.flash.firmwareGood = true → b.factoryGood = true →
      (∀ j, j < 24 → t.sys.pass.getLsbD j = (b.pass.getLsbD j && !b.failing.any (fun c => decide (c < 96) && c / 4 == j)))
        ∧ t.sys.dllc = s.sys.flash.dllc ∧ (∀ l, l < 24 → (t.link l).trained = b.links.getLsbD l) ∧ MapRead s t b
        ∧ t.names.next = s.names.flashEnd ∧ t.names.resEnd = s.names.flashEnd + 0x1000000 ∧ t.names.table = [])

/-- A host request for a physical sector reaches sector `d` of the host-managed range, whose home is the LPDDR6 home (R333, R336). -/
def InHostRange (s : State) (sec d : Nat) : Prop :=
  ∃ base n x, domainSector s.sys sec = some d ∧ s.sys.hostRange = some (base, n) ∧ localAddr s.sys (64 * d) = some x ∧ base ≤ x
    ∧ x < base + n ∧ isHomeOf s (ownAgent s.sys 520) d = true

/-- A reply stands on the side-band port; nothing else has changed. -/
def Replied (s t : State) (code : BitVec 8) (words : List W64) : Prop :=
  t = { s with sys := { s.sys with replies := ⟨code, words⟩ :: s.sys.replies } }

end Sys2Proof.Claim
end

