-- ==== Sys2Proof/Certificates/Slice0/ClaimWhole.lean ====
section
/-! DEFINITION. Bundles as the encoding statements name them. -/

namespace Sys2Proof.Claim

/-- A bundle that has a word of its own: no guard index 15, well-formed slots, no scope bit in a joined bundle, and no guard but
p0 with sense 1 on the operations that allow no other (R38, R52). -/
def Encodable (b : Bundle) : Prop :=
  b.gpred ≠ 15 ∧ b.vector.WellFormed ∧ (b.scalar = none → b.gscope = false)
    ∧ ∀ i, b.scalar = some i → i.WellFormed ∧ (needsPlainGuard i = true → b.gscope = true → b.gpred = 0 ∧ b.gsense = true)

/-- A line that holds only a scalar operation, with no guard written (R23). -/
def scalarLine (i : Instr) : Bundle := ⟨true, 0, true, some i, .vnop 0⟩

/-- A line that holds only a vector operation, with no guard written (R23, R24). -/
def vectorLine (i : Instr) : Bundle := ⟨true, 0, false, some (.snop 0), i⟩

/-- A joined line with no guard written (R23, R24). -/
def joinedLine (i : Instr) : Bundle := ⟨true, 0, false, none, i⟩

end Sys2Proof.Claim
end

