-- ==== Sys2Proof/Certificates/Slice0/Obligations.lean ====
section
/-! DEFINITION. The statements about the model, for the provers. Each is a proposition; the docstring names the rules of spec/
that it formalises. -/

open Sys2Proof Sys2Proof.Machine Sys2Proof.Claim

/-! ### Registers -/

/-- R81, R82, R39: a scalar integer instruction writes its result to sd when its guard is satisfied, and nothing else; when
the guard is not satisfied it leaves the state as it is. -/
def Obligations.ScalarIntegerResults : Prop :=
  ∀ (i : Instr) (d : BitVec 6) (v : State → W64) (s : State), scalarResult i = some (d, v) →
    (s.scalarOn = true → ∃ t, exec i s = .next t ∧ t.sreg d.toNat = v s ∧ OnlyScalar s t d.toNat)
      ∧ (s.scalarOn = false → exec i s = .next s)

/-- R80, R85 to R89, R93: a vector integer instruction writes its fitted result in every lane the issue writes, raises
NSTAT.SAT exactly where a lane is clamped, and changes nothing else. -/
def Obligations.VectorIntegerResults : Prop :=
  ∀ (i : Instr) (d : BitVec 8) (f : State → Nat → W32 × Bool) (s : State), i.WellFormed → vectorResult i = some (d, f) →
    ∃ t, exec i s = .next t ∧ WritesLanes s t d.toNat (fun l => ((f s l).1, if (f s l).2 then nfSat else 0))

/-- R90 to R93, R19: an instruction that writes a predicate writes it in every lane the issue writes; a result for p0 is
discarded; nothing else changes. -/
def Obligations.PredicateResults : Prop :=
  ∀ (i : Instr) (pd : BitVec 4) (f : State → Nat → Bool) (s : State), i.WellFormed → predResult i = some (pd, f) →
    ∃ t, exec i s = .next t ∧ OnlyPred s t pd.toNat
      ∧ (∀ l, hasLane s.written l = true → hasLane (t.pred pd.toNat) l = (pd == 0 || f s l))

/-- R98 to R101: a floating-point instruction writes, in every lane the issue writes, the result of its operation on each
element, raises the flags of those lanes, and changes nothing else. -/
def Obligations.FloatResults : Prop :=
  ∀ (i : Instr) (d : BitVec 8) (f : State → Nat → W32 × NumFlags) (s : State), i.WellFormed → floatResult i = some (d, f) →
    ∃ t, exec i s = .next t ∧ WritesLanes s t d.toNat (f s)

/-- R50, R83, R94: SNOP, VNOP and HINT change nothing; GETS writes the selected value, to sd when its guard is satisfied and
to vd in every lane the issue writes. -/
def Obligations.SpecialRegistersAndNoOperations : Prop :=
  ∀ (s : State),
    (∀ i, exec (.snop i) s = .next s) ∧ (∀ i, exec (.vnop i) s = .next s) ∧ (∀ k i, exec (.vhint k i) s = .next s)
      ∧ (∀ d sel, (Instr.sgets d sel).WellFormed →
          (s.scalarOn = true → ∃ t, exec (.sgets d sel) s = .next t ∧ t.sreg d.toNat = scalarSpecialValue s sel.toNat
              ∧ OnlyScalar s t d.toNat)
            ∧ (s.scalarOn = false → exec (.sgets d sel) s = .next s))
      ∧ (∀ d sel, (Instr.vgets d sel).WellFormed →
          ∃ t, exec (.vgets d sel) s = .next t
            ∧ WritesLanes s t d.toNat (fun l => (vectorSpecialValue s sel.toNat l, 0)))

/-- R57, R59, R95, R96, R102: CVT and FCVT write the elements that ELEM selects, each the conversion of the source element
paired with it, zeros above the last element and the flags of the elements converted. PACK puts the elements of va at OFF of
the pair vd, discards what would fall at or above bit 64 and keeps the pair's other bits; UNPK takes them from OFF of the pair
va, with zeros above; both move T2's reserved code as 0 and raise TRES for it. Nothing else changes. -/
def Obligations.ConversionAndPackResults : Prop :=
  (∀ (d a : BitVec 8) (x : CvtX) (s : State), (Instr.vcvt d a x).WellFormed →
    ∃ t, exec (.vcvt d a x) s = .next t ∧ Converted s t d a x)
  ∧ (∀ (d a : BitVec 8) (x : CvtX) (s : State), (Instr.vfcvt d a x).WellFormed →
    ∃ t, exec (.vfcvt d a x) s = .next t ∧ Converted s t d a x)
  ∧ (∀ (d a : BitVec 8) (ty : BitVec 4) (off : BitVec 6) (s : State), (Instr.vpack d a ty off).WellFormed →
    let v (l k : Nat) : Bool := (s.vreg a.toNat l).getLsbD k
    ∃ t, exec (.vpack d a ty off) s = .next t ∧ OnlyVector s t d.toNat 2 ∧ TresJoined s t ty v
      ∧ ∀ l k, hasLane s.written l = true → k < 64 →
          (t.vpair d.toNat l).testBit k
            = (if off.toNat ≤ k ∧ k < off.toNat + elemsPerLane ty * typeBits ty then movedBit ty (v l) (k - off.toNat)
              else (s.vpair d.toNat l).testBit k))
  ∧ ∀ (d a : BitVec 8) (ty : BitVec 4) (off : BitVec 6) (s : State), (Instr.vunpk d a ty off).WellFormed →
    let v (l k : Nat) : Bool := (s.vpair a.toNat l).testBit (off.toNat + k)
    ∃ t, exec (.vunpk d a ty off) s = .next t ∧ OnlyVector s t d.toNat 1 ∧ TresJoined s t ty v
      ∧ ∀ l k, hasLane s.written l = true → k < 32 →
          (t.vreg d.toNat l).getLsbD k = (decide (k < elemsPerLane ty * typeBits ty) && movedBit ty (v l) k)

/-! ### Cross-lane -/

/-- R104, R106, R107, R79, R80: an exchange or shuffle gives each lane the issue writes the value of its source lane, its own
value when the source is invalid, all sources read first; nothing else changes. -/
def Obligations.CrossLaneCopies : Prop :=
  ∀ (i : Instr) (d a : BitVec 8) (w : Option (BitVec 4)) (src : State → Nat → Nat → Nat → Option Nat) (s : State),
    i.WellFormed → sourceLane i = some (d, a, w, src) → ProperIssue s →
    ∃ t, exec i s = .next t ∧ WritesLanes s t d.toNat (fun l =>
      let g := groupOf s w l
      (s.vreg a.toNat (readLane g.2.2 (src s g.1 g.2.1 l) l), 0))

/-- R108 to R110: VOTE writes its predicate, and BALLOT its mask of 64 lanes, in the participants of each domain and nowhere
else, each from its own domain's participants. -/
def Obligations.VotesAndBallots : Prop :=
  ∀ (s : State), ProperIssue s →
    (∀ (cond pd p : BitVec 4) (inv : Bool) (w : Option (BitVec 4)), (Instr.vvote cond pd p inv w).WellFormed →
      ∃ t, exec (.vvote cond pd p inv w) s = .next t ∧ OnlyArch s t ∧ t.arch = { s.arch with preds := t.arch.preds }
        ∧ (∀ k, k ≠ pd.toNat → t.pred k = s.pred k)
        ∧ ∀ l, hasLane (t.pred pd.toNat) l
            = (if hasLane s.cur.guard l = true ∧ pd ≠ 0 then
                voteValue cond ((participantList s w l).map (ballotBit s p inv))
              else hasLane (s.pred pd.toNat) l))
    ∧ (∀ (d : BitVec 8) (w p : BitVec 4) (inv : Bool), (Instr.vballot d w p inv).WellFormed →
      ∃ t, exec (.vballot d w p inv) s = .next t ∧ OnlyArch s t ∧ t.arch = { s.arch with vregs := t.arch.vregs }
        ∧ (∀ r l, l < 64 → ¬ ((r = d.toNat ∨ r = d.toNat + 1) ∧ hasLane s.cur.guard l = true) → t.vreg r l = s.vreg r l)
        ∧ ∀ l k, hasLane s.cur.guard l = true → k < 64 →
            (t.vpair d.toNat l).testBit k = (participant s (some w) l k && ballotBit s p inv k))

/-- R108, R111: WRED combines va over the participants of each domain in increasing lane order and gives each participant the
whole, or with SCAN what has been combined up to it; the flags of the steps join NSTAT; nothing else changes.
What the first participant's own value becomes, copied as R111 has it or canonicalised by R55, is the model's choice
(log entry 89). -/
def Obligations.WarpReductions : Prop :=
  ∀ (d a : BitVec 8) (w op : BitVec 4) (scan : Bool) (s : State), (Instr.vwred d a w op scan).WellFormed → ProperIssue s →
    ∃ t, exec (.vwred d a w op scan) s = .next t ∧ OnlyArch s t
      ∧ t.arch = { s.arch with vregs := t.arch.vregs, nstat := t.arch.nstat }
      ∧ (∀ r l, l < 64 → ¬ (r = d.toNat ∧ hasLane s.cur.guard l = true) → t.vreg r l = s.vreg r l)
      ∧ (∀ l, hasLane s.cur.guard l = true →
          t.vreg d.toNat l = (accOf op (((participantList s (some w) l).filter (fun j => !scan || decide (j ≤ l))).map
            (fun j => s.vreg a.toNat j))).1)
      ∧ ∀ k, t.arch.nstat.getLsbD k = true
          ↔ s.arch.nstat.getLsbD k = true ∨ ∃ l, hasLane s.cur.guard l = true
            ∧ (accOf op ((participantList s (some w) l).map (fun j => s.vreg a.toNat j))).2.getLsbD k = true

/-! ### Memory instructions as a slot hands them out -/

/-- R113 to R115, R118, R121 to R127, R132: a global load, store or atomic whose order is met, whose checks all pass and whose
path has room hands out a part for every byte of every selected lane, at the lane's address and with the bytes the lane
stores, and changes no memory and no register but the helpers' destination; with no selected lane it raises no counter and hands out
only the parts of helper lanes that pass the checks of a load, and the other helpers' destination receives 0. -/
def Obligations.GlobalAccessIssue : Prop :=
  ∀ (i : Instr) (f : AccessForm) (s : State), i.WellFormed → globalForm i = some f → f.ready s →
    s.cur.status = .ok → verdict (f.placed s).1 = .pass →
    (s.cur.guard ≠ 0 → pathCount s.cw f.path < 63 →
      (f.dest = none → touchedFull (f.placed s).2
          (partsFrom (f.placed s).1 (fun l => laneData s f.data f.size l) (fun l => laneData s f.expect f.size l)) = false) →
      ∃ t new, exec i s = .next t ∧ t.cur = s.cur ∧ unstaged t.cw.accs = unstaged (s.cw.accs ++ new)
        ∧ pathCount t.cw f.path = pathCount s.cw f.path + 1
        ∧ HandsOut f s (f.placed s).1 new ∧ IssueFrame s t
        ∧ OnlyHelpers s t (f.dest.elim 0 (fun d => d.1.toNat)) (if f.dest.isSome then f.destRegs else 0))
    ∧ (s.cur.guard = 0 → s.cur.helpers = 0 →
      ∃ t, exec i s = .next t ∧ t.cur = s.cur ∧ t.cw.accs = s.cw.accs ∧ IssueFrame s t ∧ OnlyHelpers s t 0 0)
    ∧ (s.cur.guard = 0 → ∃ t new, exec i s = .next t ∧ t.cur = s.cur ∧ unstaged t.cw.accs = unstaged (s.cw.accs ++ new)
        ∧ pathCount t.cw f.path = pathCount s.cw f.path ∧ HandsOut f s (f.placed s).1 new ∧ (f.kind ≠ .load → new = []) ∧ IssueFrame s t
        ∧ OnlyHelpers s t (f.dest.elim 0 (fun d => d.1.toNat)) (if f.dest.isSome then f.destRegs else 0)
        ∧ ∀ d l, f.dest = some d → l < 64 → hasLane s.cur.helpers l = true →
          let offered := f.kind = .load ∧ ∀ q, q ∈ (f.placed s).1 → q.1.lane = l → ∃ da ros, q.2 = .ok da ros
          (offered → ∀ k, k < f.size → Carries f s (f.placed s).1 new l k)
          ∧ (¬ offered → ∀ k, k < f.destRegs → t.vreg (d.1.toNat + k) l = 0))

/-- R112 to R116, R118, R119, R126, R127, R132: the same of a scratchpad access, whose parts each name a block's bank, one
access to a block. -/
def Obligations.ScratchAccessIssue : Prop :=
  ∀ (i : Instr) (f : AccessForm) (cluster : Bool) (s : State), i.WellFormed → scratchForm i = some (f, cluster) → f.ready s →
    s.cur.status = .ok → verdict (scratchPlaced s cluster (f.pieces s)) = .pass → pathCount s.cw 0 < 63 → pathCount s.cw 1 < 63 →
    ∃ t new, exec i s = .next t ∧ t.cur = s.cur ∧ t.cw.accs = s.cw.accs ++ new
      ∧ HandsOut f s (scratchPlaced s cluster (f.pieces s)) new
      ∧ (∀ c, c ∈ new → ∃ b, c.bank = some b ∧ ∀ p, p ∈ c.parts → p.addr / 2 ^ 21 = b ∧ p.addr % 2 ^ 21 + p.size ≤ (s.block b).spAlloc)
      ∧ IssueFrame s t
      ∧ OnlyHelpers s t (f.dest.elim 0 (fun d => d.1.toNat)) (if f.dest.isSome then f.destRegs else 0)

/-- R120: the scalar LD and ST hand out one 8-byte access at sa + imm6 × 8 when their guard is satisfied, and do nothing
when it is not. -/
def Obligations.ScalarAccessIssue : Prop :=
  ∀ (d a i6 : BitVec 6) (load : Bool) (s : State),
    let i := if load then Instr.sld d a i6 else Instr.sst d a i6
    let va := s.sreg a.toNat + BitVec.ofInt 64 (i6.toInt * 8)
    let placed := placeGlobal s (if load then .load else .store) 8 [⟨64, va.toNat, 0, 8, false⟩]
    let path := if load then 2 else 3
    (s.scalarOn = false → exec i s = .next s)
    ∧ (s.scalarOn = true → s.cur.status = .ok → verdict placed.1 = .pass → pathCount s.cw path < 63 →
        (load = false → s.unit.fe = 0) → (load = false → touchedFull placed.2 (partsFrom placed.1 (fun _ => leSplit 8 (s.sreg d.toNat).toNat) (fun _ => [])) = false) →
        ∃ t c p, exec i s = .next t ∧ t.cur = s.cur ∧ unstaged t.cw.accs = unstaged (s.cw.accs ++ [c])
          ∧ pathCount t.cw path = pathCount s.cw path + 1 ∧ IssueFrame s t ∧ OnlyHelpers s t 0 0
          ∧ c.parts = [p] ∧ p.va = va.toNat ∧ p.size = 8 ∧ p.off = 0
          ∧ (∃ q, q ∈ placed.1 ∧ q.2 = .ok p.addr p.ros)
          ∧ (load = true → c.kind = .load ∧ c.dest = some ⟨true, d.toNat, 8, false⟩)
          ∧ (load = false → (c.kind = .store 0 ∨ c.kind = .posted) ∧ c.dest = none ∧ p.data = leSplit 8 (s.sreg d.toNat).toNat))

/-- R123, R128: PFL hands out no access, traps nowhere and changes no memory and no register; LDF and STE whose checks pass
hand out their lanes and wait, and once every lane has completed the slot ends without a second access. -/
def Obligations.PrefetchAndFullEmptyIssue : Prop :=
  ∀ (o : VmOp) (x : Option MemX) (s : State),
    (∃ t, exec (.vpfl o x) s = .next t ∧ t.cur = s.cur ∧ t.cw.accs = s.cw.accs ∧ IssueFrame s t ∧ OnlyHelpers s t 0 0)
    ∧ ∀ (load : Bool),
        let i := if load then Instr.vldf o x else Instr.vste o x
        let f := feForm load o x
        (i.WellFormed → f.fresh s → s.cur.status = .ok → s.cur.guard ≠ 0 → s.cur.u < s.arch.units.length →
          verdict (scratchPlaced s true (f.pieces s)) = .pass → pathCount s.cw 0 < 63 → pathCount s.cw 1 < 63 →
          ∃ t new, exec i s = .next t ∧ HeldOut f s t (scratchPlaced s true (f.pieces s)) new .fullEmpty ∧ t.unit.fe = s.cur.guard
            ∧ OnlyHelpers s t o.d.toNat 1)
        ∧ (s.unit.issued = true → s.unit.fe ≠ 0 → exec i s = .next (s.hold .fullEmpty))
        ∧ (s.unit.issued = true → s.unit.fe = 0 → (f.order = 1 → s.unit.fenced = true) → exec i s = .next s)

/-- R130, R131: an access with `.rel` waits for its fence before it hands out anything; one with `.acq` hands out its accesses and
then waits; once that fence has completed the slot ends without a second access.
That the joined fence runs also where the guard passes in no lane is the model's choice (log entry 83). -/
def Obligations.FencesJoinedToAccesses : Prop :=
  (∀ (i : Instr) (f : AccessForm) (s : State), (globalForm i = some f ∨ ∃ c, scratchForm i = some (f, c)) →
    s.cur.u < s.arch.units.length →
    (f.order = 2 → s.unit.fenced = false →
      exec i s = .next (s.hold (.fenceRel f.scope)))
    ∧ (f.order = 1 → s.unit.issued = true → s.unit.fenced = false → exec i s = .next (s.hold (.fenceAcq f.scope)))
    ∧ (f.order = 1 → s.unit.issued = true → s.unit.fenced = true → exec i s = .next s)
    ∧ (f.order = 1 → s.unit.issued = false → s.unit.fe = 0 → s.cur.guard = 0 → s.cur.helpers = 0 → s.cur.status = .ok →
      ∃ t, exec i s = .next t ∧ t.cur.status = .wait ∧ t.unit.hold = .fenceAcq f.scope ∧ t.unit.issued = true)
    ∧ (i.WellFormed → f.order = 1 → f.fresh s → s.cur.status = .ok → s.cur.guard ≠ 0 →
      (globalForm i = some f → verdict (f.placed s).1 = .pass → pathCount s.cw f.path < 63 →
        (f.dest = none → touchedFull (f.placed s).2
          (partsFrom (f.placed s).1 (fun l => laneData s f.data f.size l) (fun l => laneData s f.expect f.size l)) = false) →
        ∃ t new, exec i s = .next t ∧ HeldOut f s t (f.placed s).1 new (.fenceAcq f.scope)
          ∧ OnlyHelpers s t (f.dest.elim 0 (fun d => d.1.toNat)) (if f.dest.isSome then f.destRegs else 0))
      ∧ ∀ c, scratchForm i = some (f, c) → verdict (scratchPlaced s c (f.pieces s)) = .pass → pathCount s.cw 0 < 63 →
        pathCount s.cw 1 < 63 →
        ∃ t new, exec i s = .next t ∧ HeldOut f s t (scratchPlaced s c (f.pieces s)) new (.fenceAcq f.scope)
          ∧ OnlyHelpers s t (f.dest.elim 0 (fun d => d.1.toNat)) (if f.dest.isSome then f.destRegs else 0)))
  ∧ ∀ (o : VmOp) (x : Option MemX) (load : Bool) (s : State),
    let i := if load then Instr.vldf o x else Instr.vste o x
    let f := feForm load o x
    (f.order = 2 → s.unit.fenced = false → s.unit.issued = false → exec i s = .next (s.hold (.fenceRel f.scope)))
    ∧ (f.order = 1 → s.unit.fenced = false → s.unit.issued = true → s.unit.fe = 0 →
      exec i s = .next (s.hold (.fenceAcq f.scope)))

/-- R114, R253: when a check fails in a selected lane no lane performs: checks 1 to 4 take the memory trap with the failing
check as its cause, and check 5 parks the slot and records the fault. A scratchpad access has no check 5.
R114 speaks of one lane for a scalar access: that its FMASK is then the unit's lanes is the model's
reading (log entry 21). -/
def Obligations.FailedAccessChecks : Prop :=
  (∀ (i : Instr) (f : AccessForm) (s : State), globalForm i = some f → f.fresh s → s.cur.slotVec = true →
    (∀ cause lanes addr, verdict (f.placed s).1 = .trap cause lanes addr → tornDown (f.placed s).2 s.cw.ctx = false →
      CanTrap (f.placed s).2 →
      ∃ t, exec i s = .next t ∧ TrapTaken (f.placed s).2 t 2 cause 0 lanes addr true)
    ∧ (∀ vas, verdict (f.placed s).1 = .park vas → s.cur.u < s.arch.units.length →
      ∃ t, exec i s = .next t ∧ FaultParked s t))
  ∧ (∀ (i : Instr) (f : AccessForm) (cluster : Bool) (s : State),
    (scratchForm i = some (f, cluster) ∨ ∃ o x load, cluster = true ∧ i = (if load then .vldf o x else .vste o x) ∧ f = feForm load o x) →
    f.fresh s → s.cur.slotVec = true →
    (∀ vas, verdict (scratchPlaced s cluster (f.pieces s)) ≠ .park vas)
    ∧ ∀ cause lanes addr, verdict (scratchPlaced s cluster (f.pieces s)) = .trap cause lanes addr → tornDown s s.cw.ctx = false →
      CanTrap s → ∃ t, exec i s = .next t ∧ TrapTaken s t 2 cause 0 lanes addr true)
  ∧ ∀ (d a i6 : BitVec 6) (load : Bool) (s : State),
    let i := if load then Instr.sld d a i6 else Instr.sst d a i6
    let va := s.sreg a.toNat + BitVec.ofInt 64 (i6.toInt * 8)
    let placed := placeGlobal s (if load then .load else .store) 8 [⟨64, va.toNat, 0, 8, false⟩]
    s.scalarOn = true → s.cur.slotVec = false →
    (∀ cause lanes addr, verdict placed.1 = .trap cause lanes addr → tornDown placed.2 s.cw.ctx = false → CanTrap placed.2 →
      ∃ t, exec i s = .next t ∧ TrapTaken placed.2 t 2 cause 0 s.unit.lanes va.toNat false)
    ∧ (∀ vas, verdict placed.1 = .park vas → s.cur.u < s.arch.units.length → ∃ t, exec i s = .next t ∧ FaultParked s t)

/-! ### Accesses that perform -/

/-- R116 to R119, R195: a store performs its parts in lane order: in the own scratchpad, at another block's bank (its reply
still to come), or in the core's L2, which holds all 2048 tokens of the sector; full/empty bits follow the store's setting. -/
def Obligations.StoresPerform : Prop :=
  ∀ (s : State) (x : Warp) (c : Access) (fe : BitVec 2), Performable s x c → c.kind = .store fe →
    (∀ p, p ∈ c.parts → p.data ≠ []) →
    (c.bank = some x.blk → ∃ t, exec .storePerformed s = .next t ∧ ScratchStored s t x.blk c.parts fe ∧ Completed s t c)
    ∧ (∀ b, c.bank = some b → b ≠ x.blk → ∃ t, exec .remoteBankAccess s = .next t ∧ ScratchStored s t b c.parts fe
        ∧ ∃ e, e ∈ (t.warp s.ev.w).accs ∧ e.id = c.id ∧ e.stage = .replied)
    ∧ (c.bank = none → satisfied s (coreAgent s x.core) s.ev.sector true = true →
        (∀ p, p ∈ c.parts → p.addr % 64 + p.data.length ≤ 64) →
        ∃ t, exec .storePerformed s = .next t ∧ Completed s t c
          ∧ (∀ off, off < 64 → (holding t (coreAgent s x.core) s.ev.sector).data.extractLsb' (8 * off) 8
              = storedByte 64 c.parts off ((holding s (coreAgent s x.core) s.ev.sector).data.extractLsb' (8 * off) 8))
          ∧ (holding t (coreAgent s x.core) s.ev.sector).tokens = 2048 ∧ (holding t (coreAgent s x.core) s.ev.sector).dirty = true
          ∧ (∀ a, homeByte t a = homeByte s a)
          ∧ ∀ b, (t.block b).sp = (s.block b).sp ∧ (t.block b).full = (s.block b).full)

/-- R113, R117, R118, R132: a load's data reaches its destination in every lane of its parts and the access completes: from
the own scratchpad, from the core's holding of the sector, or with the reply of another block's bank, which has read its
bytes before. -/
def Obligations.LoadsReturn : Prop :=
  ∀ (s : State) (x : Warp) (c : Access) (d : AccDest),
    (Performable s x c → c.kind = .load → LoadShape c d → (∀ e, e ∈ x.accs → isPureStore e.kind = false) →
      (c.bank = some x.blk →
        ∃ t, exec .loadDataReturn s = .next t ∧ Completed s t c
          ∧ (∀ p, p ∈ c.parts → Loaded t s.ev.w d p.lane (bytesAt (spByte s x.blk) (p.addr % 2 ^ 21) p.size))
          ∧ (∀ b, (t.block b).sp = (s.block b).sp ∧ (t.block b).full = (s.block b).full) ∧ ∀ a, homeByte t a = homeByte s a)
      ∧ (c.bank = none → s.ev.flag = false → (∀ p, p ∈ c.parts → p.ros = false) →
        (c.useL1 = false ∨ l1Get (s.core x.core) s.ev.sector = none) →
        satisfied s (coreAgent s x.core) s.ev.sector false = true → (holding s (coreAgent s x.core) s.ev.sector).poison = false →
        ∃ t, exec .loadDataReturn s = .next t ∧ Completed s t c
          ∧ (∀ p, p ∈ c.parts → Loaded t s.ev.w d p.lane
              (sectorBytes (holding s (coreAgent s x.core) s.ev.sector).data (p.addr % 64) p.size))
          ∧ (∀ b, (t.block b).sp = (s.block b).sp ∧ (t.block b).full = (s.block b).full) ∧ ∀ a, homeByte t a = homeByte s a)
      ∧ (∀ b, c.bank = some b → b ≠ x.blk →
        ∃ t e, exec .remoteBankAccess s = .next t ∧ e ∈ (t.warp s.ev.w).accs ∧ e.id = c.id ∧ e.stage = .replied ∧ e.parts = []
          ∧ e.got = c.parts.map (fun p => (p.lane, 0, bytesAt (spByte s b) (p.addr % 2 ^ 21) p.size))))
    ∧ (eventAccess s = some (x, c) → c.stage = .replied → c.parts = [] → c.dest = some d → (c.got.map (·.1)).Nodup →
        (∀ g, g ∈ c.got → g.1 < 64 ∧ g.2.2.length = d.bytes) → 0 < d.bytes → d.scalar = false →
        ∃ t, exec .scratchpadRemoteReply s = .next t ∧ Completed s t c ∧ ∀ g, g ∈ c.got → Loaded t s.ev.w d g.1 g.2.2)

/-- R116, R119, R126, R127, R307: the lanes of an atomic or compare-and-swap on one sector or bank perform one after another in lane
order; each lane receives what it found, and what the last one left remains. At another block's bank what they found waits for
the reply, and ends the rollback eligibility of the issuing block. -/
def Obligations.AtomicsPerform : Prop :=
  ∀ (s : State) (x : Warp) (c : Access) (d : AccDest), Performable s x c → LoadShape c d → d.scalar = false → AtomicShape c →
    (c.bank = some x.blk → (∀ p, p ∈ c.parts → p.addr / 2 ^ 21 = x.blk ∧ p.addr % 2 ^ 21 + p.size ≤ 2 ^ 21) →
      let r := atomicSeq c.kind c.parts (fun a => spByte s x.blk (a % 2 ^ 21))
      ∃ t, exec .loadDataReturn s = .next t ∧ Completed s t c
        ∧ (∀ e, e ∈ r.1 → Loaded t s.ev.w d e.1 e.2)
        ∧ (∀ off, off < 2 ^ 21 → spByte t x.blk off = r.2 (x.blk * 2 ^ 21 + off))
        ∧ (∀ k, spFull t x.blk (4 * k) = spFull s x.blk (4 * k)) ∧ ∀ a, homeByte t a = homeByte s a)
    ∧ (∀ b, c.bank = some b → b ≠ x.blk → (∀ p, p ∈ c.parts → p.addr / 2 ^ 21 = b ∧ p.addr % 2 ^ 21 + p.size ≤ 2 ^ 21) →
      let r := atomicSeq c.kind c.parts (fun a => spByte s b (a % 2 ^ 21))
      ∃ t e, exec .remoteBankAccess s = .next t ∧ e ∈ (t.warp s.ev.w).accs ∧ e.id = c.id ∧ e.stage = .replied ∧ e.parts = []
        ∧ e.dest = some d ∧ e.got = r.1.map (fun g => (g.1, 0, g.2))
        ∧ (∀ off, off < 2 ^ 21 → spByte t b off = r.2 (b * 2 ^ 21 + off))
        ∧ (∀ k, spFull t b (4 * k) = spFull s b (4 * k))
        ∧ (∀ k, k ≠ b → (t.block k).sp = (s.block k).sp ∧ (t.block k).full = (s.block k).full)
        ∧ (t.block x.blk).eligible = false ∧ (∀ a, homeByte t a = homeByte s a)
        ∧ ∀ v, registersOf (t.warp v) = registersOf (s.warp v))
    ∧ (c.bank = none → s.ev.flag = false → (∀ p, p ∈ c.parts → p.ros = false ∧ p.addr / 64 = s.ev.sector ∧ p.addr % 64 + p.size ≤ 64) →
      c.useL1 = false → satisfied s (coreAgent s x.core) s.ev.sector true = true →
      (holding s (coreAgent s x.core) s.ev.sector).poison = false → (coherentSector s s.ev.sector).2 = false →
      let byte (u : State) (a : Nat) : Byte := (holding u (coreAgent s x.core) s.ev.sector).data.extractLsb' (8 * (a % 64)) 8
      let r := atomicSeq c.kind c.parts (byte s)
      ∃ t, exec .loadDataReturn s = .next t ∧ Completed s t c
        ∧ (∀ e, e ∈ r.1 → Loaded t s.ev.w d e.1 e.2)
        ∧ (∀ a, a / 64 = s.ev.sector → byte t a = r.2 a) ∧ ∀ a, homeByte t a = homeByte s a)

/-- R119, R128, R307: a lane of an LDF or STE whose word is in the awaited state takes the word and empties it, or stores its word and
fills it, in one act; a lane whose word is not goes on waiting. At another block's bank the reply is still to come. -/
def Obligations.FullEmptyWaits : Prop :=
  ∀ (s : State) (x : Warp) (c : Access) (p : AccPart) (load : Bool) (b : Nat), Performable s x c → c.parts = [p] →
    c.kind = (if load then .loadFe else .storeFe) → c.bank = some b → p.size = 4 → p.off = 0 → p.addr % 4 = 0 → p.lane < 64 →
    p.data.length = 4 →
    (b = x.blk → spFull s x.blk (p.addr % 2 ^ 21) = load →
      ∃ t, exec .feWaitComplete s = .next t ∧ Completed s t c ∧ spFull t x.blk (p.addr % 2 ^ 21) = !load
        ∧ (load = true → (∀ off, spByte t x.blk off = spByte s x.blk off)
            ∧ ∀ d, c.dest = some d → d.scalar = false → d.bytes = 4 →
              Loaded t s.ev.w d p.lane (bytesAt (spByte s x.blk) (p.addr % 2 ^ 21) 4))
        ∧ (load = false → ∀ off, spByte t x.blk off = storedByte (2 ^ 21) [p] off (spByte s x.blk off)))
    ∧ (b ≠ x.blk → spFull s b (p.addr % 2 ^ 21) = load →
      ∃ t e, exec .feWaitComplete s = .next t ∧ e ∈ (t.warp s.ev.w).accs ∧ e.id = c.id ∧ e.stage = .replied ∧ e.parts = []
        ∧ e.dest = c.dest ∧ e.got = [(p.lane, 0, bytesAt (spByte s b) (p.addr % 2 ^ 21) 4)] ∧ spFull t b (p.addr % 2 ^ 21) = !load
        ∧ (∀ off, spByte t b off = if load then spByte s b off else storedByte (2 ^ 21) [p] off (spByte s b off))
        ∧ (∀ k, k ≠ b → (t.block k).sp = (s.block k).sp ∧ (t.block k).full = (s.block k).full)
        ∧ (t.block x.blk).eligible = false ∧ (∀ a, homeByte t a = homeByte s a)
        ∧ ∀ v, registersOf (t.warp v) = registersOf (s.warp v))
    ∧ (spFull s b (p.addr % 2 ^ 21) = !load →
      ∃ t e, exec .feWaitComplete s = .next t ∧ e ∈ (t.warp s.ev.w).accs ∧ e.id = c.id ∧ e.parts = [p]
        ∧ (∀ b, (t.block b).sp = (s.block b).sp ∧ (t.block b).full = (s.block b).full))

/-! ### Posted writes and release rounds -/

/-- R124, R125, R214, R274, R327: a posted write or RED is performed when its home holds every token and no census of the
sector is under way: its bytes and no others change
in memory, and it is acknowledged or counted as arrived; until then it stays. An acknowledgement lowers the warp's counter,
and the last one of an access completes it. -/
def Obligations.PostedWrites : Prop :=
  (∀ (s : State) (p : HomeWrite) (pa : Nat),
    let home := ownAgent s.sys (512 + p.home)
    let sec := p.write.sector
    s.tok.posted[s.ev.k]? = some p → isHomeOf s home sec = true → localAddr s.sys (sectorBase sec) = some pa →
    (∀ e, e ∈ p.write.steps → e.1 + e.2.length ≤ 64) →
    (CensusRuns s sec → exec .homePostedWrite s = .next s)
    ∧ (¬ CensusRuns s sec → satisfied s home sec true = true → ∃ t, exec .homePostedWrite s = .next t
        ∧ (∀ off, off < 64 → homeByte t (pa + off) = postedBytes p.write (fun k => homeByte s (pa + k)) off)
        ∧ (∀ a, ¬ (pa ≤ a ∧ a < pa + 64) → homeByte t a = homeByte s a)
        ∧ t.tok.posted = dropAt s.tok.posted s.ev.k
        ∧ (∀ a, p.ack = some a → t.tok.acks = s.tok.acks ++ [a] ∧ t.tok.arrivals = s.tok.arrivals)
        ∧ (p.ack = none → t.tok.acks = s.tok.acks
            ∧ arrived t p.home p.write.srcId p.write.round = arrived s p.home p.write.srcId p.write.round + 1)
        ∧ t.warps = s.warps ∧ t.blocks = s.blocks ∧ t.harts = s.harts ∧ t.names = s.names ∧ t.sys = s.sys)
    ∧ (¬ CensusRuns s sec → satisfied s home sec true = false → ∃ t, exec .homePostedWrite s = .next t ∧ t.tok.posted = s.tok.posted
        ∧ t.mem = s.mem ∧ t.warps = s.warps ∧ t.blocks = s.blocks ∧ t.harts = s.harts ∧ t.sys = s.sys))
  ∧ ∀ (s : State) (w id n : Nat) (c : Access), s.tok.acks[s.ev.k]? = some (w, id) → c ∈ (s.warp w).accs → c.id = id →
      (∀ e, e ∈ (s.warp w).accs → e.id = id → e = c) → c.acks = n + 1 →
      ∃ t, exec .postedWriteAck s = .next t ∧ t.tok.acks = dropAt s.tok.acks s.ev.k ∧ (t.warp w).acks = (s.warp w).acks - 1
        ∧ (n = 0 → ∀ e, e ∈ (t.warp w).accs → e.id ≠ id)
        ∧ (n ≠ 0 → ∃ e, e ∈ (t.warp w).accs ∧ e.id = id ∧ e.acks = n)
        ∧ DataKept s t ∧ ∀ v, v ≠ w → t.warp v = s.warp v

/-- R213, R214: a home reports the arrivals it has counted of a source's round and frees the counter once the asked count is
reached, or says, once, that a reset has lost it; a warp's query loses the homes that report enough, ends with the last, asks
those that fell short again after 1 µs, and traps with cause 5 where a home was reset.
That a home says only once that a reset lost the round, and drops the count that comes after, is the
model's reading (log entry 29). -/
def Obligations.ReleaseQueries : Prop :=
  ∀ (s : State),
    (let l := Config.linkTo s.ev.k % 24
     let n := arrived s s.ev.home s.ev.srcId s.ev.round
     let key := (s.ev.home, s.ev.srcId, s.ev.round)
     ∃ t lost, exec .homeArrivalQuery s = .next t
       ∧ (t.link l).queue = (s.link l).queue ++ [.reply s.ev.srcId s.ev.round s.ev.home n lost]
       ∧ (lost = true ↔ key ∈ s.tok.lost) ∧ key ∉ t.tok.lost
       ∧ (lost = true ∨ s.ev.count ≤ n → arrived t s.ev.home s.ev.srcId s.ev.round = 0)
       ∧ (lost = false → n < s.ev.count → t.tok.arrivals = s.tok.arrivals)
       ∧ (∀ h i r, (h, i, r) ≠ (s.ev.home, s.ev.srcId, s.ev.round) → arrived t h i r = arrived s h i r)
       ∧ t.mem = s.mem ∧ t.warps = s.warps ∧ t.blocks = s.blocks)
    ∧ (∀ (x : Warp) (q : Query), x = s.warp s.ev.w → x.query = some q → q.round = s.ev.round → sourceId s x = s.ev.srcId →
        let here (e : Touch) : Bool := e.module.toNat == s.ev.k && e.home.toNat == s.ev.home
        (∃ e, e ∈ q.waiting ∧ here e = true) →
        (s.ev.flag = false →
          ∃ t, exec .releaseQueryReply s = .next t ∧ DataKept s t
            ∧ ((t.warp s.ev.w).query = none ↔ ∀ e, e ∈ q.waiting → here e = true ∧ e.count ≤ s.ev.count)
            ∧ (∀ q', (t.warp s.ev.w).query = some q' → q'.round = q.round
                ∧ (∀ e, e ∈ q'.waiting ↔ e ∈ q.waiting ∧ (here e = true → s.ev.count < e.count))
                ∧ ((∃ e, e ∈ q'.waiting ∧ here e = true) → q'.resendAt = s.now + 1000)
                ∧ (∀ e, e ∈ q'.short ↔ (e ∈ q.short ∧ here e = false) ∨ (e ∈ q.waiting ∧ here e = true ∧ s.ev.count < e.count))))
        ∧ (s.ev.flag = true →
          (∀ u, u < x.arch.units.length → (x.unit u).hold = .fenceQuery q.round → MayTrap s s.ev.w u) →
          ∃ t, exec .releaseQueryReply s = .next t ∧ (t.warp s.ev.w).query = none
            ∧ ∀ u, u < x.arch.units.length → (x.unit u).hold = .fenceQuery q.round →
                UnitTrapped s t s.ev.w u 2 5 (standing (x.unit u))))
    ∧ ∀ (q : Query), Sparse.find s.grids s.ev.k = none → (s.warp s.ev.w).query = some q → 0 < q.resendAt → q.resendAt ≤ s.now →
        ∃ t, exec .releaseQueryResend s = .next t ∧ DataKept s t
          ∧ (t.warp s.ev.w).query = some { q with resendAt := 0, short := [] }
          ∧ ∀ e, e ∈ q.short →
              .query (sourceId s (s.warp s.ev.w)) q.round e ∈ (t.link (Config.linkTo e.module.toNat % 24)).queue

/-! ### Control -/

/-- R138, R142 to R145: a transfer is decided with the taken lanes of R138 and its destination, and changes nothing else;
CALL into a full stack and RET from an empty one trap instead. -/
def Sys2Proof.Claim.TransfersDecided : Prop :=
  ∀ (s : State),
    let decided (i : Instr) (kind : XferKind) (dest : Option Nat) (rets : List (Nat × Nat)) (checked : Bool) : Prop :=
      ∃ t x, exec i s = .next t ∧ t.cur.xfer = some x ∧ t = { s with cur := { s.cur with xfer := some x } }
        ∧ x.kind = kind ∧ x.rets = rets ∧ x.checked = checked ∧ (∀ a, dest = some a → x.dest = a)
        ∧ (kind ≠ .regang → ∀ l, hasLane x.taken l = if s.cur.gscope then hasLane s.cur.guard l else hasLane s.cur.lanes l)
        ∧ (kind = .regang → x.taken = s.cur.lanes)
    let at_ (off : BitVec 18) : Nat := (((s.unit.pos.hdr : Int) + 8 * off.toInt) % 2 ^ 64).toNat
    let taken (l : Nat) : Bool := if s.cur.gscope then hasLane s.cur.guard l else hasLane s.cur.lanes l
    let rstk (l : Nat) : List Nat := Sparse.get [] s.arch.rstk l
    (∀ off, decided (.sbra off) .branch (some (at_ off)) [] false)
    ∧ (∀ off, (∀ l, l < 64 → taken l = true → (rstk l).length < 32) → decided (.scall off) .call (some (at_ off)) [] false)
    ∧ (∀ off, (∃ l, l < 64 ∧ taken l = true ∧ 32 ≤ (rstk l).length) → CanTrap s → s.cur.slotVec = false →
        ∃ t, exec (.scall off) s = .next t ∧ TrapTaken s t 5 1 0 s.unit.lanes 0 false ∧ t.arch.rstk = s.arch.rstk)
    ∧ ((∀ l, l < 64 → taken l = true → rstk l ≠ []) →
        ∃ t x, exec .sret s = .next t ∧ t = { s with cur := { s.cur with xfer := some x } } ∧ x.kind = .ret ∧ x.checked = false
          ∧ (∀ l, hasLane x.taken l = taken l) ∧ ∀ l a, l < 64 → taken l = true → (rstk l).head? = some a → (l, a) ∈ x.rets)
    ∧ ((∃ l, l < 64 ∧ taken l = true ∧ rstk l = []) → CanTrap s → s.cur.slotVec = false →
        ∃ t, exec .sret s = .next t ∧ TrapTaken s t 5 2 0 s.unit.lanes 0 false ∧ t.arch.rstk = s.arch.rstk)
    ∧ (∀ a, decided (.sbrx a) .branch (some (s.sreg a.toNat).toNat) [] true)
    ∧ decided .sexit .exit none [] false
    ∧ decided .sregang .regang (some (s.unit.pos.hdr + 8 * (1 + s.unit.pos.head.len.toNat))) [] false

/-- R138, R142, R145: when every lane of a unit goes to one header, the unit goes on there as a whole under its own key, its
return stacks changed as CALL and RET say; the other units stay where they are. -/
def Sys2Proof.Claim.TransferToOneSide : Prop :=
  ∀ (s : State) (w u : Nat) (v : IUnit) (t : Transfer) (h : Header) (dest : Nat),
    v = (s.warp w).unit u → u < (s.warp w).arch.units.length → v.xfer = some t → ProperTransfer v t → Settled (s.warp w).arch →
    t.kind ≠ .exit → t.kind ≠ .tret → TargetOk s w t → PlainHeader s w dest h →
    (∀ l, hasLane v.lanes l = true → laneDest v t l = dest) →
    let y := (finishBundle s w u).warp w
    (y.unit u).pos = { v.pos with hdr := dest, idx := 0, head := h, inst := 0 } ∧ (y.unit u).lanes = v.lanes
      ∧ (y.unit u).key = v.key ∧ (y.unit u).trap = v.trap ∧ (y.unit u).xfer = none ∧ (y.unit u).skip = false
      ∧ ((y.unit u).hold = .none ↔ ∀ k, h.wait.getLsbD k = true → (s.warp w).arch.flags.getLsbD k = true)
      ∧ (∀ l, Sparse.get [] y.arch.rstk l = stackAfter (s.warp w).arch v t l)
      ∧ (∀ k, k ≠ u → y.unit k = (s.warp w).unit k) ∧ y.arch.stack = (s.warp w).arch.stack
      ∧ y.arch.sregs = (s.warp w).arch.sregs ∧ y.arch.preds = (s.warp w).arch.preds ∧ (finishBundle s w u).mem = s.mem

/-- R138, R139, R184: an issue that divides gives each of its lanes one unit or stack entry at that lane's own destination, all
under one new key whose split entry holds the issue's lanes, the parent key, the reconvergence address and a serial no other
entry holds; a push onto a full stack traps instead with cause 3 of the control trap. -/
def Sys2Proof.Claim.TransferDivides : Prop :=
  ∀ (s : State) (w u : Nat) (x : Warp) (v : IUnit) (t : Transfer), x = s.warp w → x.arch.units[u]? = some v → ProperTransfer v t →
    t.kind = .branch ∨ t.kind = .call ∨ t.kind = .ret →
    (v.sec = true → v.lanes &&& plyMask v.ply = v.lanes) →
    (∃ l k, hasLane v.lanes l = true ∧ hasLane v.lanes k = true ∧ laneDest v t l ≠ laneDest v t k) →
    (x.arch.splits.length < 64 →
      let addr := keyAddr (s.block x.blk) v
      let a := splitUnit x.arch u v (transferSides v t) addr
      (∃ e sp, Sparse.find x.arch.splits e = none ∧ Sparse.find a.splits e = some sp ∧ sp.lanes = v.lanes ∧ sp.waiting = 0
          ∧ sp.parent = v.key ∧ sp.addr = addr ∧ sp.serial ≠ 0
          ∧ (∀ k q, k ≠ e → Sparse.find a.splits k = some q → Sparse.find x.arch.splits k = some q ∧ q.serial ≠ sp.serial)
          ∧ ∀ l, hasLane v.lanes l = true → ∃ q, (q ∈ a.units ∨ q ∈ a.stack) ∧ hasLane q.lanes l = true
              ∧ q.pos.hdr = laneDest v t l ∧ q.pos.idx = 0 ∧ q.entering = true ∧ q.key = some e ∧ q.trap = v.trap)
        ∧ (∀ k q, k ≠ u → x.arch.units[k]? = some q → q ∈ a.units) ∧ ∀ q, q ∈ x.arch.stack → q ∈ a.stack)
    ∧ (∀ p l k, p < 8 → (stackOf x.arch p).length = 64 → x.arch.units.any (isSecondaryOf p) = true →
        hasLane (v.lanes &&& plyMask p) l = true → hasLane (v.lanes &&& plyMask p) k = true → laneDest v t l ≠ laneDest v t k →
        v.xfer = some t → TargetOk s w t → MayTrap s w u →
        UnitTrapped s (finishBundle s w u) w u 5 3 (standing v)
          ∧ ((finishBundle s w u).warp w).arch.rstk = x.arch.rstk)

/-- R144: the taken lanes of EXIT stop being live and leave every unit, stack entry and split; the registers keep their
values. -/
def Sys2Proof.Claim.ExitEndsLanes : Prop :=
  ∀ (x : Warp) (m : Lanes),
    let y := exitLanes x m
    (∀ l, hasLane y.arch.live l = (hasLane x.arch.live l && !hasLane m l))
      ∧ (∀ q, q ∈ y.arch.units ∨ q ∈ y.arch.stack → q.lanes &&& m = 0)
      ∧ (∀ e sp, Sparse.find y.arch.splits e = some sp → sp.lanes &&& m = 0 ∧ sp.lanes ≠ 0)
      ∧ registersOf y = registersOf x ∧ y.arch.flags = x.arch.flags ∧ y.accs.map (·.id) = x.accs.map (·.id)

/-- R138, R139, R142 to R145, R184: a transfer is decided, takes a whole unit to one side or divides it, and EXIT ends lanes. -/
def Obligations.Transfers : Prop :=
  Claim.TransfersDecided ∧ Claim.TransferToOneSide ∧ Claim.TransferDivides ∧ Claim.ExitEndsLanes

/-- R152 to R155: TRAP raises vector 6 with its code and SKIPS set, an encoding that is no instruction raises vector 1 with the
cause of R52, TRET, TRD and TWR outside trap level raise vector 1 cause 3 where their guard is satisfied; without a handler, or at trap level, the unit ends
and its context's removal starts. -/
def Sys2Proof.Claim.TrapsAreTaken : Prop :=
  ∀ (s : State), s.cur.slotVec = false →
    (CanTrap s →
      (∀ code, s.scalarOn = true → ∃ t, exec (.strap code) s = .next t ∧ TrapTaken s t 6 0 code s.unit.lanes 0 true)
      ∧ (∀ cause, ∃ t, exec (.illegalInstruction cause) s = .next t ∧ TrapTaken s t 1 cause 0 s.unit.lanes 0 false)
      ∧ (∀ i a n, i = .ssysTret ∨ i = .ssysTrd a n ∨ i = .ssysTwr a n → s.scalarOn = true →
          ∃ t, exec i s = .next t ∧ TrapTaken s t 1 3 0 s.unit.lanes 0 false))
    ∧ (s.cur.u < s.arch.units.length → s.unit.trap.isSome = true ∨ s.cblk.handler = none →
      (∀ i, (∃ code, i = .strap code ∧ s.scalarOn = true) ∨ (∃ cause, i = .illegalInstruction cause) →
        ∃ t, exec i s = .next t ∧ t.cur.status = .trapped ∧ t.unit.hold = .ended ∧ t.unit.trap = s.unit.trap
          ∧ (∃ e, e ∈ t.removing ∧ e.1 = s.cw.ctx) ∧ DataKept s t))
    ∧ (s.scalarOn = false → (∀ code, exec (.strap code) s = .next s)
        ∧ (s.unit.trap = none → exec .ssysTret s = .next s ∧ ∀ a n, exec (.ssysTrd a n) s = .next s ∧ exec (.ssysTwr a n) s = .next s))

/-- R66, R154 to R156: NCLR clears the NSTAT bits set in sa, CTXID reads the context; at trap level TRD reads a word of the
frame, TWR writes its SKIPS and FRES fields only, for every side of the handler, and TRET is decided as a transfer to FRES, which leaves trap level: back at
the trapped bundle with its scalar slot skipped as SKIPS says and the kept transfer awaiting. -/
def Sys2Proof.Claim.TrapLevelOperations : Prop :=
  ∀ (s : State),
    (∀ a, s.scalarOn = true → ∃ t, exec (.ssysNclr a) s = .next t ∧ OnlyArch s t ∧ t.arch = { s.arch with nstat := t.arch.nstat }
        ∧ ∀ k, t.arch.nstat.getLsbD k = (s.arch.nstat.getLsbD k && !(s.sreg a.toNat).getLsbD k))
    ∧ (∀ a, s.scalarOn = true → ∃ t, exec (.ssysCtxid a) s = .next t ∧ (t.sreg a.toNat).toNat = s.cw.ctx.toNat ∧ OnlyScalar s t a.toNat)
    ∧ (∀ f, s.unit.trap = some f → s.cur.u < s.arch.units.length →
      (s.scalarOn = true →
        (∀ a n, n.toNat < 8 → ∃ t v, exec (.ssysTrd a n) s = .next t ∧ OnlyScalar s t a.toNat ∧ t.sreg a.toNat = v
          ∧ (n = 0 → v = f.fpc) ∧ (n = 2 → v = f.fmask) ∧ (n = 3 → v = f.faddr) ∧ (n = 4 → v = f.fres) ∧ (n = 5 → v = f.fact)
          ∧ (n = 1 → v.extractLsb' 56 8 = f.vec ∧ v.extractLsb' 48 8 = f.cause ∧ v.getLsbD 47 = f.slotVec ∧ v.getLsbD 46 = f.skips
              ∧ v.getLsbD 45 = f.kept.isSome ∧ v.extractLsb' 12 33 = 0 ∧ v.extractLsb' 0 12 = f.code)
          ∧ (n = 6 → (f.kept = none → v = 0) ∧ ∀ x, f.kept = some x → v = x.taken)
          ∧ (n = 7 → (f.kept = none → v = 0) ∧ ∀ x, f.kept = some x → v = if x.kind = .ret then 0 else BitVec.ofNat 64 x.dest))
        ∧ (∀ a n, n.toNat < 8 → ∃ t g, exec (.ssysTwr a n) s = .next t ∧ SameButWarp s.cur.w s t
          ∧ g = { f with skips := if n = 1 then (s.sreg a.toNat).getLsbD 46 else f.skips,
                         fres := if n = 4 then s.sreg a.toNat else f.fres }
          ∧ t.unit.trap = some g ∧ t.arch = { s.arch with units := s.arch.units.map (sharedFrame f g),
                                                          stack := s.arch.stack.map (sharedFrame f g) })
        ∧ ∃ t x, exec .ssysTret s = .next t ∧ t = { s with cur := { s.cur with xfer := some x } } ∧ x.kind = .tret
          ∧ x.taken = s.cur.lanes ∧ x.dest = f.fres.toNat)
      ∧ (s.scalarOn = false → exec .ssysTret s = .next s ∧ ∀ a n, exec (.ssysTrd a n) s = .next s ∧ exec (.ssysTwr a n) s = .next s))
    ∧ ∀ (w u : Nat) (v : IUnit) (f : TrapFrame) (t : Transfer), v = (s.warp w).unit u → u < (s.warp w).arch.units.length →
        v.xfer = some t → t.kind = .tret → v.trap = some f → v.more = [] → f.fres = f.fpc → f.atHeader = false →
        (∀ word, fetchWord s (s.warp w).ctx f.fpc.toNat = some word → isHeaderWord word = false) → Settled (s.warp w).arch →
        let y := (finishBundle s w u).warp w
        (y.unit u).trap = none ∧ (y.unit u).pos = f.pos ∧ (y.unit u).skip = f.skips ∧ (y.unit u).lanes = v.lanes
          ∧ (y.unit u).xfer = (if f.skips then f.kept else none) ∧ registersOf y = registersOf (s.warp w)
          ∧ ∀ k, k ≠ u → y.unit k = (s.warp w).unit k

/-- R52, R66, R152 to R156: how each trap is taken, and what the instructions of trap level do.
CAUSE 0 of the TRAP instruction's own trap, whose code stands in the vector, is the model's reading (log entry 17). -/
def Obligations.Traps : Prop :=
  Claim.TrapsAreTaken ∧ Claim.TrapLevelOperations

/-! ### Fences, waits, monitors and barriers -/

/-- R130, R131, R133, R213: FENCE waits for its fence and then does nothing; WAITC does nothing once its path's counter is at or
below the threshold and waits before. -/
def Sys2Proof.Claim.FenceAndWaitcSlots : Prop :=
  ∀ (s : State),
    (∀ scope, (s.scalarOn = false ∨ s.unit.fenced = true → exec (.sfenceRel scope) s = .next s ∧ exec (.sfenceAcq scope) s = .next s)
      ∧ (s.scalarOn = true → s.unit.fenced = false → s.cur.u < s.arch.units.length →
          ∃ t r, exec (.sfenceRel scope) s = .next t ∧ t.unit.hold = .fenceRel scope ∧ t.cur.status = .wait ∧ DataKept s t
            ∧ exec (.sfenceAcq scope) s = .next r ∧ r.unit.hold = .fenceAcq scope ∧ r.cur.status = .wait ∧ DataKept s r))
    ∧ ∀ path sn z,
        let n := if z then 0 else (s.sreg sn.toNat).toNat
        (s.scalarOn = false ∨ s.unit.passed = true ∨ pathCount s.cw path.toNat ≤ n → exec (.swaitc path sn z) s = .next s)
        ∧ (s.scalarOn = true → s.unit.passed = false → n < pathCount s.cw path.toNat → s.cur.u < s.arch.units.length →
            ∃ t, exec (.swaitc path sn z) s = .next t ∧ t.unit.hold = .waitc path.toNat n ∧ t.cur.status = .wait ∧ DataKept s t)

/-- R130, R131, R144, R213, R307: a release completes when the fragment's earlier accesses are performed and, at `.d` and wider,
the warp's posted writes acknowledged; at `.s` it then closes the warp's round and asks every home it touched; an acquire
completes when the earlier loads and atomics have returned, and at `.c` and wider empties the core's L1; the ending fence of a
warp without live lanes ends the warp. -/
def Sys2Proof.Claim.FencesComplete : Prop :=
  ∀ (s : State) (x : Warp), Sparse.find s.warps s.ev.w = some x →
    (x.arch.live ≠ 0 → s.ev.u < x.arch.units.length →
      (∀ scope : BitVec 3, (x.unit s.ev.u).hold = .fenceRel scope → scope ≠ 4 →
        (NoneLeft x (x.unit s.ev.u) ReleaseWaits → (3 ≤ scope.toNat → x.acks = 0) →
          ∃ t, exec .fenceComplete s = .next t ∧ FenceDone s t ∧ (1 < scope.toNat → (t.block x.blk).eligible = false))
        ∧ (¬ NoneLeft x (x.unit s.ev.u) ReleaseWaits ∨ (3 ≤ scope.toNat ∧ x.acks ≠ 0) → exec .fenceComplete s = .next s))
      ∧ ((x.unit s.ev.u).hold = .fenceRel 4 → NoneLeft x (x.unit s.ev.u) ReleaseWaits → x.acks = 0 → x.query = none →
        ∃ t, exec .fenceComplete s = .next t ∧ (t.warp s.ev.w).round = x.round + 1 ∧ (t.warp s.ev.w).touched = []
          ∧ (x.touched = [] → FenceDone s t)
          ∧ (x.touched ≠ [] → (t.warp s.ev.w).query = some ⟨x.round, x.touched, 0, []⟩
              ∧ ((t.warp s.ev.w).unit s.ev.u).hold = .fenceQuery x.round ∧ DataKept s t
              ∧ ∀ e, e ∈ x.touched → .query (sourceId s x) x.round e ∈ (t.link (Config.linkTo e.module.toNat % 24)).queue))
      ∧ (∀ r, (x.unit s.ev.u).hold = .fenceQuery r → x.query = none → ∃ t, exec .fenceComplete s = .next t ∧ FenceDone s t)
      ∧ (∀ scope : BitVec 3, (x.unit s.ev.u).hold = .fenceAcq scope →
        (NoneLeft x (x.unit s.ev.u) AcquireWaits →
          ∃ t, exec .fenceComplete s = .next t ∧ FenceDone s t
            ∧ (1 < scope.toNat → (t.core x.core).l1 = [] ∧ (t.block x.blk).eligible = false))
        ∧ (¬ NoneLeft x (x.unit s.ev.u) AcquireWaits → exec .fenceComplete s = .next s)))
    ∧ (x.arch.live = 0 → x.ended = false → x.accs = [] → x.acks = 0 →
      (∀ o w id sd, o ∈ s.names.ops → o.asker = .warp w id sd → w ≠ s.ev.w) →
      ∃ t, exec .fenceComplete s = .next t ∧ (t.warp s.ev.w).ended = true ∧ (t.warp s.ev.w).mon = none ∧ (t.warp s.ev.w).holds = []
        ∧ ∀ v, registersOf (t.warp v) = registersOf (s.warp v))

/-- R130, R131, R133, R144, R213, R307: FENCE and WAITC, and what completes a fence and what it then does. -/
def Obligations.Fences : Prop :=
  Claim.FenceAndWaitcSlots ∧ Claim.FencesComplete

/-- R134, R135: MONARM whose checks pass arms the warp's monitor on the line once the core's L2 holds a token of each sector;
MONWAIT writes its reason at once when it has one and waits otherwise; a time-out ends a fragment's wait with reason 1 and
disarms the monitor with the last, while the warp's block stands on its core. -/
def Obligations.Monitors : Prop :=
  ∀ (s : State),
    (∀ a da ros, s.scalarOn = true → NoLoads s.cw →
      let va := (s.sreg a.toNat).toNat
      let p := placeGlobal s .load 1 [⟨64, va, 0, 1, false⟩]
      p.1 = [(⟨64, va, 0, 1, false⟩, .ok da ros)] →
      (ros = false → ∀ k, k < 2 → satisfied p.2 (coreAgent p.2 p.2.cw.core) (2 * (da / 128) + k) false = true) →
      ∃ t, exec (.smonarm a) s = .next t ∧ t.cw.mon = some ⟨va / 128 * 128, da / 128, ros, false⟩ ∧ t.cur = s.cur
        ∧ DataKept s t ∧ ∀ v, v ≠ s.cur.w → t.warp v = s.warp v)
    ∧ (∀ d a, s.scalarOn = true →
      let gives (r : Nat) : Prop := ∃ t, exec (.smonwait d a) s = .next t ∧ (t.sreg d.toNat).toNat = r ∧ OnlySregAndState s t d.toNat
        ∧ (t.cw.mon = s.cw.mon ∨ t.cw.mon = none)
      (∀ r, s.unit.wake = some r → gives r.toNat)
      ∧ (s.unit.wake = none → (s.cw.mon = none ∨ ∃ m, s.cw.mon = some m ∧ m.ros = true) → gives 2)
      ∧ (∀ m, s.unit.wake = none → s.cw.mon = some m → m.ros = false → NoLoads s.cw → m.triggered = true →
          gives 0 ∧ ∃ t, exec (.smonwait d a) s = .next t ∧ t.cw.mon = none)
      ∧ (∀ m, s.unit.wake = none → s.cw.mon = some m → m.ros = false → NoLoads s.cw → m.triggered = false →
          s.cur.u < s.arch.units.length →
          ∃ t, exec (.smonwait d a) s = .next t ∧ t.cur.status = .wait ∧ DataKept s t
            ∧ t.unit.hold = .monwait (if s.sreg a.toNat = 0 then none else some (s.sys.auxTime + (s.sreg a.toNat).toNat))))
    ∧ ∀ d, ((s.warp s.ev.w).unit s.ev.u).hold = .monwait (some d) → ((s.warp s.ev.w).unit s.ev.u).wake = none →
        d ≤ s.sys.auxTime → s.ev.u < (s.warp s.ev.w).arch.units.length →
        let st := (s.block (s.warp s.ev.w).blk).status
        (st ≠ .resident → st ≠ .stopping → exec .monwaitTimeout s = .next s)
        ∧ ((st = .resident ∨ st = .stopping) → ∃ t, exec .monwaitTimeout s = .next t ∧ ((t.warp s.ev.w).unit s.ev.u).wake = some 1 ∧ DataKept s t
          ∧ ((t.warp s.ev.w).mon = none ↔ (s.warp s.ev.w).mon = none ∨ ((∀ k, k < (s.warp s.ev.w).arch.units.length → k ≠ s.ev.u →
                ((s.warp s.ev.w).unit k).wake = none → ∀ e, ((s.warp s.ev.w).unit k).hold ≠ .monwait e)
              ∧ ∀ v, v ∈ (s.warp s.ev.w).arch.stack → v.wake = none → ∀ e, v.hold ≠ .monwait e))
          ∧ ∀ v, v ≠ s.ev.w → t.warp v = s.warp v)

/-- R146 to R148: BAR and BARA check their address, release, and hand out one arrival at the barrier's bank; BARA then goes on,
BAR waits for the phase, acquires and goes on. -/
def Sys2Proof.Claim.BarrierInstructions : Prop :=
  ∀ (s : State) (a : BitVec 6) (scope : BitVec 3) (bar : Bool),
    let i := if bar then Instr.sbar a scope else Instr.sbara a scope
    let va := (s.sreg a.toNat).toNat
    (s.unit.passed = true → s.unit.fenced = true → exec i s = .next s)
    ∧ (s.unit.passed = true → s.unit.fenced = false → exec i s = .next (s.hold (.fenceAcq scope)))
    ∧ (s.unit.passed = false → s.unit.issued = false →
      (∀ b off, BarrierAt s va b off → (bar = true → b = s.cw.blk) →
        (s.unit.fenced = false → exec i s = .next (s.hold (.fenceRel scope)))
        ∧ (s.unit.fenced = true → pathCount s.cw (if b = s.cw.blk then 0 else 1) < 63 → s.cur.u < s.arch.units.length →
          ∃ t c p, exec i s = .next t ∧ t.cw.accs = s.cw.accs ++ [c] ∧ c.kind = .arrive bar scope ∧ c.bank = some b ∧ c.dest = none
            ∧ c.parts = [p] ∧ p.addr = b * 2 ^ 21 + off ∧ p.size = 8
            ∧ pathCount t.cw (if b = s.cw.blk then 0 else 1) = pathCount s.cw (if b = s.cw.blk then 0 else 1) + 1
            ∧ DataKept s t ∧ (bar = false → t.cur = s.cur)
            ∧ (bar = true → t.cur.status = .wait ∧ t.unit.hold = .arriving ∧ t.unit.issued = true)))
      ∧ (s.cur.slotVec = false → CanTrap s → va % 8 ≠ 0 → ∃ t, exec i s = .next t ∧ TrapTaken s t 2 1 0 s.unit.lanes va false)
      ∧ (∀ b off, BarrierAt s va b off → bar = true → b ≠ s.cw.blk → s.cur.slotVec = false → CanTrap s →
          ∃ t, exec i s = .next t ∧ TrapTaken s t 5 4 0 s.unit.lanes 0 false))

/-- R146, R148: an arrival raises COUNT; the one that meets EXPECT, or with EXPECT 0 the block's unended warps, sets COUNT to 0
and advances PHASE, and the units that waited for the phase pass; no other byte changes. -/
def Sys2Proof.Claim.BarrierArrivals : Prop :=
  ∀ (s : State) (x : Warp) (c : Access) (p : AccPart) (bar : Bool) (scope : BitVec 3) (b off : Nat),
    eventAccess s = some (x, c) → c.kind = .arrive bar scope → c.parts = [p] → mayPerform x c [p] = true → c.bank = some b →
    off = p.addr % 2 ^ 21 → off + 8 ≤ 2 ^ 21 →
    let w := barDword s b off
    ∃ t, exec .barrierArrival s = .next t ∧ Completed s t c
      ∧ expectOf (barDword t b off) = expectOf w
      ∧ (countOf w < 65535 → countOf w + 1 < arrivalsNeeded s b w → countOf (barDword t b off) = countOf w + 1 ∧ phaseOf (barDword t b off) = phaseOf w)
      ∧ (arrivalsNeeded s b w ≤ countOf w + 1 →
          countOf (barDword t b off) = 0 ∧ phaseOf (barDword t b off) = (phaseOf w + 1) % 65536
          ∧ (expectOf w ≠ 0 → ∀ v k ph sc, k < (s.warp v).arch.units.length →
              ((s.warp v).unit k).hold = .barrier b off ph sc → ph.toNat ≠ (phaseOf w + 1) % 65536 →
              ((t.warp v).unit k).passed = true ∧ ((t.warp v).unit k).hold = .none))
      ∧ (∀ k, ¬ (off ≤ k ∧ k < off + 8) → spByte t b k = spByte s b k) ∧ (t.block b).full = (s.block b).full
      ∧ (∀ e, e ≠ b → (t.block e).sp = (s.block e).sp ∧ (t.block e).full = (s.block e).full)
      ∧ (∀ a, homeByte t a = homeByte s a) ∧ ∀ v, registersOf (t.warp v) = registersOf (s.warp v)

/-- R306, R308: once the block's matrix instructions and engine commands have completed after a checkpoint phase, and its warps
have no access, acknowledgement or pending name outstanding (log entry 56), the checkpoint records the state of its warps, the undo log starts empty, and the units that waited at the barrier pass. -/
def Sys2Proof.Claim.CheckpointTaken : Prop :=
  ∀ (s : State) (off : Nat), let b := s.block s.ev.k
    b.ckptWait = some off → b.status = .resident → b.mq = [] → (∀ c, c ∈ s.cmds → c.blk ≠ s.ev.k) →
    (∀ w x, (w, x) ∈ s.warps → x.blk = s.ev.k → x.accs = [] ∧ x.acks = 0 ∧ x.spend = []) →
    ∃ t c, exec .checkpoint s = .next t ∧ (t.block s.ev.k).ckpt = some c
      ∧ (∀ w a m, (w, a, m) ∈ c.warps ↔ ∃ x, (w, x) ∈ t.warps ∧ x.blk = s.ev.k ∧ a = x.arch ∧ m = x.mon)
      ∧ (∀ w o bs m, (w, o, bs, m) ∈ c.batches ↔ ∃ x, (w, x) ∈ t.warps ∧ x.blk = s.ev.k ∧ o = x.openBatch ∧ bs = x.batches ∧ m = x.mflags)
      ∧ c.phases = b.phases ∧ c.ctrs = b.ctrs ∧ c.fifos = b.fifos ∧ c.nextChild = b.nextChild ∧ c.phase = b.ckptPhase + 1
      ∧ (t.block s.ev.k).undo = [] ∧ (t.block s.ev.k).logged = [] ∧ (t.block s.ev.k).eligible = true
      ∧ (t.block s.ev.k).ckptWait = none ∧ DataKept s t
      ∧ ∀ v k ph sc, k < (s.warp v).arch.units.length → ((s.warp v).unit k).hold = .barrier s.ev.k off ph sc →
          (((t.warp v).unit k).passed = true ∧ ((t.warp v).unit k).hold = .none
            ↔ ph.toNat ≠ phaseOf (barDword s s.ev.k off))

/-- R146 to R148, R306, R308: BAR and BARA, their arrivals at the bank, and the checkpoint of a barrier that takes one. -/
def Obligations.Barriers : Prop :=
  Claim.BarrierInstructions ∧ Claim.BarrierArrivals ∧ Claim.CheckpointTaken

/-! ### Children and names -/

/-- R178 to R180: a name instruction whose reads and checks pass hands its operation over with the name and bodies it read, sd
pending and path nlk raised; NNEW, NDEL and NCAS stand between a release and an acquire at `.d`. That a body of 16 bytes is read
as two 64-bit words, at its address and 8 bytes on, and that a look's three registers are pending, is the model's reading (log
entries 26 and 112). -/
def Obligations.NameInstructions : Prop :=
  ∀ (s : State) (d a b : BitVec 6),
    let va := (s.sreg a.toNat).toNat
    let vb := (s.sreg b.toNat).toNat
    (NlkReady s → ∀ bs t0, Reads16 s va bs t0 →
      (∃ t, exec (.snlook d a) s = .next t ∧ t.cur = { s.cur with reads := [] } ∧ NameHandedOver s t .look d (BitVec.ofNat 128 (leValue bs)) [] [] 0 0)
      ∧ (∃ t, exec (.snlookHold d a) s = .next t ∧ t.cur = { s.cur with reads := [] }
          ∧ NameHandedOver s t .lookHold d (BitVec.ofNat 128 (leValue bs)) [] [] 0 0)
      ∧ (∃ t, exec (.snlookRelease d a) s = .next t ∧ t.cur = { s.cur with reads := [] }
          ∧ NameHandedOver s t .release d (BitVec.ofNat 128 (leValue bs)) [] [] 0 0)
      ∧ (s.unit.fenced = true → s.unit.issued = false → s.cur.status = .ok →
        ∃ t, exec (.sndel d a) s = .next t ∧ NameHandedOver s t .delete d (BitVec.ofNat 128 (leValue bs)) [] [] 0 0))
    ∧ (NlkReady s → s.unit.fenced = true → s.unit.issued = false → s.cur.status = .ok →
      (∀ da t0 body t1, StoresBytes 16 s va da t0 → t0.sreg b.toNat = s.sreg b.toNat → ReadsBody t0 vb body t1 →
        ∃ t, exec (.snnew d a b) s = .next t ∧ NameHandedOver s t .new d 0 body [] da (da + 8))
      ∧ (∀ bs t0 old t1 new t2 lo t3 hi t4, Reads16 s va bs t0 → ReadsBody t0 vb old t1 → ReadsBody t1 ((vb + 16) % 2 ^ 64) new t2 →
          StoresBytes 8 t2 vb lo t3 → StoresBytes 8 t3 ((vb + 8) % 2 ^ 64) hi t4 →
        ∃ t, exec (.sncas d a b) s = .next t ∧ NameHandedOver s t .cas d (BitVec.ofNat 128 (leValue bs)) old new lo hi))
    ∧ ∀ i, (i = .snnew d a b ∨ i = .sndel d a ∨ i = .sncas d a b) → s.scalarOn = true →
        (s.unit.issued = false → s.unit.fenced = false → exec i s = .next (s.hold (.fenceRel 3)))
        ∧ (s.unit.issued = true → s.unit.fenced = false → exec i s = .next (s.hold (.fenceAcq 3)))
        ∧ (s.unit.issued = true → s.unit.fenced = true → exec i s = .next s)

/-- R149, R187: FORK releases at `.d`, reads its name, holds the object that it names, reads the record and its argument words, and
creates one child for each taken lane in lane order, with the next ordinals of the block and its own s0; sd receives their
count. A name that leads to no launch record gives its status and creates nothing. Its guard acts per lane only. -/
def Obligations.ForkCreatesChildren : Prop :=
  ∀ (s : State) (d a b : BitVec 6),
    let va := (s.sreg a.toNat).toNat
    let lanes := (List.range 64).filter (fun l => if s.cur.gscope then hasLane s.cur.guard l else hasLane s.cur.lanes l)
    (s.unit.fenced = false → exec (.sfork d a b) s = .next (s.hold (.fenceRel 3)))
    ∧ (NoLoads s.cw → pathCount s.cw 5 < 63 → s.unit.fenced = true → s.unit.fork = none → ∀ bs t0, Reads16 s va bs t0 →
      let name := BitVec.ofNat 128 (leValue bs)
      let answers (st : Nat) : Prop := ∃ t, exec (.sfork d a b) s = .next t ∧ HasStatus (t.sreg d.toNat) st
          ∧ (t.sreg d.toNat).toNat % 2 ^ 56 = 0 ∧ OnlySregAndState s t d.toNat ∧ t.grids = s.grids ∧ t.queues = s.queues
          ∧ t.blocks = s.blocks
      (∀ st, bodyOf t0 s.cw.ctx name 7 = .error st → st < 256 → answers st)
      ∧ ∀ key t1 f, ForkHolds t0 name key t1 → t1.unit.fork = some f →
        let base := f.w0.toNat % 2 ^ 56
        unreadable t1 (launchAgent t1) s.cw.ctx base 128 = [] →
        (∀ st, recordAt t1 s.cw.ctx f.w0 f.w1 = .error st → st < 256 → answers st)
        ∧ ∀ r, recordAt t1 s.cw.ctx f.w0 f.w1 = .ok r →
          let p := placeGlobal (ForkReads t1 f base r) .load 8
            (lanes.map (fun l => ⟨l, ((s.sreg b.toNat).toNat + 8 * l) % 2 ^ 64, 0, 8, false⟩))
          ArgsReady p.2 p.1 r lanes.length →
          ∃ t, exec (.sfork d a b) s = .next t ∧ (t.sreg d.toNat).toNat = lanes.length ∧ OnlySregAndState s t d.toNat
            ∧ (t.block s.cw.blk).children = s.cblk.children + lanes.length
            ∧ (t.block s.cw.blk).nextChild = s.cblk.nextChild + lanes.length
            ∧ queueOf t s.cw.ctx r.prio = queueOf s s.cw.ctx r.prio ++ (List.range lanes.length).map (s.nextId + ·)
            ∧ ∀ k l, lanes[k]? = some l → ChildOf p.2 p.1 t r k l)

/-- R150, R242: GWALK does nothing when its guard is not satisfied; else it waits for a release at `.d`, reads its name, answers why no graph starts, and otherwise starts the graph: its
nodes await their predecessors, its name is held, and it counts as a child of the block. -/
def Obligations.GraphWalkStarts : Prop :=
  (∀ (s : State) (d a : BitVec 6),
    (s.scalarOn = false → exec (.sgwalk d a) s = .next s)
    ∧ (s.scalarOn = true → s.unit.fenced = false → exec (.sgwalk d a) s = .next (s.hold (.fenceRel 3))))
  ∧ ∀ (s : State) (d a : BitVec 6) (bs : List Byte) (t0 : State),
    NlkReady s → s.unit.fenced = true → Reads16 s (s.sreg a.toNat).toNat bs t0 →
    let name := BitVec.ofNat 128 (leValue bs)
    let answers (st : Nat) : Prop := ∃ t, exec (.sgwalk d a) s = .next t ∧ HasStatus (t.sreg d.toNat) st
      ∧ (t.sreg d.toNat).toNat % 2 ^ 56 = 0 ∧ OnlySregAndState s t d.toNat ∧ t.graphs = s.graphs ∧ t.blocks = s.blocks
    (resolve t0 name = .gone → answers 1) ∧ (resolve t0 name = .absent → answers 2)
    ∧ (∀ k, resolve t0 name = .live k →
      (mayUse t0 s.cw.ctx (nameEntry t0 k) = false → answers 2)
      ∧ (mayUse t0 s.cw.ctx (nameEntry t0 k) = true →
        ((nameEntry t0 k).w0.toNat / 2 ^ 56 ≠ 3 → answers 3)
        ∧ (∀ hd, (nameEntry t0 k).w0.toNat / 2 ^ 56 = 3 →
            readVirtual t0 s.cw.ctx ((nameEntry t0 k).w0.toNat % 2 ^ 56) 64 = some hd →
            let base := (nameEntry t0 k).w0.toNat % 2 ^ 56
            let n := leValue (hd.take 2)
            graphWaits t0 s.cw.ctx base = [] →
            ((∃ e, e ∈ t0.graphs ∧ e.2.name.toNat = name.toNat % 2 ^ 64 ∧ e.2.ended = false) → answers 4)
            ∧ ((∀ e, e ∈ t0.graphs → e.2.name.toNat = name.toNat % 2 ^ 64 → e.2.ended = true) → s.cblk.children < 4096 →
              (nameEntry t0 k).holds ≠ 65535 → TableWritable (takeGraph t0 s.cw.ctx base n) k →
              (∃ i r, i < n ∧ readNode t0 s.cw.ctx base i = some r ∧ r.npred = 0) →
              ∃ t g, exec (.sgwalk d a) s = .next t ∧ t.sreg d.toNat = 0 ∧ OnlySregAndState s t d.toNat
                ∧ Sparse.find t.graphs t0.nextId = some g ∧ g.ctx = s.cw.ctx ∧ g.base = base ∧ g.blk = s.cw.blk ∧ g.ended = false
                ∧ g.status = 0 ∧ g.nodes.length = n
                ∧ (∀ i r, i < n → readNode t0 s.cw.ctx base i = some r → ∃ e, g.nodes[i]? = some e ∧ e.npred = r.npred
                    ∧ e.count = r.npred ∧ (e.ready = true ↔ r.npred = 0) ∧ e.running = false)
                ∧ (t.block s.cw.blk).children = s.cblk.children + 1 ∧ (nameEntry t k).holds = (nameEntry t0 k).holds + 1))))

/-- R151: a warp stands at JOIN until every unended warp of its block does; then without children every warp passes, and with
children the block is stopped to be suspended; a warp that has passed enters the next header. -/
def Obligations.JoinWaits : Prop :=
  ∀ (s : State),
    (s.unit.passed = true → ∃ t x, exec .sjoin s = .next t ∧ t = { s with cur := { s.cur with xfer := some x } } ∧ x.kind = .join
        ∧ x.dest = s.unit.pos.hdr + 8 * (1 + s.unit.pos.head.len.toNat))
    ∧ (s.unit.passed = false → WarpTable s → NoLoads s.cw → s.arch.units.length = 1 → s.cur.u = 0 → s.cw.ended = false →
      s.cblk.status = .resident →
      let others := s.warps.filter (fun e => e.1 != s.cur.w && e.2.blk == s.cw.blk && !e.2.ended)
      ((∃ e, e ∈ others ∧ atJoin e.2 = false) →
        ∃ t, exec .sjoin s = .next t ∧ t.unit.hold = .atJoin ∧ t.cur.status = .wait ∧ DataKept s t ∧ t.blocks = s.blocks)
      ∧ ((∀ e, e ∈ others → atJoin e.2 = true) → s.cblk.children = 0 →
        ∃ t, exec .sjoin s = .next t ∧ DataKept s t ∧ t.unit.passed = true ∧ t.unit.hold = .none
          ∧ ∀ e, e ∈ others → ((t.warp e.1).unit 0).passed = true ∧ ((t.warp e.1).unit 0).hold = .none)
      ∧ ((∀ e, e ∈ others → atJoin e.2 = true) → s.cblk.children ≠ 0 → (∀ k, k ∈ s.cblk.cluster → k = s.cw.blk) →
        ∃ t, exec .sjoin s = .next t ∧ DataKept s t ∧ (t.block s.cw.blk).status = .stopping ∧ (t.block s.cw.blk).joining = true
          ∧ t.cw.stopped = true))

/-! ### Matrix instructions -/

/-- R72, R74, R157, R160, R161: MMA and MSS check their FIFOs and format; the lowest failing check names the format trap's cause.
An instruction with rows joins the open batch and waits for its operands with the format and scale bytes of its issue, which
it reads once the fragment's earlier loads, atomics and own stores are performed; one
without rows does nothing. -/
def Sys2Proof.Claim.MatrixIssue : Prop :=
  ∀ (s : State) (o : MmOp) (mss : Bool),
    let i := if mss then Instr.vmss o else Instr.vmma o
    let w : BitVec 128 := Sparse.get 0 s.arch.fmt o.fmt.toNat
    let kc := o.kc.toNat
    let fifosOk := s.cblk.fifoSet.getLsbD o.fa.toNat = true ∧ s.cblk.fifoSet.getLsbD o.fb.toNat = true
    (¬ fifosOk → s.cur.slotVec = true → CanTrap s → ∃ t, exec i s = .next t ∧ TrapTaken s t 1 9 0 s.unit.lanes 0 true)
    ∧ (∀ c, 1 ≤ c → c ≤ 5 → fifosOk → ¬ fmtCheck w mss kc s.cblk.spAlloc c →
        (∀ d, 1 ≤ d → d < c → fmtCheck w mss kc s.cblk.spAlloc d) → s.cur.slotVec = true → CanTrap s →
        ∃ t, exec i s = .next t ∧ TrapTaken s t 3 c 0 s.unit.lanes 0 true)
    ∧ (fifosOk → (∀ c, 1 ≤ c → c ≤ 5 → fmtCheck w mss kc s.cblk.spAlloc c) →
      ((∀ l, l < 64 → ¬ matrixRow s l) → exec i s = .next s)
      ∧ ((∃ l, l < 64 ∧ matrixRow s l) →
          (fmtField w 10 2 = 0 ∧ fmtField w 12 2 = 0
            ∨ ∀ c, c ∈ s.cw.accs → c.lanes &&& s.unit.lanes ≠ 0 → c.stage ≠ .waiting ∨ isPosted c.kind = true ∨ isRemote s.cw c = true
                ∨ (c.bank ≠ some s.cw.blk ∧ isPureStore c.kind = true)) →
          ∃ t m, exec i s = .next t ∧ t.cur = s.cur ∧ t.cblk.mq = s.cblk.mq ++ [m] ∧ m.warp = s.cur.w ∧ m.mss = mss ∧ m.op = o
            ∧ m.fmt = w ∧ m.started = false ∧ (∀ l, l < 64 → (hasLane m.rows l = true ↔ matrixRow s l)) ∧ snapshotOf s w kc m
            ∧ t.cw.openBatch = s.cw.openBatch ++ [m.id] ∧ m.id = s.cw.nextId ∧ DataKept s t
            ∧ ∀ v, v ≠ s.cur.w → t.warp v = s.warp v))

/-- R161, R162: a matrix instruction starts once both operands stand in their FIFOs and the earlier ones allow it: the operands
leave the FIFOs, A's first, and the lowest-numbered free array takes it, or two with FUSE, the sign-select array for MSS. -/
def Sys2Proof.Claim.MatrixStart : Prop :=
  ∀ (s : State) (m : MatOp), let b := s.block s.ev.k
    let k := s.core b.core
    let na := operandSize (m.fmt.extractLsb' 0 4) m.op.kc.toNat
    let nb := operandSize (m.fmt.extractLsb' 4 4) m.op.kc.toNat
    b.mq[s.ev.id]? = some m → b.status = .resident → MayStart s b s.ev.id m → k.arrays.length = 4 →
    (if m.mss then FreeArray k 3 else ∃ n, n < 3 ∧ FreeArray k n) →
    ∃ t e, exec .mmaStart s = .next t ∧ (t.block s.ev.k).mq[s.ev.id]? = some e ∧ e.started = true ∧ e.op = m.op ∧ e.rows = m.rows
      ∧ e.id = m.id ∧ e.warp = m.warp ∧ e.fmt = m.fmt
      ∧ e.aBytes = (fifoBytes b m.op.fa).take na
      ∧ (m.op.fa ≠ m.op.fb → e.bBytes = (fifoBytes b m.op.fb).take nb
          ∧ fifoBytes (t.block s.ev.k) m.op.fa = (fifoBytes b m.op.fa).drop na
          ∧ fifoBytes (t.block s.ev.k) m.op.fb = (fifoBytes b m.op.fb).drop nb)
      ∧ (m.op.fa = m.op.fb → e.bBytes = ((fifoBytes b m.op.fa).drop na).take nb
          ∧ fifoBytes (t.block s.ev.k) m.op.fa = (fifoBytes b m.op.fa).drop (na + nb))
      ∧ (∀ f : BitVec 3, f ≠ m.op.fa → f ≠ m.op.fb → fifoBytes (t.block s.ev.k) f = fifoBytes b f)
      ∧ (m.mss = true → e.arrays = 8)
      ∧ (∀ n, m.mss = false → n < 3 → CleanArray k n → (∀ j, j < n → ¬ CleanArray k j) →
          (m.op.fuse = false → e.arrays = BitVec.ofNat 4 (2 ^ n))
          ∧ (∀ j, m.op.fuse = true → n < j → j < 3 → CleanArray k j → (∀ i, n < i → i < j → ¬ CleanArray k i) →
              e.arrays = BitVec.ofNat 4 (2 ^ n + 2 ^ j)))
      ∧ (∀ n, n < 4 → (arrayAt (t.core b.core) n).busy
          = if e.arrays.getLsbD n then some (m.warp, m.id) else (arrayAt k n).busy)
      ∧ DataKept s t ∧ t.warps = s.warps

/-- R73, R75, R76, R161: when a matrix instruction completes, every element of its rows holds the sums of R75 or R76 over the
operands it took, the other rows and tiles are as before, its flags wait for its batch, and its arrays are free. -/
def Sys2Proof.Claim.MatrixComplete : Prop :=
  ∀ (s : State) (m : MatOp), let b := s.block s.ev.k
    let x := s.warp m.warp
    b.mq[s.ev.id]? = some m → m.started = true →
    ∃ t f, exec .mmaComplete s = .next t ∧ (t.block s.ev.k).mq = dropAt b.mq s.ev.id
      ∧ (∀ i j, i < 64 → j < 64 → (t.warp m.warp).arch.getAcc m.op.acc.toNat i j
          = if hasLane m.rows i then (tileElement m i j (x.arch.getAcc m.op.acc.toNat i j)).1 else x.arch.getAcc m.op.acc.toNat i j)
      ∧ (∀ n i j, n ≠ m.op.acc.toNat → i < 64 → j < 64 → (t.warp m.warp).arch.getAcc n i j = x.arch.getAcc n i j)
      ∧ (t.warp m.warp).mflags = x.mflags ++ [(m.id, f)]
      ∧ (∀ k, f.getLsbD k = true ↔ ∃ i j, i < 64 ∧ j < 64 ∧ hasLane m.rows i = true
          ∧ (tileElement m i j (x.arch.getAcc m.op.acc.toNat i j)).2.getLsbD k = true)
      ∧ (∀ n, n < 4 → (arrayAt (t.core b.core) n).busy = if m.arrays.getLsbD n then none else (arrayAt (s.core b.core) n).busy)
      ∧ MemoryKept s t ∧ (∀ v, v ≠ m.warp → t.warp v = s.warp v) ∧ (t.warp m.warp).arch.vregs = x.arch.vregs
      ∧ (t.warp m.warp).arch.sregs = x.arch.sregs ∧ (t.warp m.warp).arch.preds = x.arch.preds
      ∧ (t.warp m.warp).arch.nstat = x.arch.nstat

/-- R72 to R76, R157, R160 to R162: a matrix instruction from its issue over its start to its completion. -/
def Obligations.Matrix : Prop :=
  Claim.MatrixIssue ∧ Claim.MatrixStart ∧ Claim.MatrixComplete

/-- R164 to R167: once no matrix instruction of the warp on the tile is outstanding, ACCRD copies tile elements to registers, ACCWR
registers to tile elements, ACCZ clears rows and ACCQ packs four requantised elements, in the lanes the issue writes and nowhere
else; before, they wait. FMTLD loads a format-block register. -/
def Obligations.TileAccess : Prop :=
  ∀ (s : State),
    (∀ (i : Instr) (acc : BitVec 2), ((∃ o, o.acc = acc ∧ (i = .vaccrd o ∨ i = .vaccwr o)) ∨ i = .vaccz acc
        ∨ ∃ d a c it u, i = .vaccq d a acc c it u) → ¬ TileFree s acc → exec i s = .next (s.hold (.tile acc.toNat)))
    ∧ (∀ o : AccOp, TileFree s o.acc → (Instr.vaccrd o).WellFormed →
        ∃ t, exec (.vaccrd o) s = .next t ∧ OnlyVector s t o.v.toNat (o.nm1.toNat + 1) ∧ t.arch.nstat = s.arch.nstat
          ∧ ∀ l j, hasLane s.written l = true → j ≤ o.nm1.toNat →
              t.vreg (o.v.toNat + j) l = s.arch.getAcc o.acc.toNat l (o.col.toNat + j))
    ∧ (∀ o : AccOp, TileFree s o.acc → (Instr.vaccwr o).WellFormed →
        ∃ t, exec (.vaccwr o) s = .next t ∧ OnlyTile s t o.acc
          ∧ ∀ l c, l < 64 → c < 64 → t.arch.getAcc o.acc.toNat l c
              = if hasLane s.written l = true ∧ o.col.toNat ≤ c ∧ c ≤ o.col.toNat + o.nm1.toNat then
                  s.vreg (o.v.toNat + (c - o.col.toNat)) l else s.arch.getAcc o.acc.toNat l c)
    ∧ (∀ acc, TileFree s acc →
        ∃ t, exec (.vaccz acc) s = .next t ∧ OnlyTile s t acc
          ∧ ∀ l c, l < 64 → c < 64 → t.arch.getAcc acc.toNat l c = if hasLane s.written l then 0 else s.arch.getAcc acc.toNat l c)
    ∧ (∀ d a acc col it u, TileFree s acc → (Instr.vaccq d a acc col it u).WellFormed →
        ∃ t, exec (.vaccq d a acc col it u) s = .next t ∧ WritesLanes s t d.toNat (requantWord s a acc col it u))
    ∧ ∀ (fmt : BitVec 3) (a b : BitVec 8),
        (s.cur.guard = 0 → exec (.vfmtld fmt a b) s = .next s)
        ∧ (s.cur.guard ≠ 0 → ∃ t, exec (.vfmtld fmt a b) s = .next t ∧ OnlyArch s t ∧ t.arch = { s.arch with fmt := t.arch.fmt }
            ∧ Sparse.get 0 t.arch.fmt fmt.toNat = s.sreg b.toNat ++ s.sreg a.toNat
            ∧ ∀ k, k ≠ fmt.toNat → Sparse.get (0 : BitVec 128) t.arch.fmt k = Sparse.get 0 s.arch.fmt k)

/-- R67, R168 to R170: MFENCE closes the open batch under the next number; MWAIT waits for a batch; a batch completes after its
members and every earlier batch, and its flags join NSTAT, its flag is set and its chunk counter counts up to 65535, firing the
step it is armed for at its target. -/
def Obligations.Batches : Prop :=
  (∀ (s : State) (d : BitVec 6) (flag : BitVec 4) (ck : Bool) (ctr : BitVec 5),
    (s.scalarOn = false → exec (.smfence d flag ck ctr) s = .next s)
    ∧ (s.scalarOn = true → (ck = true → s.cblk.ctrSet.getLsbD ctr.toNat = true) →
      ∃ t b, exec (.smfence d flag ck ctr) s = .next t ∧ t.cur = { s.cur with cleared := t.cur.cleared }
        ∧ (∀ k, k < 12 → t.cur.cleared.getLsbD k = (s.cur.cleared.getLsbD k || k == flag.toNat)) ∧ t.sreg d.toNat = s.arch.batch + 1
        ∧ t.arch.batch = s.arch.batch + 1 ∧ OnlySregAndState s t d.toNat ∧ t.cw.openBatch = [] ∧ t.cw.batches = s.cw.batches ++ [b]
        ∧ b.no = s.arch.batch + 1 ∧ b.members = s.cw.openBatch ∧ b.flag = flag ∧ b.ck = ck ∧ b.ctr = ctr ∧ b.done = false
        ∧ (∀ k, k < 12 → t.arch.flags.getLsbD k = (s.arch.flags.getLsbD k && k != flag.toNat)))
    ∧ (s.scalarOn = true → ck = true → s.cblk.ctrSet.getLsbD ctr.toNat = false → s.cur.slotVec = false → CanTrap s →
      ∃ t, exec (.smfence d flag ck ctr) s = .next t ∧ TrapTaken s t 1 9 0 s.unit.lanes 0 false))
  ∧ (∀ (s : State) (a : BitVec 6),
    let n := min (s.sreg a.toNat).toNat s.arch.batch.toNat
    let settled := ∀ b, b ∈ s.cw.batches → b.done = true ∨ n < b.no.toNat
    (s.scalarOn = false ∨ s.unit.passed = true ∨ settled → exec (.smwait a) s = .next s)
    ∧ (s.scalarOn = true → s.unit.passed = false → ¬ settled → exec (.smwait a) s = .next (s.hold (.mwait n))))
  ∧ ∀ (s : State) (b : Batch), let w := s.ev.w
    let x := s.warp w
    x.batches[s.ev.k]? = some b →
    (b.done = false → (∀ e, e ∈ x.batches → e.no < b.no → e.done = true) →
      (∀ i m, i ∈ b.members → m ∈ (s.block x.blk).mq → ¬ (m.warp = w ∧ m.id = i)) → (∀ c, c ∈ openLoads x → b.id ≤ c.id) →
      ∃ t, exec .batchComplete s = .next t ∧ MemoryKept s t ∧ (∀ v, v ≠ w → t.warp v = s.warp v)
        ∧ (∀ k, (t.warp w).arch.nstat.getLsbD k = true
            ↔ x.arch.nstat.getLsbD k = true ∨ ∃ e, e ∈ x.mflags ∧ e.1 ∈ b.members ∧ e.2.getLsbD k = true)
        ∧ (∀ k, k < 12 → (t.warp w).arch.flags.getLsbD k = (x.arch.flags.getLsbD k || k == b.flag.toNat))
        ∧ (∀ e, e ∈ (t.warp w).batches → e.no = b.no → b.ck = true ∧ e.done = true)
        ∧ (t.warp w).arch.sregs = x.arch.sregs ∧ (t.warp w).arch.vregs = x.arch.vregs)
    ∧ (b.done = true → (∀ c, c ∈ x.accs → c.id ∉ b.writes) →
      let c := counterOf s x.blk b.ctr
      let n : BitVec 16 := if c.count = 65535 then 65535 else c.count + 1
      ∃ t, exec .batchComplete s = .next t ∧ DataKept s t ∧ (∀ e, e ∈ (t.warp w).batches → e.no ≠ b.no)
        ∧ ((c.armed = true ∧ n.toNat < c.target.toNat) ∨ (c.armed = false ∧ ∀ e, e ∈ s.cmds → onCounter x.blk b.ctr e = true → e.stage ≠ .waitArm) →
            counterOf t x.blk b.ctr = { c with count := n } ∧ t.cmds = s.cmds)
        ∧ (c.armed = true → c.target.toNat ≤ n.toNat → (∀ e, e ∈ s.cmds → onCounter x.blk b.ctr e = true → e.stage ≠ .waitArm) →
            counterOf t x.blk b.ctr = { c with armed := false, count := n - c.target }
            ∧ t.cmds = s.cmds.map (fun e => if onCounter x.blk b.ctr e = true ∧ e.stage = .armed then { e with stage := .queued } else e)))

/-! ### Engines -/

/-- R157, R170, R171, R174 to R177: an engine command does nothing where its guard passes in no lane; one whose operands are
aligned and in range is handed out with its operands, its status register pending, its flag cleared and path eng raised; a bad
operand traps with the memory trap, cause 1 or 2, and a FIFO or chunk counter of another block with cause 9.
Which of several bad operands is reported, and the length as FADDR of a bad length, are the model's reading
(log entry 42). -/
def Obligations.EngineCommandIssue : Prop :=
  ∀ (s : State),
    (∀ i f, commandForm i = some f →
      let fifoOk := ∀ k, f.fifo = some k → s.cblk.fifoSet.getLsbD k.toNat = true
      (s.cur.guard = 0 → exec i s = .next s)
      ∧ (EngReady s → fifoOk →
        (f.aligned s → f.ranges s → ∃ t, exec i s = .next t ∧ CommandIssued s t f.o f.kind f.pool (f.dst s) (f.src s) (f.len s))
        ∧ (s.cur.slotVec = true → CanTrap s →
          (f.src s % 4 ≠ 0 → ∃ t, exec i s = .next t ∧ TrapTaken s t 2 1 0 s.unit.lanes (f.src s) true)
          ∧ (f.src s % 4 = 0 → f.dst s % 4 ≠ 0 → ∃ t, exec i s = .next t ∧ TrapTaken s t 2 1 0 s.unit.lanes (f.dst s) true)
          ∧ (f.src s % 4 = 0 → f.dst s % 4 = 0 → ¬ f.aligned s → ∃ t, exec i s = .next t ∧ TrapTaken s t 2 1 0 s.unit.lanes (f.len s) true)
          ∧ (f.aligned s → f.fromSp = true → ¬ RangeOk s (f.src s) (f.len s) →
              ∃ t, exec i s = .next t ∧ TrapTaken s t 2 2 0 s.unit.lanes (f.src s) true)
          ∧ (f.aligned s → (f.fromSp = true → RangeOk s (f.src s) (f.len s)) → f.toSp = true → ¬ RangeOk s (f.dst s) (f.len s) →
              ∃ t, exec i s = .next t ∧ TrapTaken s t 2 2 0 s.unit.lanes (f.dst s) true)))
      ∧ (EngReady s → ¬ fifoOk → s.cur.slotVec = true → CanTrap s → ∃ t, exec i s = .next t ∧ TrapTaken s t 1 9 0 s.unit.lanes 0 true))
    ∧ (∀ o armed ctr, (s.cur.guard = 0 → exec (.vepkt o armed ctr) s = .next s)
      ∧ (EngReady s → (armed = true → s.cblk.ctrSet.getLsbD ctr.toNat = true) → (s.sreg o.y.toNat).toNat % 64 = 0 →
        ∃ t, exec (.vepkt o armed ctr) s = .next t ∧ CommandIssued s t o (.epkt armed ctr) false
          (if armed then (s.sreg o.x.toNat).toNat else 0) (s.sreg o.y.toNat).toNat 0)
      ∧ (EngReady s → s.cur.slotVec = true → CanTrap s →
        (armed = true → s.cblk.ctrSet.getLsbD ctr.toNat = false →
          ∃ t, exec (.vepkt o armed ctr) s = .next t ∧ TrapTaken s t 1 9 0 s.unit.lanes 0 true)
        ∧ ((armed = true → s.cblk.ctrSet.getLsbD ctr.toNat = true) → (s.sreg o.y.toNat).toNat % 64 ≠ 0 →
          ∃ t, exec (.vepkt o armed ctr) s = .next t ∧ TrapTaken s t 2 1 0 s.unit.lanes (s.sreg o.y.toNat).toNat true)))
    ∧ ∀ o, (s.cur.guard = 0 → exec (.veblkFlush o) s = .next s)
      ∧ (EngReady s → ∃ t, exec (.veblkFlush o) s = .next t ∧ CommandIssued s t o .eblkFlush true 0 0 0)

/-- R171, R172, R176, R178: a command goes to the end of its engine's queue once the earlier writes of its fragment are done; a
step first reads its descriptor and takes a hold on its communicator, or ends with the status of the lookup. -/
def Sys2Proof.Claim.EngineHandover : Prop :=
  ∀ (s : State) (c : Cmd), s.cmds[s.ev.k]? = some c → c.stage = .issued → c.parked = false → c.name = none →
    (∀ j e w i v n, j < s.ev.k → s.cmds[j]? = some e → e.owner = .warp w i → c.owner = .warp v n → e.stage = .issued → w ≠ v) →
    (∀ w i, c.owner = .warp w i →
      (∀ a, a ∈ (s.warp w).accs → a.id ∉ c.waits) ∧ ∀ a, a ∈ openLoads (s.warp w) → i ≤ a.id) →
    (c.kind.isStep = false → ∃ t, exec .engineHandover s = .next t ∧ t = { s with cmds := t.cmds }
        ∧ t.cmds = dropAt s.cmds s.ev.k ++ [{ c with stage := .queued }])
    ∧ (∀ bs t0, c.kind.isStep = true → c.desc = [] → readGlobal s c c.y.toNat 64 = (.bytes bs, t0) →
        ∃ t, exec .engineHandover s = .next t ∧ t.cmds = setAt s.cmds s.ev.k { c with desc := bs } ∧ DataKept s t)
    ∧ (∀ va t0, c.kind.isStep = true → c.desc = [] → readGlobal s c c.y.toNat 64 = (.fail va, t0) →
        ∃ t, exec .engineHandover s = .next t ∧ CommandEnded s t s.ev.k c 4 va)
    ∧ (c.kind.isStep = true → c.desc ≠ [] →
        let name := BitVec.ofNat 128 (leValue (c.desc.take 16))
        (resolve s name = .gone → ∃ t, exec .engineHandover s = .next t ∧ CommandEnded s t s.ev.k c 1 0)
        ∧ (resolve s name = .absent → ∃ t, exec .engineHandover s = .next t ∧ CommandEnded s t s.ev.k c 2 0)
        ∧ ∀ key, resolve s name = .live key →
          (mayUse s c.ctx (nameEntry s key) = false → ∃ t, exec .engineHandover s = .next t ∧ CommandEnded s t s.ev.k c 2 0)
          ∧ (mayUse s c.ctx (nameEntry s key) = true →
            ((nameEntry s key).w0.toNat / 2 ^ 56 ≠ 4 → ∃ t, exec .engineHandover s = .next t ∧ CommandEnded s t s.ev.k c 6 0)
            ∧ ((nameEntry s key).w0.toNat / 2 ^ 56 = 4 → (nameEntry s key).holds ≠ 65535 → TableWritable s key → ∃ t e, exec .engineHandover s = .next t ∧ t.cmds = setAt s.cmds s.ev.k e
                ∧ e = { c with name := some (BitVec.ofNat 64 (name.toNat % 2 ^ 64)) }
                ∧ (nameEntry t key).holds = (nameEntry s key).holds + 1 ∧ DataKept s t)))

/-- R172, R218, R293: a running command begins its next segment of at most 1 MiB: with a global destination it pins every sector
that it will write, and without one nothing; at a boundary an idle engine takes the ready queue whose head has the lowest
class, first in its round among equals, and a step that it takes has the room of its next chunk at the next hop from then on
(R289). That segments are cut from the start of the destination is the model's reading (log entry 42). -/
def Sys2Proof.Claim.EngineSegments : Prop :=
  ∀ (s : State),
    (∀ c, s.cmds[s.ev.k]? = some c → c.stage = .running → c.kind.isStep = false → c.parked = false → c.pos = c.segEnd → c.stop = none →
      c.pos ≠ c.len →
      let n := min (2 ^ 20 - c.pos % 2 ^ 20) (c.len - c.pos)
      let poolOk := s.ev.flag = false ∧ (if c.kind = .eblkGet then c.y.toNat else c.x.toNat) + c.len ≤ (s.block c.blk).poolSize
      (c.kind.toGlobal = false → (c.kind = .eblkPut → poolOk) →
        ∃ t, exec .engineSegmentStart s = .next t ∧ t = { s with cmds := setAt s.cmds s.ev.k { c with segEnd := c.pos + n } })
      ∧ (c.kind = .eblkGet ∨ c.kind = .eblkPut → ¬ poolOk → c.name = none →
          ∃ t, exec .engineSegmentStart s = .next t ∧ CommandEnded s t s.ev.k c 5 0 ∧ Unpinned s t c)
      ∧ (c.kind.toGlobal = true → (c.kind = .eblkGet → poolOk) → c.pins = [] →
          let va := c.x.toNat + c.pos
          let r := placePages c 18 va (va + n) s []
          let c1 := { c with pages := r.2.1 }
          r.1 = .all → (∀ j, j < n → j = 0 ∨ (va + j) % 64 = 0 → satisfied r.2.2 (engineAgent s c.engine) (destAddr c1 (va + j) / 64) true = true
            ∧ ∀ p, p ∈ r.2.2.tok.pins → p.sector ≠ destAddr c1 (va + j) / 64) →
          ∃ t e, exec .engineSegmentStart s = .next t ∧ t.cmds = setAt s.cmds s.ev.k e ∧ e = { c1 with pins := e.pins, segEnd := c.pos + n }
            ∧ DataKept s t
            ∧ ∀ j, j < n → j = 0 ∨ (va + j) % 64 = 0 → destAddr c1 (va + j) / 64 ∈ e.pins
                ∧ ∃ p, p ∈ t.tok.pins ∧ p.agent = engineAgent s c.engine ∧ p.sector = destAddr c1 (va + j) / 64))
    ∧ ((∀ c, c ∈ s.cmds → c.engine = s.ev.k → c.stage ≠ .running) → ∀ e, e ∈ readyHeads s s.ev.k →
        ∃ t b c, exec .engineChunkBoundary s = .next t ∧ b ∈ readyHeads s s.ev.k ∧ s.cmds[b.2.2]? = some c
          ∧ (∀ f, f ∈ readyHeads s s.ev.k → b.1 < f.1 ∨ (b.1 = f.1 ∧ b.2.1 ≤ f.2.1))
          ∧ (c.kind.isStep = false → t = { s with cmds := setAt s.cmds b.2.2 { c with stage := .running } })
          ∧ (c.kind.isStep = true → c.pos ≠ 0 →
              let n := min (stepChunk c) (c.len - c.pos)
              let l := stepEntry c 0 / 256 % 32
              let pair := (c.pair.getD 0).toNat
              let sends := (stepEntry c 0 / 8192 = 0 ∨ stepEntry c 0 / 8192 = 3) ∧ (s.link l).trained = true
              ∃ e, t.cmds = setAt s.cmds b.2.2 e ∧ e = { c with stage := .running, segEnd := c.pos + n, room := e.room }
                ∧ (sends → e.room = some (l, n) ∧ Sparse.get 0 (t.link l).used pair = Sparse.get 0 (s.link l).used pair + n)
                ∧ (¬ sends → e.room = c.room ∧ t.links = s.links)
                ∧ Sparse.get 15 t.lastPair s.ev.k = pair ∧ DataKept s t))

/-- R171, R172, R176, R178, R218, R293: a command is handed over, prepared and moved segment by segment.
That the segments are cut from the start of the destination (log entry 42), and the order in which commands are
handed over (log entry 44), are the model's reading. -/
def Obligations.Engine : Prop :=
  Claim.EngineHandover ∧ Claim.EngineSegments

/-- R172, R173, R177, R220, R292: a command whose last byte is moved ends with status 0 and its length, one whose failing byte
is reached with status 4 and that address; a flush ends once every put of its context issued before it has ended, and then the
bytes of those puts stand in the pool; a step ends when every packet of it has been accepted by its first link, and raises the
chunk counter that it names.
That an EPKT raises its own counter as it completes, and with status 0 alone (log entry 99), and that the puts a
flush follows stand in the pool at its end (log entry 43), are the model's reading. -/
def Obligations.EngineCompletion : Prop :=
  ∀ (s : State) (c : Cmd), s.cmds[s.ev.k]? = some c → c.round = none →
    (c.stage = .running → c.kind.isStep = false → c.pos = c.segEnd → c.name = none →
      (c.stop = none → c.pos = c.len → c.kind ≠ .eblkFlush →
        ∃ t, exec .engineCommandComplete s = .next t ∧ CommandEnded s t s.ev.k c 0 c.len ∧ Unpinned s t c ∧ MemoryKept s t)
      ∧ (∀ a, c.stop = some a →
        ∃ t, exec .engineCommandComplete s = .next t ∧ CommandEnded s t s.ev.k c 4 a ∧ Unpinned s t c ∧ MemoryKept s t)
      ∧ (c.stop = none → c.pos = c.len → c.kind = .eblkFlush →
        (∀ e, e ∈ s.cmds → e.seq < c.seq → e.ctx = c.ctx → e.kind ≠ .eblkPut) →
        ∃ t, exec .engineCommandComplete s = .next t ∧ CommandEnded s t s.ev.k c 0 0 ∧ MemoryKept s t
          ∧ (∀ a, Sparse.get 0 t.pool a = (s.poolPend.filter (fun e => decide (e.1 < c.seq) && e.2.1 == c.ctx && e.2.2.1 == a)).foldl
              (fun _ e => e.2.2.2) (Sparse.get 0 s.pool a))
          ∧ ∀ e, e ∈ t.poolPend ↔ e ∈ s.poolPend ∧ ¬ (e.1 < c.seq ∧ e.2.1 = c.ctx)))
    ∧ (c.stage = .finishing → c.kind.isStep = true →
      (∀ e p, e ∈ s.links → .packet p (some c.owner) ∉ e.2.queue) →
        ∃ t, exec .epktLocalCompletion s = .next t ∧ CommandEnded s t s.ev.k c 0 c.len ∧ Unpinned s t c
          ∧ ∀ ctr, c.kind = .epkt true ctr → (Sparse.find s.blocks c.blk).isSome = true → (counterOf s c.blk ctr).armed = false →
              (∀ e, e ∈ s.cmds → onCounter c.blk ctr e = true → e.stage ≠ .waitArm) →
              counterOf t c.blk ctr = raised (counterOf s c.blk ctr))

/-- R288, R289, R291: a packet that no object of this module answers is discarded with one record; FWD sends it on with its next
entry popped once the next hop's buffer for its pair has room, and discards it where the link is not trained; DLV and RED write or combine every byte of its payload at the
receiving engine and then update the chunk's status word. -/
def Obligations.PacketsReceived : Prop :=
  ∀ (s : State) (l : Nat) (p : Packet), s.packets[s.ev.k]? = some (l, p) → s.sys.span = .service →
    (∀ j q, j < s.ev.k → s.packets[j]? = some q → ¬ (q.2.cid = p.cid ∧ q.2.chix = p.chix)) →
    ObjectReadable s (p.cid.toNat % 16) →
    let room := (s.link (entryField p 8 5)).trained = true →
      Sparse.get 0 (s.link (entryField p 8 5)).used (p.cid.toNat % 16) + p.payload.length ≤ 2 ^ 20
    let gone (t : State) : Prop := t.packets = dropAt s.packets s.ev.k
    let discarded (t : State) : Prop := gone t ∧ DataKept s t ∧ t.sys.boxHead = s.sys.boxHead + 1 ∧ t.links = s.links
    ((∀ o, commOf s (p.cid.toNat % 16) = some o →
        entryField p 4 3 ≠ s.sys.modid.toNat ∨ o.w0 / 2 ^ 48 % 2 ^ 16 ≠ p.cid.toNat ∨ o.w0 / 2 ^ 16 % 2 ^ 32 ≠ p.version.toNat) →
      ∃ t, exec .packetReceive s = .next t ∧ discarded t)
    ∧ ∀ o, commOf s (p.cid.toNat % 16) = some o → entryField p 4 3 = s.sys.modid.toNat → o.w0 / 2 ^ 48 % 2 ^ 16 = p.cid.toNat →
        o.w0 / 2 ^ 16 % 2 ^ 32 = p.version.toNat →
      (entryField p 13 3 = 0 →
        ((s.link (entryField p 8 5)).trained = true → room →
          ∃ t, exec .packetReceive s = .next t ∧ gone t ∧ DataKept s t
            ∧ (t.link (entryField p 8 5)).queue = (s.link (entryField p 8 5)).queue ++ [.packet (popped p) none])
        ∧ ((s.link (entryField p 8 5)).trained = false → ∃ t, exec .packetReceive s = .next t ∧ discarded t))
      ∧ (1 ≤ entryField p 13 3 → entryField p 13 3 ≤ 3 → (entryField p 13 3 = 3 → room) → HopReads s p o [] → placeChunk s o.ctx p.dstc.toNat p.payload.length = none →
          ∃ t, exec .packetReceive s = .next t ∧ discarded t)
      ∧ ∀ ps da pa, (entryField p 13 3 = 1 ∨ entryField p 13 3 = 2) → placeChunk s o.ctx p.dstc.toNat p.payload.length = some ps →
          let agent := ownAgent s.sys (receiver s p ((ps.head?.map (·.1)).getD 0))
          let red := entryField p 13 3 == 2
          domainAddr s.sys (o.base + 0x1000 + 8 * p.chix.toNat) = some da → localAddr s.sys da = some pa → da % 64 + 8 ≤ 64 →
          (∀ e, e ∈ ps → satisfied s agent (e.1 / 64) true = true ∧ (∀ q, q ∈ s.tok.pins → q.sector ≠ e.1 / 64) ∧ e.1 / 64 ≠ da / 64 ∧ e.1 % 64 + e.2.2 ≤ 64
            ∧ e.2.1 + e.2.2 ≤ p.payload.length ∧ (red = true → e.2.2 % (typeBits p.type / 8) = 0) ∧ isHomeOf s agent (e.1 / 64) = false) →
          (ps.map (fun e => e.1 / 64)).Nodup → HomeHasAll s da → HopReads s p o (da / 64 :: ps.map (fun e => e.1 / 64)) →
          ∃ t, exec .packetReceive s = .next t ∧ gone t
            ∧ (∀ e, e ∈ ps → ∀ j, j < e.2.2 → some (heldByte t agent (e.1 + j))
                = (if red then Machine.redBytes p.op p.type (bytesAt (heldByte s agent) e.1 e.2.2) ((p.payload.drop e.2.1).take e.2.2)
                  else (p.payload.drop e.2.1).take e.2.2)[j]?)
            ∧ BitVec.ofNat 64 (leValue (bytesAt (homeByte t) pa 8))
                = statusAfter (BitVec.ofNat 64 (leValue (bytesAt (homeByte s) pa 8))) (BitVec.ofNat 8 (o.w0 / 2 ^ 8))
                    (BitVec.ofNat 8 (2 ^ s.sys.modid.toNat)) p.contrib p.version red (p.ops.getLsbD 7)
            ∧ (∀ a, ¬ (pa ≤ a ∧ a < pa + 8) → homeByte t a = homeByte s a)
            ∧ ∀ v, registersOf (t.warp v) = registersOf (s.warp v)

/-- R290: a receiver answers a proposal of another version with NAK, notes the first proposer it hears for its own, acknowledges
it once its packets are written, refuses a higher-numbered one and gives a lower-numbered one its place; RELEASE frees the
round; COMMIT writes VERSION and MEMBERS and is answered with DONE. -/
def Sys2Proof.Claim.RoundsAtReceiver : Prop :=
  ∀ (s : State) (type : BitVec 3) (m : RoundMsg), s.roundMsgs[s.ev.k]? = some (type, m) → s.sys.span = .service →
    let rest := dropAt s.roundMsgs s.ev.k
    (type = 0 → ObjectReadable s m.pair.toNat →
      ((commOf s m.pair.toNat = none ∨ ∃ o, commOf s m.pair.toNat = some o ∧ o.w0 / 2 ^ 16 % 2 ^ 32 ≠ m.version.toNat) →
        ∃ t, exec .prop s = .next t ∧ RoundSent s t 2 (replyTo s m m.src) ∧ t.rounds = s.rounds ∧ DataKept s t)
      ∧ ∀ o, commOf s m.pair.toNat = some o → o.w0 / 2 ^ 16 % 2 ^ 32 = m.version.toNat →
        (heldFor s m.pair m.version = none →
          ∃ t, exec .prop s = .next t ∧ t.roundMsgs = rest ++ [(0, m)] ∧ DataKept s t
            ∧ heldFor t m.pair m.version = some ⟨m.pair, m.version, m.src, m.mask, false⟩)
        ∧ ∀ h, heldFor s m.pair m.version = some h →
          (h.proposer = m.src → s.ev.flag = true → ownPacketsGone s m.pair m.version = true →
            ∃ t, exec .prop s = .next t ∧ RoundSent s t 1 (replyTo s m m.src) ∧ heldFor t m.pair m.version = some { h with acked := true }
              ∧ DataKept s t)
          ∧ (h.proposer.toNat < m.src.toNat →
            ∃ t, exec .prop s = .next t ∧ RoundSent s t 2 (replyTo s m m.src) ∧ t.rounds = s.rounds ∧ DataKept s t)
          ∧ (m.src.toNat < h.proposer.toNat →
            ∃ t, exec .prop s = .next t ∧ RoundSent s t 2 (replyTo s m h.proposer) ∧ (0, m) ∈ t.roundMsgs ∧ DataKept s t
              ∧ heldFor t m.pair m.version = some ⟨m.pair, m.version, m.src, m.mask, false⟩))
    ∧ (type = 3 → ∃ t, exec .release s = .next t ∧ DataKept s t
        ∧ ∀ r, r ∈ t.rounds ↔ r ∈ s.rounds ∧ ¬ (r.pair = m.pair ∧ r.version = m.version ∧ r.proposer = m.src))
    ∧ (type = 4 → ∀ o da pa, commOf s m.pair.toNat = some o → domainAddr s.sys o.base = some da → localAddr s.sys da = some pa →
        da % 64 + 8 ≤ 64 → o.w0 < 2 ^ 64 → HomeHasAll s da →
        ∃ t, exec .commit s = .next t ∧ RoundSent s t 5 (replyTo s m m.src)
          ∧ (∀ r, r ∈ t.rounds → ¬ (r.pair = m.pair ∧ r.version = m.version))
          ∧ (let w : W64 := BitVec.ofNat 64 (leValue (bytesAt (homeByte t) pa 8))
             w.extractLsb' 16 32 = m.version + 1 ∧ w.extractLsb' 8 8 = m.mask ∧ (w.extractLsb' 48 16).toNat = o.w0 / 2 ^ 48
               ∧ (w.extractLsb' 0 8).toNat = o.w0 % 2 ^ 8)
          ∧ (∀ a, ¬ (pa ≤ a ∧ a < pa + 8) → homeByte t a = homeByte s a) ∧ ∀ v, registersOf (t.warp v) = registersOf (s.warp v))

/-- R290: the proposer commits when the last acknowledgement has come, releases everyone and ends its step with status 3 at a
refusal before that, and ends it with status 0 when the last DONE has come. -/
def Sys2Proof.Claim.RoundsAtProposer : Prop :=
  ∀ (s : State) (type : BitVec 3) (m : RoundMsg) (k : Nat) (c : Cmd) (r : Round),
    s.roundMsgs[s.ev.k]? = some (type, m) → s.sys.span = .service → InRound s m k c r →
    let left (a : BitVec 8) (j : Nat) : Bool := a.getLsbD j && j != m.src.toNat
    (type = 1 → ∃ t e q, exec .ack s = .next t ∧ t.cmds[k]? = some e ∧ e.round = some q ∧ q.waitDone = r.waitDone
        ∧ (∀ j, q.waitAck.getLsbD j = left r.waitAck j) ∧ DataKept s t
        ∧ (r.waitAck ≠ 0 → q.waitAck = 0 → ∀ j, j < 8 → r.waitDone.getLsbD j = true →
            RoundSent s t 4 ⟨s.sys.modid, BitVec.ofNat 3 j, r.pair, r.version, r.mask⟩))
    ∧ (type = 2 → r.waitAck ≠ 0 → ∃ t, exec .nak s = .next t ∧ CommandEnded s t k c 3 0
        ∧ ∀ j, j < 8 → r.waitDone.getLsbD j = true → RoundSent s t 3 ⟨s.sys.modid, BitVec.ofNat 3 j, r.pair, r.version, r.mask⟩)
    ∧ (type = 5 → ∃ t, exec .done s = .next t
        ∧ ((∀ j, left r.waitDone j = false) → CommandEnded s t k c 0 0)
        ∧ ((∃ j, left r.waitDone j = true) → ∃ e q, t.cmds[k]? = some e ∧ e.round = some q
            ∧ (∀ j, q.waitDone.getLsbD j = left r.waitDone j) ∧ DataKept s t))

/-- R290: a round of agreement at its receivers and at its proposer.
INFO 0 of a step that DONE ends is the model's reading (log entry 45). -/
def Obligations.Rounds : Prop :=
  Claim.RoundsAtReceiver ∧ Claim.RoundsAtProposer

/-! ### Names at the table and the harts -/

/-- R178, R179, R259 to R266: a name operation takes effect at the table and answers: status 2 for a name not handed out here, 1
for one gone, 3 without the right, 4 without room, 5 where the expected body differs, else 0 with its effect; an NNEW at the end of
its reservation waits for the flash write, which ends with the next 2^24 values or with status 4 for those that wait; a hart's port
hands over the operation with the name and bodies that it reads. -/
def Obligations.NamesAtTable : Prop :=
  (∀ (s : State) (o : NameOp), s.names.ops[s.ev.k]? = some o → o.fetch = false → o.asker ≠ .hub →
    let answered (t : State) (st : Nat) (body : Option (W64 × W64)) : Prop :=
      exec .nameOpComplete s = .next t ∧ NameAnswered s t o st body
    let v : W64 := o.name.extractLsb' 0 64
    let reclaimed (key : Nat) (e : NameEntry) : Prop :=
      ∀ da pa, s.names.reclaim.getLsbD 0 = true → s.names.recHead + 1 ≠ s.names.recTail →
        domainAddr s.sys ((s.names.reclaim.extractLsb' 12 40).toNat * 4096 + 32 * s.names.recHead.toNat) = some da →
        localAddr s.sys da = some pa → da % 64 + 32 ≤ 64 → HomeHasAll s da →
        ∃ t, answered t 0 none ∧ nameEntry t key = {} ∧ t.names.recHead = s.names.recHead + 1
          ∧ bytesAt (homeByte t) pa 32
              = leSplit 8 e.counter.toNat ++ leSplit 8 e.ctx.toNat ++ leSplit 8 e.w0.toNat ++ leSplit 8 e.w1.toNat
    (o.kind = .release →
      ((o.name.extractLsb' 64 64 ≠ s.names.chip.setWidth 64 ∨ v ∉ askerHolds s o) → ∃ t, answered t 3 none ∧ TableKept s t)
      ∧ ∀ key e, KnownName s o.name → findEntry s v.toNat = some key → e = nameEntry s key →
        (mayUse s o.ctx e = false → ∃ t, answered t 3 none ∧ TableKept s t)
        ∧ (mayUse s o.ctx e = true → v ∈ askerHolds s o → TableWritable (setAskerHold s o false v) key →
          ((e.state ≠ 2 ∨ e.holds ≠ 1 ∨ s.names.reclaim.getLsbD 0 = false) →
            ∃ t, answered t 0 none ∧ (askerHolds t o).count v + 1 = (askerHolds s o).count v
              ∧ nameEntry t key = { e with holds := e.holds - 1 } ∧ MemoryKept s t)
          ∧ (e.state = 2 → e.holds = 1 → reclaimed key e)))
    ∧ (o.kind ∈ [.look, .lookHold, .delete, .cas] →
      (¬ KnownName s o.name → ∃ t, answered t 2 none ∧ TableKept s t)
      ∧ (KnownName s o.name → findEntry s v.toNat = none → ∃ t, answered t 1 none ∧ TableKept s t)
      ∧ ∀ key e, KnownName s o.name → findEntry s v.toNat = some key → e = nameEntry s key →
        (e.state ≠ 1 → ∃ t, answered t 1 none ∧ TableKept s t)
        ∧ (e.state = 1 →
          (o.kind = .look → mayUse s o.ctx e = true → ∃ t, answered t 0 (some (e.w0, e.w1)) ∧ TableKept s t)
          ∧ ((o.kind = .look ∨ o.kind = .lookHold) → mayUse s o.ctx e = false → ∃ t, answered t 3 none ∧ TableKept s t)
          ∧ (o.kind = .lookHold → mayUse s o.ctx e = true →
            let full := e.holds = 65535 ∨ ((∃ w id sd, o.asker = .warp w id sd) ∧ 16 ≤ (askerHolds s o).length)
            (full → ∃ t, answered t 4 none ∧ TableKept s t)
            ∧ (¬ full → TableWritable (setAskerHold s o true v) key →
                ∃ t, answered t 0 (some (e.w0, e.w1)) ∧ nameEntry t key = { e with holds := e.holds + 1 }
                  ∧ askerHolds t o = askerHolds s o ++ [v] ∧ MemoryKept s t))
          ∧ (o.kind = .delete →
            (¬ MayChange s o.ctx e 3 → ∃ t, answered t 3 none ∧ TableKept s t)
            ∧ (MayChange s o.ctx e 3 → TableWritable s key →
              ((e.holds ≠ 0 ∨ s.names.reclaim.getLsbD 0 = false) →
                ∃ t, answered t 0 none ∧ nameEntry t key = { e with state := 2 } ∧ MemoryKept s t)
              ∧ (e.holds = 0 → reclaimed key e)))
          ∧ (o.kind = .cas →
            (¬ MayChange s o.ctx e 4 → ∃ t, answered t 3 none ∧ TableKept s t)
            ∧ (MayChange s o.ctx e 4 → e.w0 = o.b0 → e.w1 = o.b1 → 1 ≤ (o.n0.extractLsb' 56 8).toNat → (o.n0.extractLsb' 56 8).toNat ≤ 7 →
                TableWritable s key →
                ∃ t e', answered t 0 none ∧ nameEntry t key = e' ∧ e' = { e with w0 := o.n0, w1 := e'.w1 }
                  ∧ UnderGen e'.w1 o.n1 (o.b1.extractLsb' 48 16 + 1) ∧ MemoryKept s t)
            ∧ ∀ da, MayChange s o.ctx e 4 → (e.w0 ≠ o.b0 ∨ e.w1 ≠ o.b1) → StoresAt s o da →
                ∃ t, answered t 5 none ∧ t.names.table = s.names.table
                  ∧ Holds t (askerAgent s o) da (leSplit 8 e.w0.toNat ++ leSplit 8 e.w1.toNat))))
    ∧ (o.kind = .new →
      (¬ MayCreate s o → ∃ t, answered t 3 none ∧ TableKept s t)
      ∧ (MayCreate s o → s.names.flashBusy = true ∨ s.names.resEnd.toNat ≤ s.names.next.toNat + 1 →
          ∃ t, exec .nameOpComplete s = .next t ∧ t = { s with names :=
            { s.names with flashBusy := true, ops := setAt s.names.ops s.ev.k { o with waitFlash := true } } })
      ∧ (MayCreate s o → s.names.flashBusy = false → s.names.next.toNat + 1 < s.names.resEnd.toNat →
        ((∀ k, k ∈ nameKeys s.names.next.toNat → (nameEntry s k).state ≠ 0) → ∃ t, answered t 4 none ∧ TableKept s t)
        ∧ ∀ key da, (nameKeys s.names.next.toNat).find? (fun k => (nameEntry s k).state == 0) = some key →
          TableWritable { s with names := { s.names with next := s.names.next + 1 } } key → StoresAt s o da →
          ∃ t e, answered t 0 none ∧ nameEntry t key = e ∧ e.counter = s.names.next ∧ e.state = 1 ∧ e.ctx = o.ctx ∧ e.holds = 0
            ∧ e.w0 = o.b0 ∧ UnderGen e.w1 o.b1 0 ∧ t.names.next = s.names.next + 1
            ∧ Holds t (askerAgent s o) da (leSplit 8 s.names.next.toNat ++ leSplit 8 s.names.chip.toNat))))
  ∧ (∀ (s : State) (o : NameOp) (h : Nat), s.names.ops[s.ev.k]? = some o → o.fetch = true → o.asker = .port h →
      let readable : Prop := ∀ sec, sec ∈ operandSectors s (s.port h) → canRead s (askerAgent s o) sec = true
      (readable → ∃ t q, exec .nameOpComplete s = .next t ∧ t.names.ops = setAt s.names.ops s.ev.k q ∧ q.asker = o.asker
        ∧ q.kind = o.kind ∧ q.ctx = o.ctx ∧ q.out = o.out ∧ HasOperands s (s.port h) q ∧ TableKept s t)
      ∧ (¬ readable → ∃ t, exec .nameOpComplete s = .next t ∧ t.names = s.names ∧ DataKept s t))
  ∧ (∀ s : State, s.names.flashBusy = true →
      (s.ev.flag = false → ∃ t, exec .flashWriteComplete s = .next t ∧ t.names.resEnd = s.names.resEnd + 0x1000000
        ∧ t.names.flashEnd = t.names.resEnd ∧ t.names.flashBusy = false ∧ (∀ o, o ∈ t.names.ops → o.waitFlash = false) ∧ DataKept s t)
      ∧ (s.ev.flag = true → ∃ t, exec .flashWriteComplete s = .next t ∧ t.names.flashBusy = false ∧ TableKept s t
        ∧ t.names.ops = s.names.ops.filter (fun o => !o.waitFlash)
        ∧ ∀ o, o ∈ s.names.ops → o.waitFlash = true →
            (∀ w id sd x, o.asker = .warp w id sd → Sparse.find s.warps w = some x →
              (t.warp w).arch.getS sd.toNat = BitVec.ofNat 64 (4 * 2 ^ 56) ∧ ∀ r, (r, id) ∉ (t.warp w).spend)
            ∧ ∀ h, o.asker = .port h → (t.port h).npst = BitVec.ofNat 64 (4 * 2 ^ 56)))
  ∧ ∀ (s : State) (i : Instr) (kind : NameOpKind),
      (i, kind) ∈ [(.namePortLook, .look), (.namePortLookHold, .lookHold), (.namePortRelease, .release), (.namePortNew, .new),
        (.namePortDelete, .delete), (.namePortCas, .cas)] → s.sys.span = .service →
      let p := s.port s.ev.hart
      ((p.npst.extractLsb' 56 8).toNat = 255 → exec i s = .next s)
      ∧ ((p.npst.extractLsb' 56 8).toNat ≠ 255 → ∃ t o, exec i s = .next t ∧ t.names.ops = s.names.ops ++ [o]
          ∧ o.asker = .port s.ev.hart ∧ o.kind = kind ∧ o.ctx = s.ev.ctx
          ∧ o.out = (domainAddr s.sys (if kind = .new then p.npa.toNat else p.npb.toNat)).map (fun a => (a, a + 8))
          ∧ (if (operandSectors s p).all (canRead s (askerAgent s o)) then HasOperands s p o else o.fetch = true)
          ∧ ((t.port s.ev.hart).npst.extractLsb' 56 8).toNat = 255 ∧ t.names.table = s.names.table ∧ DataKept s t)

/-- R4, R12, R221, R232, R246, R254 to R258, R314, R335: `gx.launch` reads a name and queues its launch, or returns a status;
`gx.replay` drives a context's parked units and commands again; a hart's loads, stores, AMOs, LR and SC act on the bytes that its
cache holds; writes to control registers take effect under their access codes at supervisor level and nowhere else; a claim ends
the pending bit.
A failed name read reported as the hart's fault (log entry 35), the low 12 bits of CTXBASE as 0 (log entry 69) and the
64-byte sector as what LR reserves (log entry 70) are the model's reading. -/
def Obligations.HartsAct : Prop :=
  ∀ (s : State),
    let h := s.ev.hart
    (∀ d a b : BitVec 5, hartOpen s h = false →
      ((s.hart h).ctx = none → ∃ t, exec (.gxLaunch d a b) s = .next t ∧ HartWrote s t h d (hartStatus 5) ∧ t.grids = s.grids)
      ∧ ∀ ctx, (s.hart h).ctx = some ctx →
        let va := ((s.hart h).get a).toNat
        launchWaits s ctx va = [] →
        ((∀ n, ¬ NameRead s ctx va n) → ∃ t, exec (.gxLaunch d a b) s = .next t ∧ (t.hart h).fault = some va
            ∧ (t.hart h).x = (s.hart h).x ∧ t.grids = s.grids)
        ∧ ∀ n, NameRead s ctx va n →
          (∀ st, launchRecord s ctx n = .error st → st < 256 →
            ∃ t, exec (.gxLaunch d a b) s = .next t ∧ HartWrote s t h d (hartStatus st) ∧ t.grids = s.grids)
          ∧ ∀ r, launchRecord s ctx n = .ok r →
            (1024 ≤ (queueOf s ctx r.prio).length →
              ∃ t, exec (.gxLaunch d a b) s = .next t ∧ HartWrote s t h d (hartStatus 4) ∧ t.grids = s.grids)
            ∧ ((queueOf s ctx r.prio).length < 1024 → ∃ t seq, exec (.gxLaunch d a b) s = .next t
                ∧ seq = Sparse.get 0 s.seqs ctx.toNat + 1 ∧ Sparse.get 0 t.seqs ctx.toNat = seq
                ∧ HartWrote s t h d (seq.setWidth 64) ∧ GridQueued s t ctx r .hart (seq.setWidth 64) ((s.hart h).get b)
                ∧ MemoryKept s t ∧ t.warps = s.warps))
    ∧ (∀ d a : BitVec 5,
      let v := ((s.hart h).get a).toNat
      let ctx : BitVec 12 := BitVec.ofNat 12 v
      let known := v < 4096 ∧ (descriptor s ctx).valid = true ∧ ((descriptor s ctx).part = (s.hart h).part ∨ (s.hart h).part = 0)
      ((s.hart h).mode = .u ∨ (s.hart h).mode = .vu → ∃ t w, exec (.gxReplay d a) s = .next t ∧ (t.hart h).illegal = some w
          ∧ w.toNat = 2 ^ 15 * a.toNat + 2 ^ 12 + 2 ^ 7 * d.toNat + 11 ∧ (t.hart h).x = (s.hart h).x ∧ t.warps = s.warps)
      ∧ ((s.hart h).mode ≠ .u → (s.hart h).mode ≠ .vu → hartOpen s h = false →
        (¬ known → ∃ t, exec (.gxReplay d a) s = .next t ∧ HartWrote s t h d (hartStatus 5) ∧ t.warps = s.warps ∧ t.cmds = s.cmds)
        ∧ (known → parkedCount s ctx < 2 ^ 56 → ∃ t, exec (.gxReplay d a) s = .next t
            ∧ HartWrote s t h d (BitVec.ofNat 64 (parkedCount s ctx))
            ∧ (∀ c, c ∈ t.cmds ↔ ∃ e, e ∈ s.cmds ∧ c = if e.ctx = ctx then { e with parked := false } else e)
            ∧ MemoryKept s t ∧ ∀ w x, Sparse.find s.warps w = some x →
              (onCore s ctx x = false → t.warp w = x)
              ∧ (onCore s ctx x = true → ∀ u, u < x.arch.units.length →
                  (t.warp w).unit u = if parkedUnit (x.unit u) then { x.unit u with hold := .none } else x.unit u))))
    ∧ (∀ da,
      (∀ rd pa size sign, s.ev.hartOp = .load rd pa size sign → HartMay s h pa (2 ^ size.toNat) da false →
        ∃ t, exec .hartMemoryAccess s = .next t ∧ MemoryKept s t
          ∧ HartWrote s t h rd (extended (2 ^ size.toNat) sign (cacheRead s h da (2 ^ size.toNat))))
      ∧ (∀ rs pa size, s.ev.hartOp = .store rs pa size → HartMay s h pa (2 ^ size.toNat) da true → s.ev.flag = false →
        ∃ t, exec .hartMemoryAccess s = .next t ∧ HartStored s t h da (2 ^ size.toNat) ((s.hart h).get rs).toNat ∧ HartPassed s t h)
      ∧ (∀ op rd rs pa dword aq rl, s.ev.hartOp = .amo op rd rs pa dword aq rl → op.toNat ≤ 8 → (rl = true → HartReleases s h) →
        let n := if dword then 8 else 4
        HartMay s h pa n da true → ∃ t, exec .hartMemoryAccess s = .next t ∧ HartWrote s t h rd (extended n true (cacheRead s h da n))
          ∧ HartStored s t h da n (amoResult op (8 * n) (BitVec.ofNat _ (cacheRead s h da n))
              (BitVec.ofNat _ ((s.hart h).get rs).toNat)).toNat)
      ∧ (∀ rd pa dword aq rl, s.ev.hartOp = .lr rd pa dword aq rl → (rl = true → HartReleases s h) →
        let n := if dword then 8 else 4
        HartMay s h pa n da false → ∃ t, exec .hartMemoryAccess s = .next t ∧ (t.hart h).reserved = some (da / 64)
          ∧ HartWrote s t h rd (extended n true (cacheRead s h da n)) ∧ MemoryKept s t)
      ∧ (∀ rd rs pa dword aq rl, s.ev.hartOp = .sc rd rs pa dword aq rl →
        let n := if dword then 8 else 4
        (HartMay s h pa n da true → (s.hart h).reserved = some (da / 64) → (rl = true → HartReleases s h) →
          ∃ t, exec .hartMemoryAccess s = .next t
            ∧ HartWrote s t h rd 0 ∧ (t.hart h).reserved = none ∧ HartStored s t h da n ((s.hart h).get rs).toNat)
        ∧ (HartMay s h pa n da true → (s.hart h).reserved ≠ some (da / 64) → ∃ t, exec .hartMemoryAccess s = .next t
          ∧ HartWrote s t h rd 1 ∧ (t.hart h).reserved = none ∧ t.tok = s.tok ∧ MemoryKept s t)))
    ∧ (∀ pr pw sr sw : Bool,
      s.ev.hartOp = .fence pr pw sr sw ∨ (s.ev.hartOp = .fenceTso ∧ (pr && pw && sr && sw) = true) →
      h < 64 → (s.sys.span = .service ∨ s.sys.span = .bringUp) → (∀ op, (s.hart h).wait = some op → op = s.ev.hartOp) →
      let stores := pw = true ∧ (s.hart h).buffer ≠ []
      let port := (pr && pw && sr && sw) = true ∧ (s.port h).npst.extractLsb' 56 8 = 255
      ((¬ stores ∧ ¬ port) → ∃ t, exec .hartMemoryAccess s = .next t ∧ HartPassed s t h ∧ MemoryKept s t)
      ∧ ((stores ∨ port) → ∃ t, exec .hartMemoryAccess s = .next t ∧ (t.hart h).wait = some s.ev.hartOp
          ∧ (t.hart h).x = (s.hart h).x ∧ MemoryKept s t))
    ∧ (let off := s.ev.id
       let v := s.ev.val0
       let wrote (t : State) : Prop := exec .registerWrite s = .next t
       (supervisor (s.hart h) = false → exec .registerWrite s = .next s)
       ∧ (supervisor (s.hart h) = true →
         (off = 0 → ∃ t, wrote t ∧ t.sys.ctxBase = v &&& ~~~0xFFF ∧ DataKept s t)
         ∧ (off = 8 → ∃ t, wrote t ∧ t.names.reclaim = v &&& 0x000FFFFFFFFFF001)
         ∧ (off = 0x18 → ∃ t, wrote t ∧ t.names.recTail = v.extractLsb' 0 12)
         ∧ (off = 0x40000 → ∃ t, wrote t ∧ t.sys.audctl = v &&& 0x800000000000001F ∧ DataKept s t)
         ∧ (off = 0x70008 → ∃ t, wrote t ∧ t.sys.capw = v.extractLsb' 0 16 ∧ DataKept s t)
         ∧ (∀ p, p < 16 → off = 0x30000 + 8 * p →
             ∃ t, wrote t ∧ Sparse.get 0 t.sys.channels p = v &&& 0x800FFFFFFFFFFFFF ∧ DataKept s t)
         ∧ (∀ p, p < 64 → (s.port p).npst.extractLsb' 56 8 ≠ 255 →
             (off = 0x20000 + 0x40 * p + 8 → ∃ t, wrote t ∧ (t.port p).npa = v ∧ DataKept s t)
             ∧ (off = 0x20000 + 0x40 * p + 16 → ∃ t, wrote t ∧ (t.port p).npb = v ∧ DataKept s t))
         ∧ (off ∈ [0x10, 0x40008, 0x50000, 0x70000] → exec .registerWrite s = .next s)))
    ∧ (∃ t, exec .interruptClaim s = .next t ∧ DataKept s t
        ∧ ∀ j, t.sys.pending.getLsbD j = (s.sys.pending.getLsbD j && j != s.ev.k))
    ∧ (supervisor (s.hart h) = false → exec .faultEntryFree s = .next s ∧ exec .fbstatDroppedClear s = .next s)
    ∧ (supervisor (s.hart h) = true → s.ev.core < 96 →
      (s.ev.k < (s.core s.ev.core).faults.length → ∃ t, exec .faultEntryFree s = .next t ∧ DataKept s t
        ∧ ∀ j, (t.core s.ev.core).faults[j]? = ((s.core s.ev.core).faults[j]?).map (fun e =>
            if j = s.ev.k then { e with valid := false } else e))
      ∧ ∃ t, exec .fbstatDroppedClear s = .next t ∧ (t.core s.ev.core).dropped = false
          ∧ (t.core s.ev.core).faults = (s.core s.ev.core).faults ∧ DataKept s t)

/-! ### Blocks, grids and graphs -/

/-- R234, R235, R238: the launch unit places work of the lowest class among what has room, a single block on the lowest core with
room, and new blocks start as R235 says, once every queued launch has its data segment (R28); it stops the victim of the highest class, most recently placed, for work that has no
room; a stopping block is saved once it has drained. -/
def Obligations.BlocksPlacedAndPreempted : Prop :=
  ∀ (s : State), s.sys.span = .service →
    (DataCopied s → (∀ e, e ∈ allWork s → coresFor s e.2.2 [] = none) → exec .blockDispatch s = .next s)
    ∧ (DataCopied s → ∀ e, e ∈ allWork s → coresFor s e.2.2 [] ≠ none →
      ∃ t c ctx w cores, exec .blockDispatch s = .next t ∧ (c, ctx, w) ∈ allWork s ∧ coresFor s w [] = some cores
        ∧ (∀ f, f ∈ allWork s → coresFor s f.2.2 [] ≠ none → c ≤ f.1)
        ∧ (∀ gid n g, w = .fresh gid n → Sparse.find s.grids gid = some g → NewBlocks t gid g cores)
        ∧ (∀ (bs : List Nat) (k : Nat) (blk core : Nat), w = .restore bs → bs.Nodup → bs[k]? = some blk → cores[k]? = some core →
            (t.block blk).core = core ∧ ((t.block blk).status = .resident ∨ (t.block blk).status = .stopping)))
    ∧ (∀ w need cores, workNeed s w = (need, 1) → coresFor s w [] = some cores →
        ∃ core, cores = [core] ∧ core < 96 ∧ RoomOn s need core ∧ ∀ c, c < core → ¬ RoomOn s need c)
    ∧ (∀ e, e ∈ allWork s → coresFor s e.2.2 (stoppingBlocks s) = none → victims s e.1 e.2.2 ≠ [] →
      ∃ t c ctx w v, exec .preemptVictim s = .next t ∧ (c, ctx, w) ∈ allWork s ∧ coresFor s w (stoppingBlocks s) = none
        ∧ v ∈ victims s c w ∧ c < v.1 ∧ (∀ f, f ∈ victims s c w → f.1 < v.1 ∨ (f.1 = v.1 ∧ f.2.1 ≤ v.2.1))
        ∧ (∀ k, k ∈ v.2.2 → (s.block k).status = .resident ∧ (t.block k).status = .stopping)
        ∧ (∀ k x, Sparse.find t.warps k = some x → x.blk ∈ v.2.2 → x.stopped = true)
        ∧ t.sys.boxHead = s.sys.boxHead + BitVec.ofNat _ v.2.2.length ∧ DataKept s t)
    ∧ ((∀ e, e ∈ allWork s → coresFor s e.2.2 (stoppingBlocks s) ≠ none ∨ victims s e.1 e.2.2 = []) → exec .preemptVictim s = .next s)
    ∧ (let blk := s.ev.k
       let b := s.block blk
       (b.status ≠ .stopping ∨ ¬ Drained s blk → exec .preemptComplete s = .next s)
       ∧ (b.status = .stopping → Drained s blk → ∃ t, exec .preemptComplete s = .next t ∧ DataKept s t
          ∧ (b.cut = true → (t.block blk).status = .ended ∧ ∀ k x, Sparse.find t.warps k = some x → x.blk = blk → x.ended = true)
          ∧ (b.cut = false → b.joining = false → (t.block blk).status = .saved ∧ (t.block blk).mq = b.mq ∧ (t.block blk).fifos = b.fifos)
          ∧ (b.cut = false → b.joining = true → (t.block blk).status = .suspended ∨ (t.block blk).status = .ready)
          ∧ ∀ g, g ∈ (t.core b.core).granules → (s.warp g.warp).blk ≠ blk))

/-- R190, R241, R244, R306 to R310: a context whose resident warps have all waited for 20 µs becomes a donor at its best class,
and stops being one when what it waits on has changed; a removed context's queues and commands go and its blocks end or are cut; an
eligible block with a state error goes back to its checkpoint, and any other removes its context.
That a context of partition 0 is the resident OS's own, with a path of removal apart from the tenants', is the model's
reading (log entry 15). -/
def Obligations.DonationsRemovalsAndRollbacks : Prop :=
  ∀ (s : State) (ctx : BitVec 12), s.ev.ctx = ctx →
    (∀ t0, Sparse.find s.waitSince ctx.toNat = some t0 →
      (s.now < t0 + 20000 → exec .donationStart s = .next s)
      ∧ (t0 + 20000 ≤ s.now → Waits s ctx → (∀ d, d ∈ s.donations → d.donor ≠ ctx) → (∀ e, e ∈ s.removing → e.1 ≠ ctx) →
        (∀ sec, sec ∈ watchedSectors s ctx → (holding s (ownAgent s.sys 221) sec).valid = true
            ∧ 1 ≤ (holding s (ownAgent s.sys 221) sec).tokens ∧ isPending s (ownAgent s.sys 221) sec = false) →
        ∃ t d, exec .donationStart s = .next t ∧ t = { s with donations := s.donations ++ [d] } ∧ d.donor = ctx ∧ d.isOver = false
          ∧ d.watched = watchedSectors s ctx ∧ (∀ e, e ∈ residentWarps s ctx → d.cls.toNat ≤ e.2.cls.toNat)
          ∧ ∃ e, e ∈ residentWarps s ctx ∧ d.cls = e.2.cls))
    ∧ (∀ d, s.donations[s.ev.k]? = some d →
      let settled := d.isOver = true ∨ (∃ e, e ∈ s.removing ∧ e.1 = d.donor) ∨ (∃ e, e ∈ d.fes ∧ spFull s e.1 (4 * e.2.1) ≠ e.2.2)
        ∨ ∃ e, e ∈ d.phases ∧ phaseOf (barDword s e.1 e.2.1) ≠ e.2.2
      (¬ settled → exec .donationEnd s = .next s)
      ∧ (settled → ∃ t, exec .donationEnd s = .next t ∧ t.donations = dropAt s.donations s.ev.k
          ∧ ∀ v, registersOf (t.warp v) = registersOf (s.warp v)))
    ∧ (s.sys.span = .service → (∀ e, e ∈ s.removing → e.1 ≠ ctx) →
      ∃ t, exec .contextRemoval s = .next t ∧ (∀ c, c ∈ t.cmds → c.ctx ≠ ctx)
        ∧ (∀ d, d ∈ t.donations → d.donor ≠ ctx ∧ ctx ∉ d.donees)
        ∧ (partOf s ctx = 0 → (∀ cls, queueOf t ctx cls = []) ∧ CutOff s t ctx
            ∧ (∀ w x, Sparse.find s.warps w = some x → x.ctx = ctx → (t.warp w).stopped = true)
            ∧ ((∃ k b, Sparse.find t.blocks k = some b ∧ b.ctx = ctx ∧ b.status ≠ .ended) → (ctx, false) ∈ t.removing))
        ∧ (partOf s ctx ≠ 0 → ∀ w x, Sparse.find s.warps w = some x → x.ctx = ctx →
            (∀ l, l < 64 → x.arch.live.getLsbD l = true → ∃ v, (v ∈ x.arch.units ∨ v ∈ x.arch.stack) ∧ v.lanes.getLsbD l = true
              ∧ (v.hold = .ended ∨ parkedUnit v = true ∨ (countsForDonation v = true ∧ ∀ b o p c, v.hold ≠ .barrier b o p c))) → (t.warp w).ended = true))
    ∧ (let blk := s.ev.k
       s.sys.span = .service → ∀ b, Sparse.find s.blocks blk = some b → b.status ≠ .ended →
        (b.eligible = false → ∃ t p, exec .blockStateError s = .next t ∧ (b.ctx, p) ∈ t.removing ∧ DataKept s t)
        ∧ (b.eligible = true → ∀ c, b.ckpt = some c → (c.warps.map (·.1)).Nodup →
          ∃ t, exec .blockStateError s = .next t
            ∧ (∀ k w id, k ∈ t.cmds → k.owner = .warp w id → k.blk ≠ blk)
            ∧ ((b.undo.map (·.word)).Nodup → ∀ e, e ∈ b.undo →
                bytesAt (spByte t blk) (4 * e.word) 4 = leSplit 4 e.old.toNat ∧ spFull t blk (4 * e.word) = e.full)
            ∧ (t.block blk).ctrs = c.ctrs ∧ (t.block blk).fifos = c.fifos ∧ (t.block blk).mq = c.mq
            ∧ ∀ e, e ∈ c.warps → (t.warp e.1).arch.sregs = e.2.1.sregs
                ∧ ((∀ v, v ∈ e.2.1.units → v.entering = false) → (t.warp e.1).arch.vregs = e.2.1.vregs)
                ∧ (t.warp e.1).arch.preds = e.2.1.preds ∧ (t.warp e.1).arch.acc = e.2.1.acc ∧ (t.warp e.1).arch.nstat = e.2.1.nstat
                ∧ (t.warp e.1).accs = []))

/-- R151, R236, R242, R243: a grid whose blocks have ended and whose rounds are confirmed stores its number at DONE where that may
be stored, and counts for its parent; a ready node starts its work; at its end its edges lower the counts of their targets, the
first status that is not 0 stands, and a graph with nothing running or ready stores STATUS and ends.
Which ordinal a node's grid stores, the block's next one, and its advance at each node are the model's reading
(log entry 36). -/
def Obligations.GridsAndGraphsComplete : Prop :=
  (∀ (s : State) (g : Grid), Sparse.find s.grids s.ev.k = some g → g.completed = false → g.ended = g.launch.gridM1.toNat + 1 →
    g.rounds = [] →
    let agent := ownAgent s.sys 221
    let completed (t : State) : Prop := exec .gridCompletion s = .next t
      ∧ Sparse.find t.grids s.ev.k = some { g with completed := true }
      ∧ (∀ b n, g.parent = .block b n → (t.block b).children = (s.block b).children - 1)
      ∧ (∀ gid n gr v, g.parent = .node gid n → nodeOf s gid n gr v → ∃ gr' v', nodeOf t gid n gr' v' ∧ v'.result = some 0)
    (g.launch.done = 0 → ∃ t, completed t ∧ MemoryKept s t)
    ∧ (∀ da, g.launch.done ≠ 0 → StorePlaced s agent g.ctx g.launch.done.toNat da → da % 64 + 8 ≤ 64 →
        ∃ t, completed t ∧ Holds t agent da (leSplit 8 g.doneVal.toNat))
    ∧ (∀ c, g.launch.done ≠ 0 → (∀ sec, sec ∈ walkSectors s g.ctx g.launch.done.toNat → canRead s agent sec = true) →
        translatePure s g.ctx g.launch.done.toNat .store = .fail c →
        ∃ t, completed t ∧ MemoryKept s t ∧ t.sys.boxHead = s.sys.boxHead + 1))
  ∧ (∀ (s : State) (g : Graph) (v : NodeState) (r : NodeRec), nodeOf s s.ev.k s.ev.node g v → v.ready = true → v.running = false →
    g.ended = false → g.status = 0 → nodeWaits s g s.ev.node = [] → readNode s g.ctx g.base s.ev.node = some r →
    let gid := s.ev.k
    let n := s.ev.node
    let s0 := takeNode s g n
    let starts (t : State) (res : Option W64) : Prop := exec .graphNodeStart s = .next t ∧ NodeRuns t gid n v res
    let bad := ∃ t g' w, exec .graphNodeStart s = .next t ∧ nodeOf t gid n g' w ∧ w.ready = false ∧ HasStatus g'.status 9
    (r.type = 1 → recordWaits s0 g.ctx r.name = [] →
      (∀ st, launchRecord s0 g.ctx r.name = .error st → ∃ t, starts t (some (BitVec.ofNat 64 (st * 2 ^ 56))) ∧ t.grids = s.grids)
      ∧ ∀ l, launchRecord s0 g.ctx r.name = .ok l → (queueOf s g.ctx l.prio).length < 1024 →
          ∃ t, starts t none ∧ GridQueued s t g.ctx l (.node gid n) (BitVec.ofNat 64 (s.block g.blk).nextChild) r.arg
              ∧ (t.block g.blk).nextChild = (s.block g.blk).nextChild + 1)
    ∧ (r.type = 2 → r.a.toNat % 4 = 0 → r.b.toNat % 4 = 0 → r.len.toNat % 4 = 0 → 1 ≤ r.len.toNat → r.len.toNat ≤ 2 ^ 32 →
        ∃ t c, starts t none ∧ t.cmds = s.cmds ++ [c] ∧ c.owner = .node gid n ∧ c.kind = .ecpy false false 0 ∧ c.x = r.a ∧ c.y = r.b
          ∧ c.len = r.len.toNat ∧ c.engine = g.engine ∧ c.cls = g.cls)
    ∧ (r.type = 3 → r.a.toNat % 64 = 0 →
        ∃ t c, starts t none ∧ t.cmds = s.cmds ++ [c] ∧ c.owner = .node gid n ∧ c.kind = .epkt false 0 ∧ c.y = r.a
          ∧ c.engine = g.engine ∧ c.cls = g.cls)
    ∧ (r.type = 4 ∨ r.type = 5 → unreadable s0 (walkerAgent s0) g.ctx r.a.toNat 8 = [] →
        ∀ bs, readVirtual s0 g.ctx r.a.toNat 8 = some bs →
        ∃ t g' w, starts t (some 0) ∧ nodeOf t gid n g' w ∧ (w.cond = true ↔ leValue bs ≠ 0))
    ∧ (r.type = 6 → ∃ t, starts t (some 0))
    ∧ (r.type = 0 ∨ 6 < r.type → bad))
  ∧ ∀ (s : State) (g : Graph) (v : NodeState) (st : W64) (r : NodeRec), nodeOf s s.ev.k s.ev.node g v → v.running = true →
    v.result = some st → nodeWaits s g s.ev.node = [] → readNode s g.ctx g.base s.ev.node = some r →
    ∃ t g', exec .graphNodeComplete s = .next t ∧ Sparse.find t.graphs s.ev.k = some g'
      ∧ g'.status = (if g.status = 0 ∧ (st.extractLsb' 56 8) ≠ 0 then st else g.status)
      ∧ (∀ j w, g.nodes[j]? = some w → ∃ w', g'.nodes[j]? = some w' ∧ w'.count = w.count - edgesTo r v.cond j
          ∧ (w'.ready = true ↔ w.ready = true ∨ (1 ≤ w.count ∧ w.count ≤ edgesTo r v.cond j))
          ∧ w'.running = (w.running && j != s.ev.node))
      ∧ ((∃ w, w ∈ g'.nodes ∧ (w.running = true ∨ (w.ready = true ∧ g'.status = 0))) → g'.ended = g.ended)
      ∧ ((∀ w, w ∈ g'.nodes → w.running = false ∧ (w.ready = true → g'.status ≠ 0)) → g.ended = false →
          (s.names.reclaim.getLsbD 0 = false ∨ ∀ key, findEntry s g.name.toNat = some key → (nameEntry s key).state = 1) →
          ∀ da, StorePlaced (takeNode s g s.ev.node) (walkerAgent s) g.ctx (g.base + 8) da → da % 64 + 8 ≤ 64 →
          g'.ended = true ∧ Holds t (walkerAgent s) da (leSplit 8 (if g'.status ≠ 0 then g'.status
            else if (∃ w, w ∈ g'.nodes ∧ 0 < w.count ∧ w.count < w.npred) then BitVec.ofNat 64 (8 * 2 ^ 56) else 0).toNat))

/-! ### The token protocol -/

/-- R267 to R275, R279, R319: how an agent answers RDS and RDX by what it holds, keeps requests at a pin and gives nothing while
another's persistent request is active; how tokens that arrive are joined to what it holds, forwarded to an active winner, or
discarded when their serial is stale; and how it evicts.
That joined tokens wait for the holder's access that is ready to perform (log entry 72), and that tokens are sent under
the latest serial that their sender has seen (log entry 50), are the model's reading. -/
def Obligations.TokenMessages : Prop :=
  (∀ (s : State) (f : Flight) (i : Instr), (i = .rds ∧ Arrives s f 1 ∨ i = .rdx ∧ Arrives s f 2) → Proper f →
    let a := s.ev.agent
    let m := f.msg
    let h := holding s a m.sector
    let act := actState s a m.sector
    (m.src = a → exec i s = .next (received s f))
    ∧ (m.src ≠ a → pins s a m.sector = true → ∃ t, exec i s = .next t ∧ t.tok.flights = (received s f).tok.flights
        ∧ t.tok.held = s.tok.held ∧ (∀ p, p ∈ s.tok.pins → p.agent = a → p.sector = m.sector →
            { p with waiting := p.waiting ++ [m] } ∈ t.tok.pins))
    ∧ (m.src ≠ a → pins s a m.sector = false →
      ((act.frozen = true ∨ act.winner ≠ none) → exec i s = .next (received s f))
      ∧ (act.frozen = false → act.winner = none →
        (accessReady s a m.sector = true → exec i s = .next s)
        ∧ (accessReady s a m.sector = false →
          ((h.tokens = 0 ∨ (i = .rds ∧ h.owner = false)) → (h.tokens = 0 → h.owner = false) → exec i s = .next (received s f))
          ∧ (i = .rds → h.owner = true → 2 ≤ h.tokens → ∃ t, exec .rds s = .next t
              ∧ (holding t a m.sector).tokens = h.tokens - 1 ∧ (holding t a m.sector).owner = true
              ∧ (holding t a m.sector).data = h.data ∧ MemoryKept s t
              ∧ MsgSent s t (tokensMsg s a m.src m.sector 4 1 false true m.reqid m.tc))
          ∧ (NoTlb a → 0 < h.tokens → (i = .rdx ∨ (h.owner = true ∧ h.tokens = 1)) →
              ∃ t, exec i s = .next t ∧ GaveAll s t a m.src m.sector m.reqid m.tc ∧ MemoryKept s t)))))
  ∧ (∀ (s : State) (f : Flight) (i : Instr), (i = .tok ∧ Arrives s f 3 ∨ i = .tkd ∧ Arrives s f 4 ∨ i = .wbk ∧ Arrives s f 5) →
    isOwnAgent s.sys s.ev.agent = true →
    let a := s.ev.agent
    let m := f.msg
    let h := holding s a m.sector
    let n := m.count.toNat + if m.owner then 1 else 0
    let stale := (∃ d, d ∈ s.tok.discard ∧ d.agent = a ∧ d.sector = m.sector ∧ d.serial = m.serial ∧ s.now < d.expiry)
      ∨ (isHomeOf s a m.sector = true ∧ m.serial ≠ serialOf s m.sector)
    (¬ Proper f ∨ stale → ∃ t, exec i s = .next t ∧ t.sys.boxHead = s.sys.boxHead + 1 ∧ t.tok = (received s f).tok ∧ DataKept s t)
    ∧ (Proper f → ¬ stale →
      ((actState s a m.sector).winner = none → isHomeOf s a m.sector = false →
        ∃ t, exec i s = .next t ∧ (holding t a m.sector).tokens = h.tokens + n
          ∧ (n ≠ 0 → (holding t a m.sector).owner = (h.owner || m.owner) ∧ (holding t a m.sector).valid = (h.valid || m.data.isSome)
            ∧ (∀ d, m.data = some d → (m.owner = true ∨ h.valid = false) → (holding t a m.sector).data = d)
            ∧ (m.owner = false → h.valid = true → (holding t a m.sector).data = h.data))
          ∧ MemoryKept s t ∧ ∀ r, r ∈ t.tok.reqs → r.agent = a → r.sector = m.sector → r.stage = .transient →
              holdsEnough t a m.sector r.write = false)
      ∧ ((actState s a m.sector).winner = none → isHomeOf s a m.sector = true → ¬ (h.owner = true ∧ m.owner = true) →
        h.tokens + n ≤ 2047 + (if h.owner || m.owner then 1 else 0) →
        (∀ r, r ∈ s.tok.reqs → r.agent = a → r.sector ≠ m.sector) →
        ∃ t, exec i s = .next t ∧ (holding t a m.sector).tokens = h.tokens + n ∧ (holding t a m.sector).owner = (h.owner || m.owner)
          ∧ (∀ d pa, m.owner = true → m.dirty = true → m.data = some d → localAddr s.sys (m.sector * 64) = some pa →
              bytesAt (homeByte t) pa 64 = sectorBytes d 0 64)
          ∧ (m.owner = false ∨ m.dirty = false → MemoryKept s t))
      ∧ (∀ x, (actState s a m.sector).winner = some x → x ≠ a → (actState s a m.sector).frozen = false → pins s a m.sector = false →
          NoTlb a → isHomeOf s a m.sector = false → 0 < h.tokens + n → h.tokens + n ≤ 2047 + (if h.owner || m.owner then 1 else 0) →
          ∃ t e, exec i s = .next t ∧ (holding t a m.sector).tokens = 0 ∧ MsgSent s t e ∧ e.dst = x ∧ e.sector = m.sector
            ∧ e.owner = (h.owner || m.owner) ∧ e.count.toNat + (if e.owner then 1 else 0) = h.tokens + n)))
  ∧ (∀ (s : State) (f : Flight), s.tok.flights[s.ev.k]? = some f → s.ev.agent ∈ f.dests →
      f.msg.type ∉ [1, 2, 3, 4, 5, 0x10, 0x11, 0x12, 0x13, 0x14, 0x20, 0x21, 0x22] → ¬ Refused s f →
      ∃ t, exec .tok s = .next t ∧ t.sys.boxHead = s.sys.boxHead + 1 ∧ t.tok = (received s f).tok ∧ DataKept s t)
  ∧ (∀ (s : State) (f : Flight) (i : Instr), s.tok.flights[s.ev.k]? = some f → Refused s f →
      i ∈ [.rds, .rdx, .tok, .tkd, .wbk, .pdq, .pac, .pda, .pnd, .cnq, .cnr, .rcr] → exec i s = .next s)
  ∧ ∀ (s : State),
      let a := s.ev.agent
      let sec := s.ev.sector
      let h := holding s a sec
      (keptFromEviction s a sec = true → exec .eviction s = .next s)
      ∧ (isOwnAgent s.sys a = true → isHomeOf s a sec = false → keptFromEviction s a sec = false → NoTlb a → 0 < h.tokens →
        ∃ t, exec .eviction s = .next t ∧ (holding t a sec).tokens = 0 ∧ MemoryKept s t
          ∧ MsgSent s t (tokensMsg s a (homeOf s sec) sec (if h.owner then 5 else 3) h.tokens h.owner h.owner 0 0))

/-- R275 to R278, R317: a transient request retries four times and then becomes persistent; its home activates it with the next
number or queues it with PND, and waits while a table is full; PAC makes every other agent give its tokens to the winner, which ends
with PDQ once satisfied; PDQ brings PDA and the next activation by priority, at most 8 times passed over; after 5 µs it is
recorded.
The half-range comparison of numbers (log entry 48), PDQ at once by a requester that PAC finds satisfied (log entry 49)
and the wait for an access that is ready (log entry 72) are the model's reading. -/
def Obligations.PersistentRequests : Prop :=
  (∀ (s : State) (k : Nat) (f : Flight), Proper f → PrqTaken s k f → isHomeOf s s.ev.agent f.msg.sector = true →
    f.msg.src ≠ s.ev.agent →
    let a := s.ev.agent
    let m := f.msg
    let sec := m.sector
    let p : PersistReq := ⟨m.src, m.tc, m.count != 0, 0, m.reqid⟩
    let waits := ∃ t, exec .prq s = .next t ∧ t.tok.flights = setAt s.tok.flights k { f with held := true }
      ∧ t.tok.persist = s.tok.persist ∧ DataKept s t
    ((∀ e, e ∈ s.tok.persist → e.sector ≠ sec) →
      (256 ≤ (s.tok.persist.filter (fun e => homeOf s e.sector == homeOf s sec)).length → waits)
      ∧ ((s.tok.persist.filter (fun e => homeOf s e.sector == homeOf s sec)).length < 256 →
          ∃ t, exec .prq s = .next t ∧ Activated s t sec p [] ∧ MemoryKept s t))
    ∧ ∀ e, s.tok.persist.find? (fun e => e.sector == sec) = some e →
      (16 ≤ e.queue.length → waits)
      ∧ (e.queue.length < 16 → ∃ t, exec .prq s = .next t ∧ { e with queue := e.queue ++ [p] } ∈ t.tok.persist
          ∧ MsgSent s t (control 0x14 sec a m.src m.reqid m.tc 0) ∧ t.tok.held = s.tok.held ∧ t.tok.homes = s.tok.homes))
  ∧ (∀ (s : State) (f : Flight), Proper f → isOwnAgent s.sys s.ev.agent = true →
    let a := s.ev.agent
    let m := f.msg
    let sec := m.sector
    let act := actState s a sec
    (Arrives s f 0x11 → isHomeOf s a sec = true → ∀ e, s.tok.persist.find? (fun e => e.sector == sec) = some e →
        e.winner.agent = m.src → (∀ x, x ∈ s.tok.persist → x.sector = sec → x = e) →
        ∃ t, exec .pdq s = .next t ∧ Broadcast s t a (control 0x13 sec e.winner.agent 0 e.winner.reqid e.winner.tc e.act)
          ∧ (e.queue = [] → (∀ x, x ∈ t.tok.persist ↔ x ∈ s.tok.persist ∧ x.sector ≠ sec) ∧ (actState t a sec).winner = none)
          ∧ (e.queue ≠ [] → ∃ p, p ∈ e.queue ∧ Activated s t sec p ((e.queue.erase p).map (fun q => { q with passed := q.passed + 1 }))
              ∧ (((∀ q, q ∈ e.queue → q.passed < 8) ∧ ∀ q, q ∈ e.queue → RanksFirst p q)
                ∨ e.queue.find? (fun q => decide (8 ≤ q.passed)) = some p)))
    ∧ (Arrives s f 0x12 → isHomeOf s a sec = false →
      (¬ Later act.last m.count → exec .pac s = .next (received s f))
      ∧ (Later act.last m.count → m.src ≠ a →
        (pins s a sec = false → accessReady s a sec = true → exec .pac s = .next s)
        ∧ (pins s a sec = true ∨ accessReady s a sec = false → NoTlb a →
          ∃ t, exec .pac s = .next t ∧ (actState t a sec).winner = some m.src ∧ (actState t a sec).last = some m.count ∧ MemoryKept s t
            ∧ ((pins s a sec = true ∨ act.frozen = true) → holding t a sec = holding s a sec)
            ∧ (pins s a sec = false → act.frozen = false → 0 < (holding s a sec).tokens → GaveAll s t a m.src sec m.reqid m.tc)))
      ∧ (Later act.last m.count → m.src = a → ∃ t, exec .pac s = .next t ∧ (actState t a sec).winner = some a
          ∧ holding t a sec = holding s a sec
          ∧ (∀ r, r ∈ s.tok.reqs → r.agent = a → r.sector = sec → r.reqid = m.reqid →
            (holdsEnough s a sec r.write = true → MsgSent s t (control 0x11 sec a (homeOf s sec) r.reqid r.tc 0)
                ∧ { r with stage := .active } ∉ t.tok.reqs)
            ∧ (holdsEnough s a sec r.write = false → { r with stage := .active } ∈ t.tok.reqs))
          ∧ ((∀ r, r ∈ s.tok.reqs → ¬ (r.agent = a ∧ r.sector = sec ∧ r.reqid = m.reqid)) →
              MsgSent s t (control 0x11 sec a (homeOf s sec) m.reqid m.tc 0))))
    ∧ (Arrives s f 0x13 →
      (act.last = some m.count ∨ Later act.last m.count → ∃ t, exec .pda s = .next t ∧ (actState t a sec).winner = none
        ∧ (actState t a sec).last = some m.count ∧ t.tok.held = s.tok.held ∧ DataKept s t)
      ∧ (act.last ≠ some m.count → ¬ Later act.last m.count → exec .pda s = .next (received s f)))
    ∧ (Arrives s f 0x14 → ∃ t, exec .pnd s = .next t ∧ DataKept s t ∧ ∀ r, r ∈ s.tok.reqs →
        (r.agent = a ∧ r.sector = sec ∧ r.reqid = m.reqid ∧ r.stage = .sent → { r with stage := .pending } ∈ t.tok.reqs)
        ∧ (¬ (r.agent = a ∧ r.sector = sec ∧ r.reqid = m.reqid ∧ r.stage = .sent) → r ∈ t.tok.reqs)))
  ∧ (∀ (s : State) (r : TokenReq), s.tok.reqs[s.ev.k]? = some r → r.stage = .transient →
    (s.now < r.expiry → exec .transientTimerExpiry s = .next s)
    ∧ (r.expiry ≤ s.now → holdsEnough s r.agent r.sector r.write = false → blockedFor s r.agent r.sector = false →
      let request (t : State) (d : BitVec 13) : Prop :=
        ∃ g, g ∈ t.tok.flights ∧ g.msg.type = (if r.write then 2 else 1) ∧ g.msg.sector = r.sector ∧ g.msg.src = r.agent
          ∧ g.msg.reqid = r.reqid ∧ d ∈ g.dests
      (r.attempt < 5 → ∃ t r', exec .transientTimerExpiry s = .next t ∧ t.tok.reqs[s.ev.k]? = some r' ∧ r'.attempt = r.attempt + 1
        ∧ r'.stage = .transient ∧ t.tok.held = s.tok.held ∧ DataKept s t
        ∧ (∀ d, isOwnAgent s.sys d = true → d ≠ r.agent →
            (r.attempt + 1 ≤ 3 → d ∈ r.tried → request t d) ∧ (3 < r.attempt + 1 → d ∈ ownAgents s → request t d)))
      ∧ (5 ≤ r.attempt → r.agent ≠ homeOf s r.sector → ∃ t, exec .transientTimerExpiry s = .next t
          ∧ t.tok.reqs[s.ev.k]? = some { r with stage := .sent } ∧ DataKept s t
          ∧ MsgSent s t (control 0x10 r.sector r.agent (homeOf s r.sector) r.reqid r.tc (if r.write then 2047 else 0)))
      ∧ (5 ≤ r.attempt → r.agent = homeOf s r.sector → (∀ e, e ∈ s.tok.persist → e.sector ≠ r.sector) →
          (s.tok.persist.filter (fun e => homeOf s e.sector == homeOf s r.sector)).length < 256 →
          ∃ t, exec .transientTimerExpiry s = .next t ∧ Activated s t r.sector ⟨r.agent, r.tc, r.write, 0, r.reqid⟩ [] ∧ DataKept s t)))
  ∧ ∀ (s : State) (e : PersistEntry), s.tok.persist.find? (fun e => e.sector == s.ev.sector) = some e →
      (e.noted = true ∨ s.now < e.since + 5000 → exec .persistentRequest5us s = .next s)
      ∧ (e.noted = false → e.since + 5000 ≤ s.now → ∃ t, exec .persistentRequest5us s = .next t ∧ { e with noted := true } ∈ t.tok.persist
          ∧ t.sys.boxHead = s.sys.boxHead + 1 ∧ t.tok.held = s.tok.held ∧ DataKept s t)

/-- R301, R316 to R319: a home whose trigger holds asks every agent what it holds, twice, 50 µs apart, unless a quarantine puts
it off; an agent stops giving tokens and reports what it keeps; when the reports add up to 2048 with one owner the agents go on,
else the recreation is recorded as it goes out, every agent discards its tokens under the old serial and the home holds all of
them under the next; an entry of a discard
table lives until its time.
The home's own count at the last report of round 2, what a fifth recreation does and RCR at a pin (log entry 51), and the
record of type 0x03 beside the others (log entry 52), are the model's reading. -/
def Obligations.CensusAndRecreation : Prop :=
  ∀ (s : State),
    (let sec := (domainSector s.sys s.ev.sector).getD s.ev.sector
     let home := homeOf s sec
     isHomeOf s home sec = true → (∀ c, c ∈ s.tok.census → c.sector ≠ sec) →
      (s.ev.flag = false → ¬ CensusDue s sec → exec .censusStart s = .next s)
      ∧ (s.ev.flag = true ∨ CensusDue s sec →
        (PutOff s sec → ∃ t c, exec .censusStart s = .next t ∧ c ∈ t.tok.census ∧ c.sector = sec ∧ c.phase = .deferred
          ∧ t.tok.flights = s.tok.flights ∧ DataKept s t)
        ∧ (s.ev.flag = false → ¬ PutOff s sec → ∃ t, exec .censusStart s = .next t ∧ CensusAsked s t sec 1 .round1
            ∧ (actState t home sec).frozen = true ∧ DataKept s t))
      ∧ (s.ev.flag = true → ∃ t, exec .censusStart s = .next t ∧ (Sparse.get ({} : HomeMeta) t.tok.homes sec).badParity = true
          ∧ DataKept s t))
    ∧ (let sec := s.ev.sector
       ∀ c, OnlyCensus s sec c →
        (c.phase ≠ .wait50 ∨ s.now < c.until_ → exec .censusRound2 s = .next s)
        ∧ (c.phase = .wait50 → c.until_ ≤ s.now → ∃ t, exec .censusRound2 s = .next t ∧ CensusAsked s t sec 2 .round2 ∧ DataKept s t)
        ∧ (c.phase = .deferred → PutOff s sec → exec .censusDeferredStart s = .next s)
        ∧ (c.phase = .deferred → ¬ PutOff s sec → CensusDue s sec →
            ∃ t, exec .censusDeferredStart s = .next t ∧ CensusAsked s t sec 1 .round1 ∧ DataKept s t)
        ∧ (c.phase = .deferred → ¬ PutOff s sec → ¬ CensusDue s sec →
            ∃ t, exec .censusDeferredStart s = .next t ∧ (∀ x, x ∈ t.tok.census ↔ x ∈ s.tok.census ∧ x.sector ≠ sec) ∧ DataKept s t))
    ∧ (∀ f, Arrives s f 0x20 → Proper f → f.msg.src ≠ s.ev.agent →
      let a := s.ev.agent
      let sec := f.msg.sector
      let h := holding s a sec
      ∃ t, exec .cnq s = .next t ∧ (actState t a sec).frozen = true ∧ (actState t a sec).serial = f.msg.serial
        ∧ t.tok.held = s.tok.held ∧ t.tok.homes = s.tok.homes ∧ DataKept s t
        ∧ MsgSent s t { control 0x21 sec a f.msg.src f.msg.reqid f.msg.tc (BitVec.ofNat 11 (h.tokens - if h.owner then 1 else 0)) with
            owner := h.owner, dirty := h.dirty && h.owner, data := if h.owner then some h.data else none, serial := f.msg.serial })
    ∧ (∀ f c, Arrives s f 0x21 → Proper f → isHomeOf s s.ev.agent f.msg.sector = true → OnlyCensus s f.msg.sector c →
      f.msg.src ∈ c.waiting →
      let home := s.ev.agent
      let sec := f.msg.sector
      let rest := c.waiting.erase f.msg.src
      let n := c.n + f.msg.count.toNat + if f.msg.owner then 1 else 0
      let owners := c.owners + if f.msg.owner then 1 else 0
      let total := n + (holding s home sec).tokens
      let allOwners := owners + if (holding s home sec).owner then 1 else 0
      let now_ (c' : Census) : Prop := ∃ t, exec .cnr s = .next t ∧ OnlyCensus t sec c' ∧ t.tok.homes = s.tok.homes ∧ DataKept s t
      let settled (t : State) : Prop := exec .cnr s = .next t ∧ (∀ x, x ∈ t.tok.census ↔ x ∈ s.tok.census ∧ x.sector ≠ sec)
        ∧ t.sys.boxHead = s.sys.boxHead + (if c.phase = .recreate ∧ (c.dirty = true ∨ c.owners ≠ 0) then 0 else 1)
        ∧ (actState t home sec).frozen = false
      (c.phase = .round1 → rest ≠ [] → now_ { c with waiting := rest })
      ∧ (c.phase = .round1 → rest = [] → now_ { c with waiting := [], phase := .wait50, until_ := s.now + 50000 })
      ∧ (c.phase = .round2 → rest ≠ [] → ∃ c', now_ c' ∧ c'.waiting = rest ∧ c'.n = n ∧ c'.owners = owners ∧ c'.phase = .round2)
      ∧ (c.phase = .round2 → rest = [] → total = 2048 → allOwners = 1 →
          ∃ t, settled t ∧ Broadcast s t home { control 0x22 sec home 0 0 0 0 with serial := serialOf s sec })
      ∧ (c.phase = .round2 → rest = [] → (total ≠ 2048 ∨ allOwners ≠ 1) →
          (s.tok.recreated.filter (fun e => decide (s.now < e.2 + 100000) && homeOf s e.1 == homeOf s sec)).length < 4 →
          ∃ t c', exec .cnr s = .next t ∧ OnlyCensus t sec c' ∧ c'.phase = .recreate ∧ c'.n = total ∧ (sec, s.now) ∈ t.tok.recreated
            ∧ Recorded s t 0x12 2 (BitVec.ofNat 64 sec)
            ∧ ⟨home, sec, serialOf s sec, s.now + 100000⟩ ∈ t.tok.discard
            ∧ Broadcast s t home { control 0x22 sec home 0 0 0 0 with serial := serialOf s sec + 1 })
      ∧ (c.phase = .recreate → rest ≠ [] → now_ { c with waiting := rest })
      ∧ (c.phase = .recreate → rest = [] → (actState s home sec).winner = none →
          (∀ r, r ∈ s.tok.reqs → r.agent = home → r.sector = sec → r.stage ≠ .active) →
          ∃ t, settled t ∧ Sparse.get ({} : HomeMeta) t.tok.homes sec = ⟨serialOf s sec + 1, true, 2047, false⟩
            ∧ (∀ pa, c.dirty = true → localAddr s.sys (sec * 64) = some pa → bytesAt (homeByte t) pa 64 = sectorBytes c.data 0 64)
            ∧ (c.dirty = false → MemoryKept s t)
            ∧ (c.dirty = false → c.owners = 0 → Sparse.get false t.tok.poison sec = true)))
    ∧ (∀ f, Arrives s f 0x22 → Proper f →
      let a := s.ev.agent
      let sec := f.msg.sector
      let act := actState s a sec
      (act.frozen = false → exec .rcr s = .next (received s f))
      ∧ (act.frozen = true → (pins s a sec = true ∨ accessReady s a sec = true) → exec .rcr s = .next s)
      ∧ (act.frozen = true → pins s a sec = false → accessReady s a sec = false →
        (f.msg.serial = act.serial → act.winner = none → ∃ t, exec .rcr s = .next t ∧ (actState t a sec).frozen = false
          ∧ t.tok.held = s.tok.held ∧ DataKept s t)
        ∧ (f.msg.serial ≠ act.serial → NoTlb a → isHomeOf s a sec = false → f.msg.src ≠ a → ∃ t, exec .rcr s = .next t
          ∧ (holding t a sec).tokens = 0 ∧ (actState t a sec).frozen = false ∧ MemoryKept s t
          ∧ ⟨a, sec, act.serial, s.now + 100000⟩ ∈ t.tok.discard
          ∧ MsgSent s t { control 0x21 sec a f.msg.src f.msg.reqid f.msg.tc 0 with serial := f.msg.serial })))
    ∧ ∀ d, s.tok.discard[s.ev.k]? = some d →
        (s.now < d.expiry → exec .discardEntryExpire s = .next s)
        ∧ (d.expiry ≤ s.now → ∃ t, exec .discardEntryExpire s = .next t ∧ t.tok.discard = dropAt s.tok.discard s.ev.k ∧ DataKept s t)

/-! ### Units between issues -/

/-- R37, R105, R141, R189, R192: a unit goes on when every flag of its header's WAIT mask is set; its ageing counter rises from 62
to 63; a due ply exchanges its secondary unit with the oldest of its stack; the parked units of a stuck warp take the convergence
trap; and the register cache takes a granule that a unit misses or a header has requested, giving up when it is full one that nothing
outstanding has still to write. -/
def Obligations.UnitsBetweenIssues : Prop :=
  ∀ (s : State),
    let w := s.ev.w
    let u := s.ev.u
    let x := s.warp w
    let v := x.unit u
    let only (t : State) (v' : IUnit) : Prop := (t.warp w).unit u = v' ∧ (∀ k, k ≠ u → (t.warp w).unit k = x.unit k) ∧ DataKept s t
    (u < x.arch.units.length →
      (v.hold = .headerWait → (∀ k, k < 12 → v.pos.head.wait.getLsbD k = true → x.arch.flags.getLsbD k = true) →
        ∃ t, exec .headerWaitEnd s = .next t ∧ only t { v with hold := .none })
      ∧ (v.age = 62 → ∃ t, exec .ageingCounterSaturate s = .next t ∧ only t { v with age := 63 }))
    ∧ (∀ k, k < 12 → v.pos.head.wait.getLsbD k = true → x.arch.flags.getLsbD k = false → exec .headerWaitEnd s = .next s)
    ∧ (v.age ≠ 62 → exec .ageingCounterSaturate s = .next s)
    ∧ (let p := s.ev.lane
       let due := Sparse.get 0 x.stackCtr p = 63 ∨ ((∀ v, v ∈ x.arch.units → isParked v.hold = true ∧ v.entering = false)
         ∧ ∃ v, v ∈ x.arch.stack ∧ v.ply = p ∧ isParked v.hold = false)
       (¬ due → exec .stackRotation s = .next s)
       ∧ ∀ k j e, due → p < 8 → Settled x.arch → (∀ v, v ∈ x.arch.stack → v.entering = false) → x.arch.stack[k]? = some e → e.ply = p →
          e.sec = true → (∀ i v, i < k → x.arch.stack[i]? = some v → v.ply ≠ p) → j < x.arch.units.length →
          isSecondaryOf p (x.unit j) = true → (∀ i, i < j → isSecondaryOf p (x.unit i) = false) →
          ∃ t, exec .stackRotation s = .next t ∧ (t.warp w).arch.units = setAt x.arch.units j e
            ∧ (t.warp w).arch.stack = dropAt x.arch.stack k ++ [x.unit j] ∧ Sparse.get 0 (t.warp w).stackCtr p = 0 ∧ DataKept s t)
    ∧ (let stuck := x.arch.units ≠ [] ∧ (∀ v, v ∈ x.arch.units → isParked v.hold = true ∧ v.entering = false)
         ∧ (∀ v, v ∈ x.arch.stack → isParked v.hold = true) ∧ ∀ k, k < x.arch.units.length → parkMet s x k = false
       (stuck → ∃ t, exec .convergenceTrap s = .next t ∧ ∀ k, MayTrap s w k →
          UnitTrapped s t w k 4 1 ((x.unit k).pos.hdr + if (x.unit k).hold = .reconv then 0 else 8 * max 1 (x.unit k).pos.idx))
       ∧ (¬ stuck → (∀ k, k < x.arch.units.length → groupStuck s x k = false) → exec .convergenceTrap s = .next s)
       ∧ (¬ stuck → ∀ k, k < x.arch.units.length → groupStuck s x k = true → MayTrap s w k →
          ∃ t, exec .convergenceTrap s = .next t
            ∧ UnitTrapped s t w k 4 1 ((x.unit k).pos.hdr + if (x.unit k).hold = .reconv then 0 else 8 * max 1 (x.unit k).pos.idx)))
    ∧ (let c := s.core x.core
       let g : Granule := ⟨w, s.ev.k, false⟩
       let there := ∃ g, g ∈ c.granules ∧ g.warp = w ∧ g.which = s.ev.k
       let asked := (w, s.ev.k) ∈ c.wanted ∨ missesGranule s w s.ev.k = true
       let filled (t : State) (kept : List Granule) : Prop := exec .regcacheFill s = .next t ∧ (t.core x.core).granules = g :: kept
         ∧ (∀ n, n ∈ (t.core x.core).wanted ↔ n ∈ c.wanted ∧ n ≠ (w, s.ev.k)) ∧ DataKept s t
       (there ∨ ¬ asked → exec .regcacheFill s = .next s)
       ∧ (¬ there → asked → c.granules.length < 1024 → ∃ t, filled t c.granules)
       ∧ (¬ there → asked → 1024 ≤ c.granules.length →
         ((∃ g, g ∈ c.granules ∧ granuleInUse s g = false) →
           ∃ t g, g ∈ c.granules ∧ granuleInUse s g = false ∧ filled t (c.granules.erase g))
         ∧ ((∀ g, g ∈ c.granules → granuleInUse s g = true) → exec .regcacheFill s = .next s)))

/-! ### Links, checks, power and the host -/

/-- R13, R213, R292, R300, R320, R325, R328: a trained link transmits what waits longest and keeps it for resending, a posted write
being acknowledged then; a resend that corrects a flit is recorded; an armed injector takes a matching message instead and gives it back after its HOLD time; a lane with more
than 16 resends in 1 ms gives way to the spare, or leaves the link one lane fewer.
That an injector written outside service takes its fields with ARM 0 is the model's reading (log entry 68). -/
def Obligations.LinksAndInjectors : Prop :=
  ∀ (s : State),
    let l := s.ev.link
    let k := s.link l
    (osHart (s.hart s.ev.hart) = false ∨ 24 ≤ l → exec .injectorWrite s = .next s)
    ∧ (osHart (s.hart s.ev.hart) = true → l < 24 →
      (s.ev.flag = false → ∃ t, exec .injectorWrite s = .next t ∧ InjectorSet s t l ∧ (t.link l).inj.w1 = k.inj.w1
        ∧ InjectorWord (s.sys.span = .service) k.inj.w0 s.ev.val0 (t.link l).inj.w0 ∧ DataKept s t)
      ∧ (s.ev.flag = true → ∃ t, exec .injectorWrite s = .next t ∧ InjectorSet s t l ∧ (t.link l).inj.w0 = k.inj.w0
        ∧ (t.link l).inj.w1 = (s.ev.val0.extractLsb' 0 46).setWidth 64 ∧ DataKept s t))
    ∧ (¬ LinksWork s ∨ k.trained = false ∨ k.queue = [] → exec .linkTransmit s = .next s)
    ∧ (∀ x rest, LinksWork s → k.trained = true → l < 24 → k.queue = x :: rest →
      let takes := k.inj.w0.getLsbD 63 = true ∧ ∃ m, x = .token m ∧ m.type = k.inj.w0.extractLsb' 40 8
        ∧ m.sector = (k.inj.w1.extractLsb' 0 46).toNat
      (takes → ∃ t, exec .linkTransmit s = .next t ∧ (t.link l).queue = rest ∧ (t.link l).replay = k.replay
        ∧ (t.link l).inj.w0.getLsbD 63 = false ∧ DataKept s t
        ∧ (t.link l).inj.taken = k.inj.taken ++ [(x, s.now + 1000 * (k.inj.w0.extractLsb' 48 7).toNat)])
      ∧ (¬ takes → ∃ t, exec .linkTransmit s = .next t ∧ (t.link l).queue = rest ∧ (t.link l).replay = k.replay ++ [x]
        ∧ (t.link l).inj = k.inj ∧ DataKept s t ∧ (∀ w a id, x = .write w a id → (a, id) ∈ t.tok.acks)))
    ∧ (∀ x, k.replay[s.ev.k]? = some x → LinksWork s → ∃ t, exec .linkResend s = .next t
        ∧ (t.link l).replay = dropAt k.replay s.ev.k ++ [x] ∧ (s.ev.lane, s.now) ∈ (t.link l).resends ∧ (t.link l).queue = k.queue
        ∧ (s.ev.flag = false → ∃ a, Recorded s t 2 1 a) ∧ (s.ev.flag = true → t.sys = s.sys) ∧ DataKept s t)
    ∧ (let bad := (k.resends.filter (fun e => e.1 == s.ev.lane && decide (s.now < e.2 + 1000000))).length
       (bad ≤ 16 → exec .linkLaneSwap s = .next s)
       ∧ (16 < bad → LinksWork s →
         (k.spareUsed = true → ∃ t, exec .linkLaneSwap s = .next t ∧ (t.link l).lanes = k.lanes - 1 ∧ DataKept s t)
         ∧ (k.spareUsed = false → ∃ t, exec .linkLaneSwap s = .next t ∧ (t.link l).spareUsed = true ∧ (t.link l).lanes = k.lanes
             ∧ DataKept s t ∧ (s.sys.fieldCount < 4096 → t.sys.fieldCount = s.sys.fieldCount + 1
               ∧ ∃ r, Sparse.find t.sys.fieldMap s.sys.fieldCount = some r ∧ (r.extractLsb' 120 8).toNat = 6))))
    ∧ (LinksWork s → l < 24 → ∃ t, exec .linkRetrain s = .next t ∧ (t.link l).trained = true
        ∧ Recorded s t 0x21 1 (BitVec.ofNat 64 l) ∧ DataKept s t)
    ∧ ∀ x until_, k.inj.taken[s.ev.k]? = some (x, until_) →
        (s.now < until_ → exec .injectorRelease s = .next s)
        ∧ (until_ ≤ s.now → ∃ t, exec .injectorRelease s = .next t ∧ (t.link l).replay = k.replay ++ [x]
            ∧ (t.link l).inj.w0.getLsbD 62 = true ∧ (t.link l).inj.taken = dropAt k.inj.taken s.ev.k ∧ DataKept s t)

/-- R300, R301, R310 to R315, R320: the scrub records a corrected error, gives a row with more than 16 in 24 h a spare, and poisons a
sector with an uncorrectable one; a test product
that passes is timed, and a failing sub-array is fenced; an array with two of them is out, and with the sign-select array or all three
multiplier arrays the core; a replay that agrees is
counted, and one that does not is decided by a third core, which fences the core at fault.
That each replay raises the count of replays by 1, and a mismatch by 2, is the model's reading (log entry 55). -/
def Obligations.ChecksOfMemoryAndCores : Prop :=
  ∀ (s : State),
    (let sec := (domainSector s.sys s.ev.sector).getD s.ev.sector
     ∀ x, physPlace s.sys (sec * 64) = .memory s.sys.modid.toNat x → isHomeOf s (homeOf s sec) sec = true →
      (s.ev.count = 0 → exec .patrolScrub s = .next s)
      ∧ (s.ev.count = 1 →
        let earlier := (s.sys.rowErrors.filter (fun e => e.1 == Config.dramRow sec && decide (s.now < e.2 + 86400000000000))).length
        (earlier < 16 → ∃ t, exec .patrolScrub s = .next t ∧ Recorded s t 2 1 (BitVec.ofNat 64 x) ∧ t.tok = s.tok ∧ DataKept s t)
        ∧ (16 ≤ earlier → s.sys.fieldCount < 4096 → ∃ t r, exec .patrolScrub s = .next t ∧ t.sys.fieldCount = s.sys.fieldCount + 1
            ∧ Sparse.find t.sys.fieldMap s.sys.fieldCount = some r ∧ (r.extractLsb' 120 8).toNat = 3 ∧ t.tok = s.tok ∧ DataKept s t))
      ∧ (s.ev.count = 2 → ∃ t, exec .patrolScrub s = .next t ∧ Recorded s t 3 1 (BitVec.ofNat 64 x)
          ∧ Sparse.get false t.tok.poison sec = true ∧ t.tok.held = s.tok.held ∧ DataKept s t))
    ∧ (let c := s.core s.ev.core
       ∀ a, c.arrays[s.ev.k]? = some a → a.busy = none → s.sys.span = .service → s.ev.core < 96 →
        (s.ev.failing = none → ∃ t, exec .selfTestProduct s = .next t ∧ DataKept s t
          ∧ (t.core s.ev.core).arrays = setAt c.arrays s.ev.k { a with testPair := a.testPair + 1, lastPass := s.sys.time })
        ∧ ∀ sub, s.ev.failing = some sub → ∃ t b, exec .selfTestProduct s = .next t ∧ (t.core s.ev.core).arrays[s.ev.k]? = some b
            ∧ (∀ j, j < 4 → b.fenced.getLsbD j = (a.fenced.getLsbD j || j == sub.toNat))
            ∧ (let now := (t.core s.ev.core).arrays
               let out (k : Nat) := ∃ e, now[k]? = some e ∧ 2 ≤ outOf e
               (t.core s.ev.core).fenced = true ↔ c.fenced = true ∨ out 3 ∨ (out 0 ∧ out 1 ∧ out 2)))
    ∧ ∀ b, s.audit[s.ev.k]? = some b →
        (b.complete = false → exec .auditReplay s = .next s)
        ∧ (b.complete = true →
          let second := replaySignature b ^^^ s.ev.val0
          let third := replaySignature b ^^^ s.ev.val1
          (second = b.sig → ∃ t, exec .auditReplay s = .next t ∧ t.audit = dropAt s.audit s.ev.k ∧ t.sys.audDone = s.sys.audDone + 1
            ∧ t.cores = s.cores ∧ DataKept s t)
          ∧ (second ≠ b.sig → ∃ t, exec .auditReplay s = .next t ∧ t.audit = dropAt s.audit s.ev.k
              ∧ t.sys.audDone = s.sys.audDone + 2
              ∧ (t.core (if third = b.sig then (b.core + 12) % 96 else b.core)).fenced = true))

/-- R7 to R10, R83, R302, R334, R335, R338, R341, R343: how power, the resident OS, resets, a fatal check and the clock move the
module between its spans, and what bring-up leaves.
What the resets and bring-up leave where the spec is silent is the model's choice (log entries 62, 66 and 96). -/
def Obligations.PowerResetsAndClock : Prop :=
  ∀ (s : State),
    (s.sys.auxPg = true → exec .auxPowerGood s = .next s)
    ∧ (s.sys.auxPg = false → ∃ t, exec .auxPowerGood s = .next t ∧ t.sys.auxPg = true ∧ t.sys.auxTime = 0 ∧ t.sys.epoch = 0
        ∧ (s.sys.mainPg = false → t.sys.span = .auxiliary))
    ∧ (s.sys.auxPg = true → s.sys.mainPg = false → ∃ t, exec .mainPowerGood s = .next t ∧ t.sys.mainPg = true
        ∧ t.sys.modid = s.ev.bring.modid ∧ BroughtUp s t s.ev.bring)
    ∧ (s.sys.mainPg = true → ∃ t, exec .mainPowerLoss s = .next t ∧ t.sys.mainPg = false ∧ t.sys.span = .auxiliary ∧ t.warps = []
        ∧ t.blocks = [] ∧ t.grids = [] ∧ t.mem = [] ∧ t.sys.fieldMap = s.sys.fieldMap ∧ t.names.flashEnd = s.names.flashEnd
        ∧ t.sys.dllc = s.sys.dllc)
    ∧ (∃ t, exec .auxPowerLoss s = .next t ∧ t.sys.auxPg = false ∧ t.sys.box = [] ∧ t.sys.boxHead = 0)
    ∧ (s.sys.span ≠ .bringUp ∨ s.sys.resetPending = true → exec .residentOsReady s = .next s)
    ∧ (s.sys.span = .bringUp → s.sys.resetPending = false → ∃ t, exec .residentOsReady s = .next t ∧ t.sys.span = .service
        ∧ t.sys.time = 0 ∧ t.sys.boxHead = s.sys.boxHead + 1 ∧ DataKept s t)
    ∧ (s.sys.resetPending = true → s.sys.mainPg = true → ∃ t, exec .warmResetApply s = .next t ∧ BroughtUp s t s.ev.bring
        ∧ t.sys.modid = s.sys.modid)
    ∧ (s.sys.resetPending = false ∨ s.sys.mainPg = false → exec .warmResetApply s = .next s)
    ∧ (let refused := s.sys.resetPending = true ∨ s.sys.span = .auxiliary
       (refused → exec .hostctlWrst s = .next s)
       ∧ (¬ refused → ∃ t, exec .hostctlWrst s = .next t ∧ t.sys.resetPending = true ∧ DataKept s t
          ∧ (s.sys.span = .service → t.sys.span = .recovery) ∧ (s.sys.span ≠ .service → t.sys.span = s.sys.span))
       ∧ (s.sys.auxPg = true → s.sys.span = .auxiliary → ∃ t, exec .requestWarmReset s = .next t ∧ Replied s t 1 [])
       ∧ (s.sys.auxPg = true → s.sys.span ≠ .auxiliary → ∃ t, exec .requestWarmReset s = .next t ∧ t.sys.resetPending = true
          ∧ (s.sys.resetPending = false → s.sys.span = .service → t.sys.span = .recovery) ∧ DataKept s t))
    ∧ (s.sys.span ≠ .service → s.sys.span ≠ .bringUp → exec .fatalMachineCheck s = .next s)
    ∧ (LinksWork s → ∃ t, exec .fatalMachineCheck s = .next t ∧ t.sys.span = .recovery ∧ t.sys.msix0 = s.sys.msix0 + 1
        ∧ t.sys.pldmEvents = s.sys.pldmEvents + 1 ∧ DataKept s t)
    ∧ (let cap := min 2600 (max 1000 s.sys.capw.toNat)
       let lower := cap < s.ev.count ∨ 105 < s.ev.k
       let higher := s.ev.count + 50 < cap ∧ s.ev.k < 100
       s.sys.mainPg = true → ∃ t, exec .clockAdjust s = .next t ∧ DataKept s t
        ∧ (lower → t.sys.clk = max 1200 (s.sys.clk - 100)) ∧ (¬ lower → higher → t.sys.clk = min 3300 (s.sys.clk + 100))
        ∧ (¬ lower → ¬ higher → t.sys.clk = s.sys.clk) ∧ (t.sys.therm = true ↔ 105 < s.ev.k)
        ∧ (105 < s.ev.k → s.sys.therm = false → t.sys.pending.getLsbD 10 = true)
        ∧ (115 < s.ev.k → LinksWork s → t.sys.span = .recovery) ∧ (s.ev.k ≤ 115 → t.sys.span = s.sys.span))
    ∧ ∃ t, exec .perstChange s = .next t ∧ t.sys.perst = s.ev.flag ∧ DataKept s t

/-- R269, R321, R323, R324, R326, R328, R335 to R337, R339 to R342: what the side-band port replies to each command, and how the
LPDDR6 home performs the host's reads and writes.
The replies that the spec does not spell out (log entries 63 and 65), and how the resident OS places the host-managed
range (log entry 108), are the model's choice. -/
def Obligations.SideBandAndHostMemory : Prop :=
  ∀ (s : State),
    (s.sys.auxPg = true →
      (∃ t, exec .readBbhead s = .next t ∧ Replied s t 0 [s.sys.boxHead.setWidth 64])
      ∧ (s.ev.k < 65536 → ∃ t, exec .readBlackBoxRecord s = .next t
          ∧ let r := Sparse.get ({} : BoxRecord) s.sys.box s.ev.k; Replied s t 0 [r.w0, r.w1, r.w2, r.w3])
      ∧ (65536 ≤ s.ev.k → ∃ t, exec .readBlackBoxRecord s = .next t ∧ Replied s t 2 [])
      ∧ (s.ev.k < 4096 → ∃ t r, exec .readRepairMapRecord s = .next t
          ∧ r = Sparse.get (0 : BitVec 128) (if s.ev.flag then s.sys.fieldMap else s.sys.factory) s.ev.k
          ∧ Replied s t 0 [r.extractLsb' 0 64, r.extractLsb' 64 64])
      ∧ (s.sys.span ≠ .service → (∃ t, exec .readSectorMetadata s = .next t ∧ Replied s t 1 [])
          ∧ ∃ t, exec .writeInjectorWords s = .next t ∧ Replied s t 1 [])
      ∧ (s.sys.span = .service → ∀ da, domainAddr s.sys (s.ev.sector * 64) = some da →
          isHomeOf s (homeAgent s.sys da) (da / 64) = true → ∃ t w, exec .readSectorMetadata s = .next t ∧ Replied s t 0 [w]
            ∧ (let m := Sparse.get ({} : HomeMeta) s.tok.homes (da / 64)
               w.extractLsb' 12 3 = m.serial ∧ w.getLsbD 11 = m.owner ∧ w.extractLsb' 0 11 = m.count ∧ w.extractLsb' 15 49 = 0))
      ∧ (s.sys.span = .service → domainAddr s.sys (s.ev.sector * 64) = none →
          ∃ t, exec .readSectorMetadata s = .next t ∧ Replied s t 2 [])
      ∧ (s.sys.span = .service → 24 ≤ s.ev.link → ∃ t, exec .writeInjectorWords s = .next t ∧ Replied s t 2 [])
      ∧ (s.sys.span = .service → s.ev.link < 24 → ∃ t, exec .writeInjectorWords s = .next t
          ∧ t.sys.replies = ⟨0, []⟩ :: s.sys.replies ∧ DataKept s t ∧ InjectorSet s t s.ev.link
          ∧ InjectorWord True (s.link s.ev.link).inj.w0 s.ev.val0 (t.link s.ev.link).inj.w0
          ∧ (t.link s.ev.link).inj.w1 = (s.ev.val1.extractLsb' 0 46).setWidth 64)
      ∧ (∃ t w, exec .readModstat s = .next t ∧ Replied s t 0 [w] ∧ w.getLsbD 43 = s.sys.therm ∧ w.getLsbD 42 = s.sys.mainPg
          ∧ w.getLsbD 41 = s.sys.auxPg ∧ w.getLsbD 40 = s.sys.perst ∧ w.extractLsb' 32 3 = s.sys.modid
          ∧ w.extractLsb' 16 16 = s.sys.epoch ∧ w.getLsbD 2 = s.sys.dllc ∧ (w.extractLsb' 48 16).toNat = s.sys.clk % 65536
          ∧ ((w.extractLsb' 0 2).toNat = 2 ↔ s.sys.span = .service))
      ∧ (s.ev.sensor = .coreClock → ∃ t, exec .pldmSensorRead s = .next t ∧ Replied s t 0 [BitVec.ofNat 64 s.sys.clk])
      ∧ (s.ev.sensor ≠ .coreClock → ∃ t, exec .pldmSensorRead s = .next t ∧ Replied s t 0 [s.ev.val0])
      ∧ (∃ t, exec .pldmFirmwareUpdate s = .next t ∧ t = { s with sys := { s.sys with flash := s.ev.image } })
      ∧ ∃ t w rest, exec .spdmMeasurement s = .next t ∧ Replied s t 0 (w :: rest) ∧ rest.length = 16
          ∧ w.extractLsb' 0 24 = s.sys.pass ∧ w.extractLsb' 32 8 = s.sys.fencedArrays ∧ w.extractLsb' 40 8 = s.sys.spares)
    ∧ (let home := ownAgent s.sys 520
       let sec := s.ev.sector
       let r : HostReq := ⟨s.ev.mask != 0, sec, s.ev.mask, s.ev.data⟩
       let endsPoisoned : Prop :=
         (∃ t, exec .cxlMemWrite s = .next t ∧ t.sys.hostWrites = (sec, true) :: s.sys.hostWrites ∧ t.tok = s.tok ∧ DataKept s t)
         ∧ ∃ t, exec .cxlMemRead s = .next t ∧ t.sys.hostReads = (sec, 0, true) :: s.sys.hostReads ∧ t.tok = s.tok ∧ DataKept s t
       (s.ev.flag = false →
         (s.sys.span ≠ .service ∨ (∀ d, ¬ InHostRange s sec d) → endsPoisoned)
         ∧ (∀ d, s.sys.span = .service → InHostRange s sec d →
           (∃ t, exec .cxlMemWrite s = .next t ∧ t.tok.host = s.tok.host ++ [{ r with write := true, sector := d }] ∧ DataKept s t)
           ∧ ∃ t, exec .cxlMemRead s = .next t ∧ t.tok.host = s.tok.host ++ [{ r with write := false, sector := d }] ∧ DataKept s t))
       ∧ (s.ev.flag = true → ∀ q rest, s.tok.host = q :: rest → s.sys.span ≠ .service →
         (q.write = true → ∃ t, exec .cxlMemWrite s = .next t ∧ t.tok.host = rest ∧ DataKept s t
           ∧ t.sys.hostWrites = (q.sector, true) :: s.sys.hostWrites)
         ∧ (q.write = false → ∃ t, exec .cxlMemRead s = .next t ∧ t.tok.host = rest ∧ DataKept s t
           ∧ t.sys.hostReads = (q.sector, 0, true) :: s.sys.hostReads))
       ∧ (s.ev.flag = true → ∀ q rest, s.tok.host = q :: rest → s.sys.span = .service → isHomeOf s home q.sector = true →
         (q.write = true → CensusRuns s q.sector → exec .cxlMemWrite s = .next s)
         ∧ (q.write = true → ¬ CensusRuns s q.sector → satisfied s home q.sector true = true → ∀ pa, localAddr s.sys (q.sector * 64) = some pa →
           ∃ t, exec .cxlMemWrite s = .next t ∧ t.tok.host = rest ∧ t.sys.hostWrites = (q.sector, false) :: s.sys.hostWrites
             ∧ (∀ k, k < 64 → homeByte t (pa + k)
                 = if q.mask.getLsbD k then q.data.extractLsb' (8 * k) 8 else homeByte s (pa + k))
             ∧ ∀ a, ¬ (pa ≤ a ∧ a < pa + 64) → homeByte t a = homeByte s a)
         ∧ (q.write = false → (holding s home q.sector).owner = true →
           ∃ t, exec .cxlMemRead s = .next t ∧ t.tok.host = rest ∧ DataKept s t
             ∧ t.sys.hostReads = (q.sector, homeData s q.sector, (holding s home q.sector).poison) :: s.sys.hostReads)))

/-! ### The machine as a whole -/

/-- R11, R333: every step keeps memory in its canonical form, so that equal memories are equal data. The form is the
model's own. -/
def Obligations.MemoryStaysCanonical : Prop :=
  ∀ (s t : State), MemoryCanonical s → step s = .next t → MemoryCanonical t

/-- R7, R19, R323, R335: what reset leaves: the auxiliary span with auxiliary power good and main power absent, the clock at
3300 MHz, the power cap at 2600 W, an empty black box, nothing resident, nothing listed in memory, and every register of
every warp at zero but p0, which reads 1. The zeros are the model's choice (log entries 1 and 2). -/
def Obligations.ResetState : Prop :=
  let s := State.reset
  MemoryCanonical s ∧ (∀ a, homeByte s a = 0) ∧ s.sys.span = .auxiliary ∧ s.sys.auxPg = true ∧ s.sys.mainPg = false
    ∧ s.sys.clk = 3300 ∧ s.sys.therm = false ∧ s.sys.capw = 2600 ∧ s.sys.box = [] ∧ s.sys.boxHead = 0 ∧ s.sys.audctl = 8
    ∧ s.warps = [] ∧ s.blocks = [] ∧ s.agenda = []
    ∧ ∀ w r, (s.warp w).arch.getS r = 0 ∧ (s.warp w).arch.getP 0 = BitVec.allOnes 64 ∧ (r ≠ 0 → (s.warp w).arch.getP r = 0)
        ∧ ∀ f l, l < 64 → (s.warp w).arch.getV f r l = 0

/-- R35, R38, R40, R52, R155, R188, R232, R241, R256: in service, one cc of a scheduler issues the bundle that stands at the chosen unit: a word that
decodes runs its scalar slot, then, once that has executed, its vector slot, and ends the bundle; a word that does not decode
raises the illegal-instruction trap with its cause and executes no slot. An event runs as it is, and after each the launch unit watches what donors have come to wait on (R241); a hart's instruction runs and
retires unless it waits; a reserved word of custom-0 raises the hart's illegal-instruction exception.
That the trap-level check is made as the bundle is decoded, with cause 3, is the model's reading of R155 (log entry 18). -/
def Obligations.StepRunsDecoded : Prop :=
  ∀ (s : State) (rest : List Action), s.sys.span = .service →
    let s0 := { s with moves := s.moves + 1, agenda := rest }
    (∀ (core sched w u word : Nat), s.agenda = .cycle core sched :: rest →
      let t := tickSched s0 core sched
      chosenUnit t core sched = some (w, u) →
      let q := noteChoice t core sched w
      let cc (r : Result) : Result := thenNext (thenNext r (afterCc q w u (readyUnits t core sched))) watchMore
      let x := q.warp w
      let v := x.unit u
      fetchWord q x.ctx v.bundleAddr = some word →
      let last := decide (v.pos.head.len.toNat ≤ max 1 v.pos.idx)
      let trapped (c : Nat) : Result := exec (.illegalInstruction c)
        { q.setWarp w (atBundle x u) with cur := { w := w, u := u, lanes := v.lanes, pc := v.bundleAddr, last := last } }
      (levelBreach x.arch v word = false → (placedWord word = true → last = true) →
        (∀ (b : Bundle) (m : Lanes), decodeBundle word = .ok b → convLanes x u (unitConv x.arch v b) = some m →
          let p := issueState q w u b m
          (p.unit.skip = true ∨ b.scalar = none → step s = cc (runVector b (p.setUnit (fun v => { v with skip := true }))))
          ∧ (p.unit.skip = false → ∀ i, b.scalar = some i →
            (∀ r, exec i (slotState p false) = .next r →
              step s = cc (if r.cur.status = .ok then runVector b (afterScalar r) else .next r))
            ∧ (∀ f, exec i (slotState p false) = .fault f → step s = .fault f)
            ∧ ∀ f, exec i (slotState p false) = .refused f → step s = .refused f))
        ∧ ∀ (e : DecodeError), decodeBundle word = .error e → step s = cc (trapped e.code))
      ∧ (levelBreach x.arch v word = true → ∀ b : Bundle, decodeBundle word = .ok b → step s = cc (trapped 3))
      ∧ (levelBreach x.arch v word = false → placedWord word = true → last = false → ∀ b : Bundle, decodeBundle word = .ok b →
          step s = cc (trapped 8)))
    ∧ (∀ (b : Bundle) (p r : State),
        regsFree p.cw (p.cur.lanes ||| p.cur.helpers) (((p.core p.cw.core).cc[schedOf p.cw]?).getD 0) (regUse b.vector) = true →
        exec b.vector (slotState p true) = .next r → runVector b p = .next (afterVector b r))
    ∧ (∀ (i : Instr) (e : EventArgs), s.agenda = .event i e :: rest → mayHappen s i = true →
        step s = thenNext (exec i { s0 with ev := e }) watchMore)
    ∧ ∀ (h : Nat), s.agenda = .hart h :: rest → h < 64 →
        (∀ i r, decodeHart (hartWord s0 h) = .ok i →
          let s1 := { s0.setHart h { s0.hart h with illegal := none } with ev := { hart := h } }
          exec i s1 = .next r →
          step s = .next (if (r.hart h).illegal.isSome then r
            else r.setHart h { r.hart h with launching := gxWaits s1 i, pc := if gxWaits s1 i then (r.hart h).pc else (r.hart h).pc + 4 }))
        ∧ ∀ e, decodeHart (hartWord s0 h) = .error e → hartWord s0 h % 128 = 0x0B →
            ∃ t, step s = .next t ∧ (t.hart h).illegal = some (BitVec.ofNat 32 (hartWord s0 h))

/-- R19, R23, R40, R103: a bundle issues for the lanes its convergence gives; its guard passes in the active lanes whose predicate
matches the sense, in all of them under p0; the helpers are the lanes of the same quads that are not live; forming the issue
changes no register, no other warp and no memory. -/
def Obligations.IssueFollowsGuard : Prop :=
  ∀ (s : State) (w u : Nat) (b : Bundle) (m : Lanes),
    let t := issueState s w u b m
    t.cur.w = w ∧ t.cur.lanes = m ∧ t.cur.gscope = b.gscope ∧ t.cur.status = .ok
      ∧ (∀ l, hasLane t.cur.guard l = true ↔ hasLane m l = true ∧ hasLane (t.pred b.gpred.toNat) l = b.gsense)
      ∧ (b.gpred = 0 → b.gsense = true → t.cur.guard = m)
      ∧ t.cur.helpers = helpersOf t.arch m
      ∧ (m &&& ~~~t.arch.live = 0 → t.cur.guard &&& t.cur.helpers = 0)
      ∧ t.arch.sregs = (s.warp w).arch.sregs ∧ t.arch.vregs = (s.warp w).arch.vregs ∧ t.arch.preds = (s.warp w).arch.preds
      ∧ t.arch.acc = (s.warp w).arch.acc ∧ t.arch.nstat = (s.warp w).arch.nstat ∧ t.arch.live = (s.warp w).arch.live
      ∧ t.mem = s.mem ∧ t.tok = s.tok ∧ ∀ k, k ≠ w → t.warp k = s.warp k

/-! ### Encoding -/

/-- R36 to R48, R232, R256: the decoder reads back every bundle that the encoder writes of well-formed slots, every header and
both hart instructions; and a word that decodes to a bundle is the one word of it, whose slots are well formed. -/
def Obligations.EncodingRoundTrips : Prop :=
  (∀ (b : Bundle) (w : Nat), Encodable b → encodeBundle b = some w → w < 2 ^ 64 ∧ decodeBundle w = .ok b)
    ∧ (∀ (w : Nat) (b : Bundle), w < 2 ^ 64 → decodeBundle w = .ok b → Encodable b ∧ encodeBundle b = some w)
    ∧ (∀ h : Header, decodeWord (encodeHeader h) = .ok (.header h))
    ∧ ∀ (i : Instr) (w : Nat), encodeHart i = some w → decodeHart w = .ok i

/-- R34: code is framed by its words alone: eight bytes, lowest first, are a header exactly when bits [63:59] are all ones, and no
word of a bundle has that pattern. -/
def Obligations.CodeFramesItself : Prop :=
  (∀ (w : Nat) (rest : List Byte), w < 2 ^ 64 → decodeBytes (leBytes 8 w ++ rest) = (decodeWord w).map (fun c => (c, rest)))
    ∧ (∀ w : Nat, w < 2 ^ 64 → ((∃ h, decodeWord w = .ok (.header h)) ↔ ∀ k, 59 ≤ k → k < 64 → w.testBit k = true))
    ∧ ∀ (b : Bundle) (w : Nat), Encodable b → encodeBundle b = some w → decodeWord w = .ok (.bundle b)

/-- R36, R41 to R43, R46 to R48, R50, R52, R232: words written out from the encoding tables decode to the instructions they
stand for, and words that are no instruction are rejected with their cause. -/
def Obligations.SampleWordsDecode : Prop :=
  decodeWord 0xF860145E00000620 = .ok (.header ⟨3, 0x00A, 2, 15, 0, 3, 1, false, false, false⟩)
    ∧ decodeBundle 0x8100C30404101418 = .ok ⟨true, 0, false, some (.saddSi 3 3 1), .vadd ⟨4, 5, 6, 0⟩⟩
    ∧ decodeBundle 0x10000000041C1C12 = .ok ⟨false, 2, false, some (.snop 0), .vadd ⟨7, 7, 4, 2⟩⟩
    ∧ decodeBundle 0x8C11040C08201C10 = .ok ⟨true, 1, true, some (.sadd 4 4 3), .vsub ⟨8, 7, 4, 0⟩⟩
    ∧ decodeBundle 0x8581404000000000 = .ok (scalarLine (.sli 5 16))
    ∧ decodeBundle 0x8591450C00000000 = .ok (scalarLine (.slsh 5 0x143))
    ∧ decodeBundle 0x85C1C04000000000 = .ok (scalarLine (.sst 7 0 16))
    ∧ decodeBundle 0x86B000A800000000 = .ok (scalarLine (.strap 42))
    ∧ decodeBundle 0x86C0400000000000 = .ok (scalarLine .ssysTret)
    ∧ decodeBundle 0x86D1CE5000000000 = .ok (scalarLine (.smfence 7 3 true 5))
    ∧ decodeBundle 0x8703890000000000 = .ok (scalarLine (.smonwait 14 9))
    ∧ decodeBundle 0x85FA000000000000 = .ok (scalarLine (.sfenceRel 4))
    ∧ decodeBundle 0x80000001080C182C = .ok (vectorLine (.vcmpVs ⟨0, 3, 6, 11, 0⟩))
    ∧ decodeBundle 0x800000018C181014 = .ok (vectorLine (.vfma ⟨6, 4, 5, 0⟩))
    ∧ decodeBundle 0x80000002000C1448 = .ok (vectorLine (.vld ⟨3, 5, 4, 2, 0⟩ none))
    ∧ decodeBundle 0x83F50042000C1448 = .ok (joinedLine (.vld ⟨3, 5, 4, 2, 0⟩ (some ⟨1, 2, 16⟩)))
    ∧ decodeBundle 0x83F860C140280C00 = .ok (joinedLine (.vcvt 10 3 ⟨8, 6, 0, true, true⟩))
    ∧ decodeBundle 0x83F20001DC0C1000 = .ok (joinedLine (.vvote 0 3 4 false (some 2)))
    ∧ decodeBundle 0x83F2200281050000 = .ok (joinedLine (.vmma ⟨1, 0, 1, 2, 8, true, false⟩))
    ∧ decodeHart 0x00B5050B = .ok (.gxLaunch 10 10 11)
    ∧ decodeHart 0x0005150B = .ok (.gxReplay 10 10)
    ∧ decodeBundle 0x7800000000000000 = .error .guardFifteen
    ∧ decodeBundle 0x83E0000000000000 = .error .illegalOpcode
    ∧ decodeBundle 0x80000003FC000000 = .error .illegalOpcode
    ∧ decodeBundle 0x8350000000000000 = .error .reserved
    ∧ decodeBundle 0x80000000F4000000 = .error .reserved
    ∧ decodeBundle 0x83F0000004000000 = .error .joinMismatch
    ∧ decodeBundle 0x8000000140280C00 = .error .joinMismatch
    ∧ decodeBundle 0x87F860C140280C00 = .error .scopeOnJoined
    ∧ decodeBundle 0x80000001083C182C = .error .noRegister

/-- R92: PAND, POR, PXOR and PNOT, from the bits of their words to the predicate they write in every lane the issue writes;
m[1] inverts pa and m[0] pb before the operation, and a result for p0 is discarded. -/
def Obligations.PredicateLogic : Prop :=
  ∀ (pd pa pb : BitVec 4) (na nb : Bool) (s : State), pd ≠ 15 → pa ≠ 15 → pb ≠ 15 →
    let word (vop : Nat) := 2 ^ 63 + vop * 2 ^ 26 + pd.toNat * 2 ^ 18 + pa.toNat * 2 ^ 10 + pb.toNat * 2 ^ 2 + na.toNat * 2 + nb.toNat
    let a (l : Nat) : Bool := hasLane (s.pred pa.toNat) l != na
    let b (l : Nat) : Bool := hasLane (s.pred pb.toNat) l != nb
    let does (i : Instr) (f : Nat → Bool) : Prop := ∃ t, exec i s = .next t ∧ OnlyArch s t
      ∧ t.arch = { s.arch with preds := t.arch.preds }
      ∧ ∀ k l, hasLane (t.pred k) l = if k = pd.toNat ∧ pd ≠ 0 ∧ hasLane s.written l = true then f l else hasLane (s.pred k) l
    let q : VqOp := ⟨pd, pa, pb, na, nb⟩
    (decodeBundle (word 0x44) = .ok (vectorLine (.vpand q)) ∧ does (.vpand q) (fun l => a l && b l))
      ∧ (decodeBundle (word 0x45) = .ok (vectorLine (.vpor q)) ∧ does (.vpor q) (fun l => a l || b l))
      ∧ (decodeBundle (word 0x46) = .ok (vectorLine (.vpxor q)) ∧ does (.vpxor q) (fun l => a l != b l))
      ∧ ((pb = 0 ∧ nb = false → decodeBundle (word 0x47) = .ok (vectorLine (.vpnot pd pa na)))
        ∧ (¬ (pb = 0 ∧ nb = false) → decodeBundle (word 0x47) = .error .reserved)
        ∧ does (.vpnot pd pa na) (fun l => !a l))

/-! ### The control window -/

/-- R12, R246, R254, R255, R266, R289, R314, R323, R328, R333, R335: a supervisor hart's 64-bit load of the control window reads
its registers, and its 64-bit store and a register write leave in them what their access codes allow; a user-mode hart's access of the
window, and an access outside every range, read 0 and change nothing.
NPCMD reading back with GO 0 and VS counting as supervisor level (log entry 69), and an injector's fields written outside
service (log entry 68), are the model's reading. -/
def Obligations.ControlWindow : Prop :=
  ∀ (s : State),
    let h := s.ev.hart
    let hart := s.hart h
    (∀ off v, s.ev.id = off → s.ev.val0 = v → supervisor hart = true →
      ∃ t, exec .registerWrite s = .next t ∧ WindowWritten s t hart off v ∧ (WindowReadOnly off → t = s))
    ∧ (h < 64 → (s.sys.span = .service ∨ s.sys.span = .bringUp) → (∀ op, hart.wait = some op → op = s.ev.hartOp) →
      (∀ rd pa size sign off, s.ev.hartOp = .load rd pa size sign → physPlace s.sys pa = .control off →
        (supervisor hart = true → size = 3 → off % 8 = 0 → ∃ t v, exec .hartMemoryAccess s = .next t
          ∧ WindowHolds s hart off v ∧ HartWrote s t h rd v ∧ MemoryKept s t ∧ t.sys = s.sys ∧ t.names = s.names)
        ∧ (supervisor hart = false ∨ size ≠ 3 → ∃ t, exec .hartMemoryAccess s = .next t ∧ HartWrote s t h rd 0
          ∧ MemoryKept s t ∧ t.sys = s.sys ∧ t.names = s.names))
      ∧ (∀ rs pa size off, s.ev.hartOp = .store rs pa size → physPlace s.sys pa = .control off →
        (supervisor hart = true → size = 3 → off % 8 = 0 → ∃ t, exec .hartMemoryAccess s = .next t
          ∧ WindowWritten s t hart off (hart.get rs) ∧ (WindowReadOnly off → t = s.setHart h { hart with wait := none }))
        ∧ (supervisor hart = false ∨ size ≠ 3 → exec .hartMemoryAccess s = .next (s.setHart h { hart with wait := none })))
      ∧ (∀ rd pa size sign, s.ev.hartOp = .load rd pa size sign → physPlace s.sys pa = .nowhere →
        ∃ t, exec .hartMemoryAccess s = .next t ∧ HartWrote s t h rd 0 ∧ MemoryKept s t ∧ t.sys = s.sys ∧ t.names = s.names)
      ∧ ∀ rs pa size, s.ev.hartOp = .store rs pa size → physPlace s.sys pa = .nowhere →
        exec .hartMemoryAccess s = .next (s.setHart h { hart with wait := none }))
end

