-- ==== Sys2Proof/Laws/Sparse.lean ====
section
/-! SUPPORT. Sparse stores: a read after a write, and the canonical form kept by every operation. -/

namespace Sys2Proof.Machine

variable {α : Type}

theorem Sparse.find_insert (m : Sparse α) (k j : Nat) (v : α) :
    Sparse.find (Sparse.insert k v m) j = if j = k then some v else Sparse.find m j := by
  induction m with
  | nil => simp [Sparse.insert, Sparse.find]
  | cons e xs ih =>
    obtain ⟨a, b⟩ := e
    unfold Sparse.insert
    split
    · simp [Sparse.find]
    · split
      · subst_vars
        by_cases hj : j = a <;> simp [Sparse.find, hj]
      · by_cases hj : j = a
        · subst hj
          have : j ≠ k := fun h => by simp_all
          simp [Sparse.find, this]
        · simp [Sparse.find, hj, ih]

theorem Sparse.find_erase (m : Sparse α) (k j : Nat) :
    Sparse.find (Sparse.erase k m) j = if j = k then none else Sparse.find m j := by
  induction m with
  | nil => simp [Sparse.erase, Sparse.find]
  | cons e xs ih =>
    obtain ⟨a, b⟩ := e
    by_cases hk : k = a
    · subst hk
      by_cases hj : j = k <;> simp_all [Sparse.erase, Sparse.find]
    · by_cases hj : j = a
      · subst hj
        simp [Sparse.erase, Sparse.find, hk, Ne.symm hk]
      · simp [Sparse.erase, Sparse.find, hk, hj, ih]

theorem Sparse.get_eq_find (d : α) (m : Sparse α) (k : Nat) : Sparse.get d m k = (Sparse.find m k).getD d := by
  induction m with
  | nil => rfl
  | cons e xs ih =>
    obtain ⟨a, b⟩ := e
    by_cases h : k = a <;> simp [Sparse.get, Sparse.find, h, ih]

/-- A read after an insertion. -/
theorem Sparse.get_insert (d : α) (m : Sparse α) (k j : Nat) (v : α) :
    Sparse.get d (Sparse.insert k v m) j = if j = k then v else Sparse.get d m j := by
  by_cases h : j = k <;> simp [Sparse.get_eq_find, Sparse.find_insert, h]

/-- A read after a removal. -/
theorem Sparse.get_erase (d : α) (m : Sparse α) (k j : Nat) :
    Sparse.get d (Sparse.erase k m) j = if j = k then d else Sparse.get d m j := by
  by_cases h : j = k <;> simp [Sparse.get_eq_find, Sparse.find_erase, h]

/-- A read after a write, in any list. -/
theorem Sparse.get_set [DecidableEq α] (d : α) (m : Sparse α) (k j : Nat) (v : α) :
    Sparse.get d (Sparse.set d m k v) j = if j = k then v else Sparse.get d m j := by
  by_cases hv : v = d <;> by_cases h : j = k <;> simp [Sparse.set, Sparse.get_insert, Sparse.get_erase, h, hv]

theorem Sparse.okFrom_mono [DecidableEq α] {d : α} {m : Sparse α} {a b : Nat} (h : a ≤ b) (hm : Sparse.okFrom d b m = true) :
    Sparse.okFrom d a m = true := by
  cases m with
  | nil => rfl
  | cons e xs =>
    obtain ⟨k, v⟩ := e
    simp only [Sparse.okFrom, Bool.and_eq_true, decide_eq_true_eq] at hm ⊢
    exact ⟨⟨Nat.le_trans h hm.1.1, hm.1.2⟩, hm.2⟩

theorem Sparse.okFrom_insert [DecidableEq α] {d : α} {m : Sparse α} {lo k : Nat} {v : α} (hk : lo ≤ k) (hv : v ≠ d)
    (hm : Sparse.okFrom d lo m = true) : Sparse.okFrom d lo (Sparse.insert k v m) = true := by
  induction m generalizing lo with
  | nil => simp [Sparse.insert, Sparse.okFrom, hk, hv]
  | cons e xs ih =>
    obtain ⟨a, b⟩ := e
    simp only [Sparse.okFrom, Bool.and_eq_true, decide_eq_true_eq] at hm
    unfold Sparse.insert
    split
    · simp_all [Sparse.okFrom] <;> omega
    · split
      · subst_vars
        simp [Sparse.okFrom, hk, hv, hm.2]
      · simp only [Sparse.okFrom, Bool.and_eq_true, decide_eq_true_eq]
        exact ⟨hm.1, ih (by omega) hm.2⟩

theorem Sparse.okFrom_erase [DecidableEq α] {d : α} {m : Sparse α} {lo : Nat} (k : Nat)
    (hm : Sparse.okFrom d lo m = true) : Sparse.okFrom d lo (Sparse.erase k m) = true := by
  induction m generalizing lo with
  | nil => rfl
  | cons e xs ih =>
    obtain ⟨a, b⟩ := e
    simp only [Sparse.okFrom, Bool.and_eq_true, decide_eq_true_eq] at hm
    unfold Sparse.erase
    split
    · exact Sparse.okFrom_mono (by omega) (ih hm.2)
    · simp only [Sparse.okFrom, Bool.and_eq_true, decide_eq_true_eq]
      exact ⟨hm.1, ih hm.2⟩

/-- A write keeps the canonical form. -/
theorem Sparse.wf_set [DecidableEq α] {d : α} {m : Sparse α} (k : Nat) (v : α) (hm : Sparse.wf d m = true) :
    Sparse.wf d (Sparse.set d m k v) = true := by
  unfold Sparse.set
  split
  · exact Sparse.okFrom_erase k hm
  · exact Sparse.okFrom_insert (Nat.zero_le k) ‹_› hm

/-- A run of writes keeps the canonical form. -/
theorem Sparse.wf_setRun [DecidableEq α] {d : α} {vs : List α} {m : Sparse α} (k : Nat) (hm : Sparse.wf d m = true) :
    Sparse.wf d (Sparse.setRun d m k vs) = true := by
  induction vs generalizing m k with
  | nil => exact hm
  | cons v vs ih => exact ih _ (Sparse.wf_set k v hm)

end Sys2Proof.Machine
end

