-- ==== Sys2Proof/Laws/Memory.lean ====
section
/-! SUPPORT. Memory at its homes: a byte read after a write, what a write leaves alone, and the canonical form that every
operation keeps. -/

namespace Sys2Proof.Machine

/-- A byte read after one byte is written. -/
@[simp] theorem readByte_writeByte (m : List Host.Cell) (a k : Nat) (b : Byte) :
    readByte (writeByte m a b) k = if k = a then b else readByte m k := Sparse.get_set ..

/-- A value read after a run of values is written: the run's own, or what stood there. -/
theorem Sparse.get_setRun {α : Type} [DecidableEq α] (d : α) (vs : List α) (m : Sparse α) (a k : Nat) :
    Sparse.get d (Sparse.setRun d m a vs) k = if a ≤ k ∧ k < a + vs.length then vs.getD (k - a) d else Sparse.get d m k := by
  induction vs generalizing m a with
  | nil => rw [Sparse.setRun, if_neg (by simp only [List.length_nil]; omega)]
  | cons v vs ih =>
    rw [Sparse.setRun, ih, Sparse.get_set]
    by_cases h : k = a
    · subst h
      rw [if_neg (by omega), if_pos rfl, if_pos (by simp only [List.length_cons]; omega)]
      simp
    · by_cases h2 : a + 1 ≤ k ∧ k < a + 1 + vs.length
      · rw [if_pos h2, if_pos (by simp only [List.length_cons]; omega), show k - a = (k - (a + 1)) + 1 by omega]
        simp
      · rw [if_neg h2, if_neg h, if_neg (by simp only [List.length_cons]; omega)]

/-- A byte read after a run of bytes is written. -/
theorem readByte_writeBytes (m : List Host.Cell) (a k : Nat) (bs : List Byte) :
    readByte (writeBytes m a bs) k = if a ≤ k ∧ k < a + bs.length then bs.getD (k - a) unwritten else readByte m k :=
  Sparse.get_setRun unwritten bs m a k

/-- Bytes outside a written run read as before. -/
theorem readByte_writeBytes_outside (m : List Host.Cell) (a k : Nat) (bs : List Byte) (h : ¬ (a ≤ k ∧ k < a + bs.length)) :
    readByte (writeBytes m a bs) k = readByte m k := by rw [readByte_writeBytes, if_neg h]

theorem writeByte_wf {m : List Host.Cell} (a : Nat) (b : Byte) (h : Memory.wf m) : Memory.wf (writeByte m a b) :=
  Sparse.wf_set a b h

theorem writeBytes_wf {m : List Host.Cell} (a : Nat) (bs : List Byte) (h : Memory.wf m) : Memory.wf (writeBytes m a bs) :=
  Sparse.wf_setRun a h

/-- A sector's write changes memory alone. -/
theorem setHomeData_frame (s : State) (sec : Nat) (d : SectorData) : setHomeData s sec d = { s with mem := (setHomeData s sec d).mem } := by
  unfold setHomeData
  cases localAddr s.sys (sectorBase sec) <;> rfl

/-- A sector's write keeps the canonical form. -/
theorem setHomeData_wf (s : State) (sec : Nat) (d : SectorData) (h : Memory.wf s.mem) : Memory.wf (setHomeData s sec d).mem := by
  unfold setHomeData
  cases localAddr s.sys (sectorBase sec) with
  | none => exact h
  | some pa => exact writeBytes_wf pa _ h

/-- Placing words keeps the canonical form. -/
theorem putWords_wf {m : List Host.Cell} (l : List (Nat × Nat)) (h : Memory.wf m) : Memory.wf (putWords m l) := by
  induction l generalizing m with
  | nil => exact h
  | cons e l ih => exact ih (writeBytes_wf _ _ h)

theorem placeBundle_wf (s : State) (word : Nat) (h : Memory.wf s.mem) : Memory.wf (placeBundle s word).mem :=
  putWords_wf _ h

theorem placeHart_wf (s : State) (word : Nat) (h : Memory.wf s.mem) : Memory.wf (placeHart s word).mem :=
  writeBytes_wf _ _ h

theorem reset_memory_wf : Memory.wf State.reset.mem := rfl

end Sys2Proof.Machine
end

