-- ==== Sys2Proof/Laws/State.lean ====
section
/-! SUPPORT. One lemma for each field of State and each update of it, true by definition; then what a table reads after it is
written. -/

namespace Sys2Proof.Machine

@[simp] theorem State.setWarp_mem (s : State) (w : Nat) (x : Warp) : (s.setWarp w x).mem = s.mem := rfl
@[simp] theorem State.setWarp_codeDirty (s : State) (w : Nat) (x : Warp) : (s.setWarp w x).codeDirty = s.codeDirty := rfl
@[simp] theorem State.setWarp_blocks (s : State) (w : Nat) (x : Warp) : (s.setWarp w x).blocks = s.blocks := rfl
@[simp] theorem State.setWarp_areas (s : State) (w : Nat) (x : Warp) : (s.setWarp w x).areas = s.areas := rfl
@[simp] theorem State.setWarp_cores (s : State) (w : Nat) (x : Warp) : (s.setWarp w x).cores = s.cores := rfl
@[simp] theorem State.setWarp_tlb2 (s : State) (w : Nat) (x : Warp) : (s.setWarp w x).tlb2 = s.tlb2 := rfl
@[simp] theorem State.setWarp_grids (s : State) (w : Nat) (x : Warp) : (s.setWarp w x).grids = s.grids := rfl
@[simp] theorem State.setWarp_queues (s : State) (w : Nat) (x : Warp) : (s.setWarp w x).queues = s.queues := rfl
@[simp] theorem State.setWarp_seqs (s : State) (w : Nat) (x : Warp) : (s.setWarp w x).seqs = s.seqs := rfl
@[simp] theorem State.setWarp_served (s : State) (w : Nat) (x : Warp) : (s.setWarp w x).served = s.served := rfl
@[simp] theorem State.setWarp_graphs (s : State) (w : Nat) (x : Warp) : (s.setWarp w x).graphs = s.graphs := rfl
@[simp] theorem State.setWarp_donations (s : State) (w : Nat) (x : Warp) : (s.setWarp w x).donations = s.donations := rfl
@[simp] theorem State.setWarp_waitSince (s : State) (w : Nat) (x : Warp) : (s.setWarp w x).waitSince = s.waitSince := rfl
@[simp] theorem State.setWarp_removing (s : State) (w : Nat) (x : Warp) : (s.setWarp w x).removing = s.removing := rfl
@[simp] theorem State.setWarp_cmds (s : State) (w : Nat) (x : Warp) : (s.setWarp w x).cmds = s.cmds := rfl
@[simp] theorem State.setWarp_lastPair (s : State) (w : Nat) (x : Warp) : (s.setWarp w x).lastPair = s.lastPair := rfl
@[simp] theorem State.setWarp_pool (s : State) (w : Nat) (x : Warp) : (s.setWarp w x).pool = s.pool := rfl
@[simp] theorem State.setWarp_poolPend (s : State) (w : Nat) (x : Warp) : (s.setWarp w x).poolPend = s.poolPend := rfl
@[simp] theorem State.setWarp_rounds (s : State) (w : Nat) (x : Warp) : (s.setWarp w x).rounds = s.rounds := rfl
@[simp] theorem State.setWarp_packets (s : State) (w : Nat) (x : Warp) : (s.setWarp w x).packets = s.packets := rfl
@[simp] theorem State.setWarp_roundMsgs (s : State) (w : Nat) (x : Warp) : (s.setWarp w x).roundMsgs = s.roundMsgs := rfl
@[simp] theorem State.setWarp_audit (s : State) (w : Nat) (x : Warp) : (s.setWarp w x).audit = s.audit := rfl
@[simp] theorem State.setWarp_tok (s : State) (w : Nat) (x : Warp) : (s.setWarp w x).tok = s.tok := rfl
@[simp] theorem State.setWarp_names (s : State) (w : Nat) (x : Warp) : (s.setWarp w x).names = s.names := rfl
@[simp] theorem State.setWarp_ports (s : State) (w : Nat) (x : Warp) : (s.setWarp w x).ports = s.ports := rfl
@[simp] theorem State.setWarp_harts (s : State) (w : Nat) (x : Warp) : (s.setWarp w x).harts = s.harts := rfl
@[simp] theorem State.setWarp_links (s : State) (w : Nat) (x : Warp) : (s.setWarp w x).links = s.links := rfl
@[simp] theorem State.setWarp_sys (s : State) (w : Nat) (x : Warp) : (s.setWarp w x).sys = s.sys := rfl
@[simp] theorem State.setWarp_nextId (s : State) (w : Nat) (x : Warp) : (s.setWarp w x).nextId = s.nextId := rfl
@[simp] theorem State.setWarp_agenda (s : State) (w : Nat) (x : Warp) : (s.setWarp w x).agenda = s.agenda := rfl
@[simp] theorem State.setWarp_moves (s : State) (w : Nat) (x : Warp) : (s.setWarp w x).moves = s.moves := rfl
@[simp] theorem State.setWarp_free (s : State) (w : Nat) (x : Warp) : (s.setWarp w x).free = s.free := rfl
@[simp] theorem State.setWarp_ev (s : State) (w : Nat) (x : Warp) : (s.setWarp w x).ev = s.ev := rfl
@[simp] theorem State.setWarp_cur (s : State) (w : Nat) (x : Warp) : (s.setWarp w x).cur = s.cur := rfl

@[simp] theorem State.setBlock_mem (s : State) (b : Nat) (x : Block) : (s.setBlock b x).mem = s.mem := rfl
@[simp] theorem State.setBlock_codeDirty (s : State) (b : Nat) (x : Block) : (s.setBlock b x).codeDirty = s.codeDirty := rfl
@[simp] theorem State.setBlock_warps (s : State) (b : Nat) (x : Block) : (s.setBlock b x).warps = s.warps := rfl
@[simp] theorem State.setBlock_areas (s : State) (b : Nat) (x : Block) : (s.setBlock b x).areas = s.areas := rfl
@[simp] theorem State.setBlock_cores (s : State) (b : Nat) (x : Block) : (s.setBlock b x).cores = s.cores := rfl
@[simp] theorem State.setBlock_tlb2 (s : State) (b : Nat) (x : Block) : (s.setBlock b x).tlb2 = s.tlb2 := rfl
@[simp] theorem State.setBlock_grids (s : State) (b : Nat) (x : Block) : (s.setBlock b x).grids = s.grids := rfl
@[simp] theorem State.setBlock_queues (s : State) (b : Nat) (x : Block) : (s.setBlock b x).queues = s.queues := rfl
@[simp] theorem State.setBlock_seqs (s : State) (b : Nat) (x : Block) : (s.setBlock b x).seqs = s.seqs := rfl
@[simp] theorem State.setBlock_served (s : State) (b : Nat) (x : Block) : (s.setBlock b x).served = s.served := rfl
@[simp] theorem State.setBlock_graphs (s : State) (b : Nat) (x : Block) : (s.setBlock b x).graphs = s.graphs := rfl
@[simp] theorem State.setBlock_donations (s : State) (b : Nat) (x : Block) : (s.setBlock b x).donations = s.donations := rfl
@[simp] theorem State.setBlock_waitSince (s : State) (b : Nat) (x : Block) : (s.setBlock b x).waitSince = s.waitSince := rfl
@[simp] theorem State.setBlock_removing (s : State) (b : Nat) (x : Block) : (s.setBlock b x).removing = s.removing := rfl
@[simp] theorem State.setBlock_cmds (s : State) (b : Nat) (x : Block) : (s.setBlock b x).cmds = s.cmds := rfl
@[simp] theorem State.setBlock_lastPair (s : State) (b : Nat) (x : Block) : (s.setBlock b x).lastPair = s.lastPair := rfl
@[simp] theorem State.setBlock_pool (s : State) (b : Nat) (x : Block) : (s.setBlock b x).pool = s.pool := rfl
@[simp] theorem State.setBlock_poolPend (s : State) (b : Nat) (x : Block) : (s.setBlock b x).poolPend = s.poolPend := rfl
@[simp] theorem State.setBlock_rounds (s : State) (b : Nat) (x : Block) : (s.setBlock b x).rounds = s.rounds := rfl
@[simp] theorem State.setBlock_packets (s : State) (b : Nat) (x : Block) : (s.setBlock b x).packets = s.packets := rfl
@[simp] theorem State.setBlock_roundMsgs (s : State) (b : Nat) (x : Block) : (s.setBlock b x).roundMsgs = s.roundMsgs := rfl
@[simp] theorem State.setBlock_audit (s : State) (b : Nat) (x : Block) : (s.setBlock b x).audit = s.audit := rfl
@[simp] theorem State.setBlock_tok (s : State) (b : Nat) (x : Block) : (s.setBlock b x).tok = s.tok := rfl
@[simp] theorem State.setBlock_names (s : State) (b : Nat) (x : Block) : (s.setBlock b x).names = s.names := rfl
@[simp] theorem State.setBlock_ports (s : State) (b : Nat) (x : Block) : (s.setBlock b x).ports = s.ports := rfl
@[simp] theorem State.setBlock_harts (s : State) (b : Nat) (x : Block) : (s.setBlock b x).harts = s.harts := rfl
@[simp] theorem State.setBlock_links (s : State) (b : Nat) (x : Block) : (s.setBlock b x).links = s.links := rfl
@[simp] theorem State.setBlock_sys (s : State) (b : Nat) (x : Block) : (s.setBlock b x).sys = s.sys := rfl
@[simp] theorem State.setBlock_nextId (s : State) (b : Nat) (x : Block) : (s.setBlock b x).nextId = s.nextId := rfl
@[simp] theorem State.setBlock_agenda (s : State) (b : Nat) (x : Block) : (s.setBlock b x).agenda = s.agenda := rfl
@[simp] theorem State.setBlock_moves (s : State) (b : Nat) (x : Block) : (s.setBlock b x).moves = s.moves := rfl
@[simp] theorem State.setBlock_free (s : State) (b : Nat) (x : Block) : (s.setBlock b x).free = s.free := rfl
@[simp] theorem State.setBlock_ev (s : State) (b : Nat) (x : Block) : (s.setBlock b x).ev = s.ev := rfl
@[simp] theorem State.setBlock_cur (s : State) (b : Nat) (x : Block) : (s.setBlock b x).cur = s.cur := rfl

@[simp] theorem State.setCore_mem (s : State) (c : Nat) (x : Core) : (s.setCore c x).mem = s.mem := rfl
@[simp] theorem State.setCore_codeDirty (s : State) (c : Nat) (x : Core) : (s.setCore c x).codeDirty = s.codeDirty := rfl
@[simp] theorem State.setCore_warps (s : State) (c : Nat) (x : Core) : (s.setCore c x).warps = s.warps := rfl
@[simp] theorem State.setCore_blocks (s : State) (c : Nat) (x : Core) : (s.setCore c x).blocks = s.blocks := rfl
@[simp] theorem State.setCore_areas (s : State) (c : Nat) (x : Core) : (s.setCore c x).areas = s.areas := rfl
@[simp] theorem State.setCore_tlb2 (s : State) (c : Nat) (x : Core) : (s.setCore c x).tlb2 = s.tlb2 := rfl
@[simp] theorem State.setCore_grids (s : State) (c : Nat) (x : Core) : (s.setCore c x).grids = s.grids := rfl
@[simp] theorem State.setCore_queues (s : State) (c : Nat) (x : Core) : (s.setCore c x).queues = s.queues := rfl
@[simp] theorem State.setCore_seqs (s : State) (c : Nat) (x : Core) : (s.setCore c x).seqs = s.seqs := rfl
@[simp] theorem State.setCore_served (s : State) (c : Nat) (x : Core) : (s.setCore c x).served = s.served := rfl
@[simp] theorem State.setCore_graphs (s : State) (c : Nat) (x : Core) : (s.setCore c x).graphs = s.graphs := rfl
@[simp] theorem State.setCore_donations (s : State) (c : Nat) (x : Core) : (s.setCore c x).donations = s.donations := rfl
@[simp] theorem State.setCore_waitSince (s : State) (c : Nat) (x : Core) : (s.setCore c x).waitSince = s.waitSince := rfl
@[simp] theorem State.setCore_removing (s : State) (c : Nat) (x : Core) : (s.setCore c x).removing = s.removing := rfl
@[simp] theorem State.setCore_cmds (s : State) (c : Nat) (x : Core) : (s.setCore c x).cmds = s.cmds := rfl
@[simp] theorem State.setCore_lastPair (s : State) (c : Nat) (x : Core) : (s.setCore c x).lastPair = s.lastPair := rfl
@[simp] theorem State.setCore_pool (s : State) (c : Nat) (x : Core) : (s.setCore c x).pool = s.pool := rfl
@[simp] theorem State.setCore_poolPend (s : State) (c : Nat) (x : Core) : (s.setCore c x).poolPend = s.poolPend := rfl
@[simp] theorem State.setCore_rounds (s : State) (c : Nat) (x : Core) : (s.setCore c x).rounds = s.rounds := rfl
@[simp] theorem State.setCore_packets (s : State) (c : Nat) (x : Core) : (s.setCore c x).packets = s.packets := rfl
@[simp] theorem State.setCore_roundMsgs (s : State) (c : Nat) (x : Core) : (s.setCore c x).roundMsgs = s.roundMsgs := rfl
@[simp] theorem State.setCore_audit (s : State) (c : Nat) (x : Core) : (s.setCore c x).audit = s.audit := rfl
@[simp] theorem State.setCore_tok (s : State) (c : Nat) (x : Core) : (s.setCore c x).tok = s.tok := rfl
@[simp] theorem State.setCore_names (s : State) (c : Nat) (x : Core) : (s.setCore c x).names = s.names := rfl
@[simp] theorem State.setCore_ports (s : State) (c : Nat) (x : Core) : (s.setCore c x).ports = s.ports := rfl
@[simp] theorem State.setCore_harts (s : State) (c : Nat) (x : Core) : (s.setCore c x).harts = s.harts := rfl
@[simp] theorem State.setCore_links (s : State) (c : Nat) (x : Core) : (s.setCore c x).links = s.links := rfl
@[simp] theorem State.setCore_sys (s : State) (c : Nat) (x : Core) : (s.setCore c x).sys = s.sys := rfl
@[simp] theorem State.setCore_nextId (s : State) (c : Nat) (x : Core) : (s.setCore c x).nextId = s.nextId := rfl
@[simp] theorem State.setCore_agenda (s : State) (c : Nat) (x : Core) : (s.setCore c x).agenda = s.agenda := rfl
@[simp] theorem State.setCore_moves (s : State) (c : Nat) (x : Core) : (s.setCore c x).moves = s.moves := rfl
@[simp] theorem State.setCore_free (s : State) (c : Nat) (x : Core) : (s.setCore c x).free = s.free := rfl
@[simp] theorem State.setCore_ev (s : State) (c : Nat) (x : Core) : (s.setCore c x).ev = s.ev := rfl
@[simp] theorem State.setCore_cur (s : State) (c : Nat) (x : Core) : (s.setCore c x).cur = s.cur := rfl

@[simp] theorem State.setHart_mem (s : State) (h : Nat) (x : Hart) : (s.setHart h x).mem = s.mem := rfl
@[simp] theorem State.setHart_codeDirty (s : State) (h : Nat) (x : Hart) : (s.setHart h x).codeDirty = s.codeDirty := rfl
@[simp] theorem State.setHart_warps (s : State) (h : Nat) (x : Hart) : (s.setHart h x).warps = s.warps := rfl
@[simp] theorem State.setHart_blocks (s : State) (h : Nat) (x : Hart) : (s.setHart h x).blocks = s.blocks := rfl
@[simp] theorem State.setHart_areas (s : State) (h : Nat) (x : Hart) : (s.setHart h x).areas = s.areas := rfl
@[simp] theorem State.setHart_cores (s : State) (h : Nat) (x : Hart) : (s.setHart h x).cores = s.cores := rfl
@[simp] theorem State.setHart_tlb2 (s : State) (h : Nat) (x : Hart) : (s.setHart h x).tlb2 = s.tlb2 := rfl
@[simp] theorem State.setHart_grids (s : State) (h : Nat) (x : Hart) : (s.setHart h x).grids = s.grids := rfl
@[simp] theorem State.setHart_queues (s : State) (h : Nat) (x : Hart) : (s.setHart h x).queues = s.queues := rfl
@[simp] theorem State.setHart_seqs (s : State) (h : Nat) (x : Hart) : (s.setHart h x).seqs = s.seqs := rfl
@[simp] theorem State.setHart_served (s : State) (h : Nat) (x : Hart) : (s.setHart h x).served = s.served := rfl
@[simp] theorem State.setHart_graphs (s : State) (h : Nat) (x : Hart) : (s.setHart h x).graphs = s.graphs := rfl
@[simp] theorem State.setHart_donations (s : State) (h : Nat) (x : Hart) : (s.setHart h x).donations = s.donations := rfl
@[simp] theorem State.setHart_waitSince (s : State) (h : Nat) (x : Hart) : (s.setHart h x).waitSince = s.waitSince := rfl
@[simp] theorem State.setHart_removing (s : State) (h : Nat) (x : Hart) : (s.setHart h x).removing = s.removing := rfl
@[simp] theorem State.setHart_cmds (s : State) (h : Nat) (x : Hart) : (s.setHart h x).cmds = s.cmds := rfl
@[simp] theorem State.setHart_lastPair (s : State) (h : Nat) (x : Hart) : (s.setHart h x).lastPair = s.lastPair := rfl
@[simp] theorem State.setHart_pool (s : State) (h : Nat) (x : Hart) : (s.setHart h x).pool = s.pool := rfl
@[simp] theorem State.setHart_poolPend (s : State) (h : Nat) (x : Hart) : (s.setHart h x).poolPend = s.poolPend := rfl
@[simp] theorem State.setHart_rounds (s : State) (h : Nat) (x : Hart) : (s.setHart h x).rounds = s.rounds := rfl
@[simp] theorem State.setHart_packets (s : State) (h : Nat) (x : Hart) : (s.setHart h x).packets = s.packets := rfl
@[simp] theorem State.setHart_roundMsgs (s : State) (h : Nat) (x : Hart) : (s.setHart h x).roundMsgs = s.roundMsgs := rfl
@[simp] theorem State.setHart_audit (s : State) (h : Nat) (x : Hart) : (s.setHart h x).audit = s.audit := rfl
@[simp] theorem State.setHart_tok (s : State) (h : Nat) (x : Hart) : (s.setHart h x).tok = s.tok := rfl
@[simp] theorem State.setHart_names (s : State) (h : Nat) (x : Hart) : (s.setHart h x).names = s.names := rfl
@[simp] theorem State.setHart_ports (s : State) (h : Nat) (x : Hart) : (s.setHart h x).ports = s.ports := rfl
@[simp] theorem State.setHart_links (s : State) (h : Nat) (x : Hart) : (s.setHart h x).links = s.links := rfl
@[simp] theorem State.setHart_sys (s : State) (h : Nat) (x : Hart) : (s.setHart h x).sys = s.sys := rfl
@[simp] theorem State.setHart_nextId (s : State) (h : Nat) (x : Hart) : (s.setHart h x).nextId = s.nextId := rfl
@[simp] theorem State.setHart_agenda (s : State) (h : Nat) (x : Hart) : (s.setHart h x).agenda = s.agenda := rfl
@[simp] theorem State.setHart_moves (s : State) (h : Nat) (x : Hart) : (s.setHart h x).moves = s.moves := rfl
@[simp] theorem State.setHart_free (s : State) (h : Nat) (x : Hart) : (s.setHart h x).free = s.free := rfl
@[simp] theorem State.setHart_ev (s : State) (h : Nat) (x : Hart) : (s.setHart h x).ev = s.ev := rfl
@[simp] theorem State.setHart_cur (s : State) (h : Nat) (x : Hart) : (s.setHart h x).cur = s.cur := rfl

@[simp] theorem State.setPort_mem (s : State) (h : Nat) (x : NamePort) : (s.setPort h x).mem = s.mem := rfl
@[simp] theorem State.setPort_codeDirty (s : State) (h : Nat) (x : NamePort) : (s.setPort h x).codeDirty = s.codeDirty := rfl
@[simp] theorem State.setPort_warps (s : State) (h : Nat) (x : NamePort) : (s.setPort h x).warps = s.warps := rfl
@[simp] theorem State.setPort_blocks (s : State) (h : Nat) (x : NamePort) : (s.setPort h x).blocks = s.blocks := rfl
@[simp] theorem State.setPort_areas (s : State) (h : Nat) (x : NamePort) : (s.setPort h x).areas = s.areas := rfl
@[simp] theorem State.setPort_cores (s : State) (h : Nat) (x : NamePort) : (s.setPort h x).cores = s.cores := rfl
@[simp] theorem State.setPort_tlb2 (s : State) (h : Nat) (x : NamePort) : (s.setPort h x).tlb2 = s.tlb2 := rfl
@[simp] theorem State.setPort_grids (s : State) (h : Nat) (x : NamePort) : (s.setPort h x).grids = s.grids := rfl
@[simp] theorem State.setPort_queues (s : State) (h : Nat) (x : NamePort) : (s.setPort h x).queues = s.queues := rfl
@[simp] theorem State.setPort_seqs (s : State) (h : Nat) (x : NamePort) : (s.setPort h x).seqs = s.seqs := rfl
@[simp] theorem State.setPort_served (s : State) (h : Nat) (x : NamePort) : (s.setPort h x).served = s.served := rfl
@[simp] theorem State.setPort_graphs (s : State) (h : Nat) (x : NamePort) : (s.setPort h x).graphs = s.graphs := rfl
@[simp] theorem State.setPort_donations (s : State) (h : Nat) (x : NamePort) : (s.setPort h x).donations = s.donations := rfl
@[simp] theorem State.setPort_waitSince (s : State) (h : Nat) (x : NamePort) : (s.setPort h x).waitSince = s.waitSince := rfl
@[simp] theorem State.setPort_removing (s : State) (h : Nat) (x : NamePort) : (s.setPort h x).removing = s.removing := rfl
@[simp] theorem State.setPort_cmds (s : State) (h : Nat) (x : NamePort) : (s.setPort h x).cmds = s.cmds := rfl
@[simp] theorem State.setPort_lastPair (s : State) (h : Nat) (x : NamePort) : (s.setPort h x).lastPair = s.lastPair := rfl
@[simp] theorem State.setPort_pool (s : State) (h : Nat) (x : NamePort) : (s.setPort h x).pool = s.pool := rfl
@[simp] theorem State.setPort_poolPend (s : State) (h : Nat) (x : NamePort) : (s.setPort h x).poolPend = s.poolPend := rfl
@[simp] theorem State.setPort_rounds (s : State) (h : Nat) (x : NamePort) : (s.setPort h x).rounds = s.rounds := rfl
@[simp] theorem State.setPort_packets (s : State) (h : Nat) (x : NamePort) : (s.setPort h x).packets = s.packets := rfl
@[simp] theorem State.setPort_roundMsgs (s : State) (h : Nat) (x : NamePort) : (s.setPort h x).roundMsgs = s.roundMsgs := rfl
@[simp] theorem State.setPort_audit (s : State) (h : Nat) (x : NamePort) : (s.setPort h x).audit = s.audit := rfl
@[simp] theorem State.setPort_tok (s : State) (h : Nat) (x : NamePort) : (s.setPort h x).tok = s.tok := rfl
@[simp] theorem State.setPort_names (s : State) (h : Nat) (x : NamePort) : (s.setPort h x).names = s.names := rfl
@[simp] theorem State.setPort_harts (s : State) (h : Nat) (x : NamePort) : (s.setPort h x).harts = s.harts := rfl
@[simp] theorem State.setPort_links (s : State) (h : Nat) (x : NamePort) : (s.setPort h x).links = s.links := rfl
@[simp] theorem State.setPort_sys (s : State) (h : Nat) (x : NamePort) : (s.setPort h x).sys = s.sys := rfl
@[simp] theorem State.setPort_nextId (s : State) (h : Nat) (x : NamePort) : (s.setPort h x).nextId = s.nextId := rfl
@[simp] theorem State.setPort_agenda (s : State) (h : Nat) (x : NamePort) : (s.setPort h x).agenda = s.agenda := rfl
@[simp] theorem State.setPort_moves (s : State) (h : Nat) (x : NamePort) : (s.setPort h x).moves = s.moves := rfl
@[simp] theorem State.setPort_free (s : State) (h : Nat) (x : NamePort) : (s.setPort h x).free = s.free := rfl
@[simp] theorem State.setPort_ev (s : State) (h : Nat) (x : NamePort) : (s.setPort h x).ev = s.ev := rfl
@[simp] theorem State.setPort_cur (s : State) (h : Nat) (x : NamePort) : (s.setPort h x).cur = s.cur := rfl

@[simp] theorem State.setLink_mem (s : State) (l : Nat) (x : Link) : (s.setLink l x).mem = s.mem := rfl
@[simp] theorem State.setLink_codeDirty (s : State) (l : Nat) (x : Link) : (s.setLink l x).codeDirty = s.codeDirty := rfl
@[simp] theorem State.setLink_warps (s : State) (l : Nat) (x : Link) : (s.setLink l x).warps = s.warps := rfl
@[simp] theorem State.setLink_blocks (s : State) (l : Nat) (x : Link) : (s.setLink l x).blocks = s.blocks := rfl
@[simp] theorem State.setLink_areas (s : State) (l : Nat) (x : Link) : (s.setLink l x).areas = s.areas := rfl
@[simp] theorem State.setLink_cores (s : State) (l : Nat) (x : Link) : (s.setLink l x).cores = s.cores := rfl
@[simp] theorem State.setLink_tlb2 (s : State) (l : Nat) (x : Link) : (s.setLink l x).tlb2 = s.tlb2 := rfl
@[simp] theorem State.setLink_grids (s : State) (l : Nat) (x : Link) : (s.setLink l x).grids = s.grids := rfl
@[simp] theorem State.setLink_queues (s : State) (l : Nat) (x : Link) : (s.setLink l x).queues = s.queues := rfl
@[simp] theorem State.setLink_seqs (s : State) (l : Nat) (x : Link) : (s.setLink l x).seqs = s.seqs := rfl
@[simp] theorem State.setLink_served (s : State) (l : Nat) (x : Link) : (s.setLink l x).served = s.served := rfl
@[simp] theorem State.setLink_graphs (s : State) (l : Nat) (x : Link) : (s.setLink l x).graphs = s.graphs := rfl
@[simp] theorem State.setLink_donations (s : State) (l : Nat) (x : Link) : (s.setLink l x).donations = s.donations := rfl
@[simp] theorem State.setLink_waitSince (s : State) (l : Nat) (x : Link) : (s.setLink l x).waitSince = s.waitSince := rfl
@[simp] theorem State.setLink_removing (s : State) (l : Nat) (x : Link) : (s.setLink l x).removing = s.removing := rfl
@[simp] theorem State.setLink_cmds (s : State) (l : Nat) (x : Link) : (s.setLink l x).cmds = s.cmds := rfl
@[simp] theorem State.setLink_lastPair (s : State) (l : Nat) (x : Link) : (s.setLink l x).lastPair = s.lastPair := rfl
@[simp] theorem State.setLink_pool (s : State) (l : Nat) (x : Link) : (s.setLink l x).pool = s.pool := rfl
@[simp] theorem State.setLink_poolPend (s : State) (l : Nat) (x : Link) : (s.setLink l x).poolPend = s.poolPend := rfl
@[simp] theorem State.setLink_rounds (s : State) (l : Nat) (x : Link) : (s.setLink l x).rounds = s.rounds := rfl
@[simp] theorem State.setLink_packets (s : State) (l : Nat) (x : Link) : (s.setLink l x).packets = s.packets := rfl
@[simp] theorem State.setLink_roundMsgs (s : State) (l : Nat) (x : Link) : (s.setLink l x).roundMsgs = s.roundMsgs := rfl
@[simp] theorem State.setLink_audit (s : State) (l : Nat) (x : Link) : (s.setLink l x).audit = s.audit := rfl
@[simp] theorem State.setLink_tok (s : State) (l : Nat) (x : Link) : (s.setLink l x).tok = s.tok := rfl
@[simp] theorem State.setLink_names (s : State) (l : Nat) (x : Link) : (s.setLink l x).names = s.names := rfl
@[simp] theorem State.setLink_ports (s : State) (l : Nat) (x : Link) : (s.setLink l x).ports = s.ports := rfl
@[simp] theorem State.setLink_harts (s : State) (l : Nat) (x : Link) : (s.setLink l x).harts = s.harts := rfl
@[simp] theorem State.setLink_sys (s : State) (l : Nat) (x : Link) : (s.setLink l x).sys = s.sys := rfl
@[simp] theorem State.setLink_nextId (s : State) (l : Nat) (x : Link) : (s.setLink l x).nextId = s.nextId := rfl
@[simp] theorem State.setLink_agenda (s : State) (l : Nat) (x : Link) : (s.setLink l x).agenda = s.agenda := rfl
@[simp] theorem State.setLink_moves (s : State) (l : Nat) (x : Link) : (s.setLink l x).moves = s.moves := rfl
@[simp] theorem State.setLink_free (s : State) (l : Nat) (x : Link) : (s.setLink l x).free = s.free := rfl
@[simp] theorem State.setLink_ev (s : State) (l : Nat) (x : Link) : (s.setLink l x).ev = s.ev := rfl
@[simp] theorem State.setLink_cur (s : State) (l : Nat) (x : Link) : (s.setLink l x).cur = s.cur := rfl

@[simp] theorem State.setGrid_mem (s : State) (g : Nat) (x : Grid) : (s.setGrid g x).mem = s.mem := rfl
@[simp] theorem State.setGrid_codeDirty (s : State) (g : Nat) (x : Grid) : (s.setGrid g x).codeDirty = s.codeDirty := rfl
@[simp] theorem State.setGrid_warps (s : State) (g : Nat) (x : Grid) : (s.setGrid g x).warps = s.warps := rfl
@[simp] theorem State.setGrid_blocks (s : State) (g : Nat) (x : Grid) : (s.setGrid g x).blocks = s.blocks := rfl
@[simp] theorem State.setGrid_areas (s : State) (g : Nat) (x : Grid) : (s.setGrid g x).areas = s.areas := rfl
@[simp] theorem State.setGrid_cores (s : State) (g : Nat) (x : Grid) : (s.setGrid g x).cores = s.cores := rfl
@[simp] theorem State.setGrid_tlb2 (s : State) (g : Nat) (x : Grid) : (s.setGrid g x).tlb2 = s.tlb2 := rfl
@[simp] theorem State.setGrid_queues (s : State) (g : Nat) (x : Grid) : (s.setGrid g x).queues = s.queues := rfl
@[simp] theorem State.setGrid_seqs (s : State) (g : Nat) (x : Grid) : (s.setGrid g x).seqs = s.seqs := rfl
@[simp] theorem State.setGrid_served (s : State) (g : Nat) (x : Grid) : (s.setGrid g x).served = s.served := rfl
@[simp] theorem State.setGrid_graphs (s : State) (g : Nat) (x : Grid) : (s.setGrid g x).graphs = s.graphs := rfl
@[simp] theorem State.setGrid_donations (s : State) (g : Nat) (x : Grid) : (s.setGrid g x).donations = s.donations := rfl
@[simp] theorem State.setGrid_waitSince (s : State) (g : Nat) (x : Grid) : (s.setGrid g x).waitSince = s.waitSince := rfl
@[simp] theorem State.setGrid_removing (s : State) (g : Nat) (x : Grid) : (s.setGrid g x).removing = s.removing := rfl
@[simp] theorem State.setGrid_cmds (s : State) (g : Nat) (x : Grid) : (s.setGrid g x).cmds = s.cmds := rfl
@[simp] theorem State.setGrid_lastPair (s : State) (g : Nat) (x : Grid) : (s.setGrid g x).lastPair = s.lastPair := rfl
@[simp] theorem State.setGrid_pool (s : State) (g : Nat) (x : Grid) : (s.setGrid g x).pool = s.pool := rfl
@[simp] theorem State.setGrid_poolPend (s : State) (g : Nat) (x : Grid) : (s.setGrid g x).poolPend = s.poolPend := rfl
@[simp] theorem State.setGrid_rounds (s : State) (g : Nat) (x : Grid) : (s.setGrid g x).rounds = s.rounds := rfl
@[simp] theorem State.setGrid_packets (s : State) (g : Nat) (x : Grid) : (s.setGrid g x).packets = s.packets := rfl
@[simp] theorem State.setGrid_roundMsgs (s : State) (g : Nat) (x : Grid) : (s.setGrid g x).roundMsgs = s.roundMsgs := rfl
@[simp] theorem State.setGrid_audit (s : State) (g : Nat) (x : Grid) : (s.setGrid g x).audit = s.audit := rfl
@[simp] theorem State.setGrid_tok (s : State) (g : Nat) (x : Grid) : (s.setGrid g x).tok = s.tok := rfl
@[simp] theorem State.setGrid_names (s : State) (g : Nat) (x : Grid) : (s.setGrid g x).names = s.names := rfl
@[simp] theorem State.setGrid_ports (s : State) (g : Nat) (x : Grid) : (s.setGrid g x).ports = s.ports := rfl
@[simp] theorem State.setGrid_harts (s : State) (g : Nat) (x : Grid) : (s.setGrid g x).harts = s.harts := rfl
@[simp] theorem State.setGrid_links (s : State) (g : Nat) (x : Grid) : (s.setGrid g x).links = s.links := rfl
@[simp] theorem State.setGrid_sys (s : State) (g : Nat) (x : Grid) : (s.setGrid g x).sys = s.sys := rfl
@[simp] theorem State.setGrid_nextId (s : State) (g : Nat) (x : Grid) : (s.setGrid g x).nextId = s.nextId := rfl
@[simp] theorem State.setGrid_agenda (s : State) (g : Nat) (x : Grid) : (s.setGrid g x).agenda = s.agenda := rfl
@[simp] theorem State.setGrid_moves (s : State) (g : Nat) (x : Grid) : (s.setGrid g x).moves = s.moves := rfl
@[simp] theorem State.setGrid_free (s : State) (g : Nat) (x : Grid) : (s.setGrid g x).free = s.free := rfl
@[simp] theorem State.setGrid_ev (s : State) (g : Nat) (x : Grid) : (s.setGrid g x).ev = s.ev := rfl
@[simp] theorem State.setGrid_cur (s : State) (g : Nat) (x : Grid) : (s.setGrid g x).cur = s.cur := rfl

@[simp] theorem State.setGraph_mem (s : State) (g : Nat) (x : Graph) : (s.setGraph g x).mem = s.mem := rfl
@[simp] theorem State.setGraph_codeDirty (s : State) (g : Nat) (x : Graph) : (s.setGraph g x).codeDirty = s.codeDirty := rfl
@[simp] theorem State.setGraph_warps (s : State) (g : Nat) (x : Graph) : (s.setGraph g x).warps = s.warps := rfl
@[simp] theorem State.setGraph_blocks (s : State) (g : Nat) (x : Graph) : (s.setGraph g x).blocks = s.blocks := rfl
@[simp] theorem State.setGraph_areas (s : State) (g : Nat) (x : Graph) : (s.setGraph g x).areas = s.areas := rfl
@[simp] theorem State.setGraph_cores (s : State) (g : Nat) (x : Graph) : (s.setGraph g x).cores = s.cores := rfl
@[simp] theorem State.setGraph_tlb2 (s : State) (g : Nat) (x : Graph) : (s.setGraph g x).tlb2 = s.tlb2 := rfl
@[simp] theorem State.setGraph_grids (s : State) (g : Nat) (x : Graph) : (s.setGraph g x).grids = s.grids := rfl
@[simp] theorem State.setGraph_queues (s : State) (g : Nat) (x : Graph) : (s.setGraph g x).queues = s.queues := rfl
@[simp] theorem State.setGraph_seqs (s : State) (g : Nat) (x : Graph) : (s.setGraph g x).seqs = s.seqs := rfl
@[simp] theorem State.setGraph_served (s : State) (g : Nat) (x : Graph) : (s.setGraph g x).served = s.served := rfl
@[simp] theorem State.setGraph_donations (s : State) (g : Nat) (x : Graph) : (s.setGraph g x).donations = s.donations := rfl
@[simp] theorem State.setGraph_waitSince (s : State) (g : Nat) (x : Graph) : (s.setGraph g x).waitSince = s.waitSince := rfl
@[simp] theorem State.setGraph_removing (s : State) (g : Nat) (x : Graph) : (s.setGraph g x).removing = s.removing := rfl
@[simp] theorem State.setGraph_cmds (s : State) (g : Nat) (x : Graph) : (s.setGraph g x).cmds = s.cmds := rfl
@[simp] theorem State.setGraph_lastPair (s : State) (g : Nat) (x : Graph) : (s.setGraph g x).lastPair = s.lastPair := rfl
@[simp] theorem State.setGraph_pool (s : State) (g : Nat) (x : Graph) : (s.setGraph g x).pool = s.pool := rfl
@[simp] theorem State.setGraph_poolPend (s : State) (g : Nat) (x : Graph) : (s.setGraph g x).poolPend = s.poolPend := rfl
@[simp] theorem State.setGraph_rounds (s : State) (g : Nat) (x : Graph) : (s.setGraph g x).rounds = s.rounds := rfl
@[simp] theorem State.setGraph_packets (s : State) (g : Nat) (x : Graph) : (s.setGraph g x).packets = s.packets := rfl
@[simp] theorem State.setGraph_roundMsgs (s : State) (g : Nat) (x : Graph) : (s.setGraph g x).roundMsgs = s.roundMsgs := rfl
@[simp] theorem State.setGraph_audit (s : State) (g : Nat) (x : Graph) : (s.setGraph g x).audit = s.audit := rfl
@[simp] theorem State.setGraph_tok (s : State) (g : Nat) (x : Graph) : (s.setGraph g x).tok = s.tok := rfl
@[simp] theorem State.setGraph_names (s : State) (g : Nat) (x : Graph) : (s.setGraph g x).names = s.names := rfl
@[simp] theorem State.setGraph_ports (s : State) (g : Nat) (x : Graph) : (s.setGraph g x).ports = s.ports := rfl
@[simp] theorem State.setGraph_harts (s : State) (g : Nat) (x : Graph) : (s.setGraph g x).harts = s.harts := rfl
@[simp] theorem State.setGraph_links (s : State) (g : Nat) (x : Graph) : (s.setGraph g x).links = s.links := rfl
@[simp] theorem State.setGraph_sys (s : State) (g : Nat) (x : Graph) : (s.setGraph g x).sys = s.sys := rfl
@[simp] theorem State.setGraph_nextId (s : State) (g : Nat) (x : Graph) : (s.setGraph g x).nextId = s.nextId := rfl
@[simp] theorem State.setGraph_agenda (s : State) (g : Nat) (x : Graph) : (s.setGraph g x).agenda = s.agenda := rfl
@[simp] theorem State.setGraph_moves (s : State) (g : Nat) (x : Graph) : (s.setGraph g x).moves = s.moves := rfl
@[simp] theorem State.setGraph_free (s : State) (g : Nat) (x : Graph) : (s.setGraph g x).free = s.free := rfl
@[simp] theorem State.setGraph_ev (s : State) (g : Nat) (x : Graph) : (s.setGraph g x).ev = s.ev := rfl
@[simp] theorem State.setGraph_cur (s : State) (g : Nat) (x : Graph) : (s.setGraph g x).cur = s.cur := rfl

@[simp] theorem State.setCw_mem (s : State) (x : Warp) : (s.setCw x).mem = s.mem := rfl
@[simp] theorem State.setCw_codeDirty (s : State) (x : Warp) : (s.setCw x).codeDirty = s.codeDirty := rfl
@[simp] theorem State.setCw_blocks (s : State) (x : Warp) : (s.setCw x).blocks = s.blocks := rfl
@[simp] theorem State.setCw_areas (s : State) (x : Warp) : (s.setCw x).areas = s.areas := rfl
@[simp] theorem State.setCw_cores (s : State) (x : Warp) : (s.setCw x).cores = s.cores := rfl
@[simp] theorem State.setCw_tlb2 (s : State) (x : Warp) : (s.setCw x).tlb2 = s.tlb2 := rfl
@[simp] theorem State.setCw_grids (s : State) (x : Warp) : (s.setCw x).grids = s.grids := rfl
@[simp] theorem State.setCw_queues (s : State) (x : Warp) : (s.setCw x).queues = s.queues := rfl
@[simp] theorem State.setCw_seqs (s : State) (x : Warp) : (s.setCw x).seqs = s.seqs := rfl
@[simp] theorem State.setCw_served (s : State) (x : Warp) : (s.setCw x).served = s.served := rfl
@[simp] theorem State.setCw_graphs (s : State) (x : Warp) : (s.setCw x).graphs = s.graphs := rfl
@[simp] theorem State.setCw_donations (s : State) (x : Warp) : (s.setCw x).donations = s.donations := rfl
@[simp] theorem State.setCw_waitSince (s : State) (x : Warp) : (s.setCw x).waitSince = s.waitSince := rfl
@[simp] theorem State.setCw_removing (s : State) (x : Warp) : (s.setCw x).removing = s.removing := rfl
@[simp] theorem State.setCw_cmds (s : State) (x : Warp) : (s.setCw x).cmds = s.cmds := rfl
@[simp] theorem State.setCw_lastPair (s : State) (x : Warp) : (s.setCw x).lastPair = s.lastPair := rfl
@[simp] theorem State.setCw_pool (s : State) (x : Warp) : (s.setCw x).pool = s.pool := rfl
@[simp] theorem State.setCw_poolPend (s : State) (x : Warp) : (s.setCw x).poolPend = s.poolPend := rfl
@[simp] theorem State.setCw_rounds (s : State) (x : Warp) : (s.setCw x).rounds = s.rounds := rfl
@[simp] theorem State.setCw_packets (s : State) (x : Warp) : (s.setCw x).packets = s.packets := rfl
@[simp] theorem State.setCw_roundMsgs (s : State) (x : Warp) : (s.setCw x).roundMsgs = s.roundMsgs := rfl
@[simp] theorem State.setCw_audit (s : State) (x : Warp) : (s.setCw x).audit = s.audit := rfl
@[simp] theorem State.setCw_tok (s : State) (x : Warp) : (s.setCw x).tok = s.tok := rfl
@[simp] theorem State.setCw_names (s : State) (x : Warp) : (s.setCw x).names = s.names := rfl
@[simp] theorem State.setCw_ports (s : State) (x : Warp) : (s.setCw x).ports = s.ports := rfl
@[simp] theorem State.setCw_harts (s : State) (x : Warp) : (s.setCw x).harts = s.harts := rfl
@[simp] theorem State.setCw_links (s : State) (x : Warp) : (s.setCw x).links = s.links := rfl
@[simp] theorem State.setCw_sys (s : State) (x : Warp) : (s.setCw x).sys = s.sys := rfl
@[simp] theorem State.setCw_nextId (s : State) (x : Warp) : (s.setCw x).nextId = s.nextId := rfl
@[simp] theorem State.setCw_agenda (s : State) (x : Warp) : (s.setCw x).agenda = s.agenda := rfl
@[simp] theorem State.setCw_moves (s : State) (x : Warp) : (s.setCw x).moves = s.moves := rfl
@[simp] theorem State.setCw_free (s : State) (x : Warp) : (s.setCw x).free = s.free := rfl
@[simp] theorem State.setCw_ev (s : State) (x : Warp) : (s.setCw x).ev = s.ev := rfl
@[simp] theorem State.setCw_cur (s : State) (x : Warp) : (s.setCw x).cur = s.cur := rfl

@[simp] theorem State.setArch_mem (s : State) (a : WarpArch) : (s.setArch a).mem = s.mem := rfl
@[simp] theorem State.setArch_codeDirty (s : State) (a : WarpArch) : (s.setArch a).codeDirty = s.codeDirty := rfl
@[simp] theorem State.setArch_blocks (s : State) (a : WarpArch) : (s.setArch a).blocks = s.blocks := rfl
@[simp] theorem State.setArch_areas (s : State) (a : WarpArch) : (s.setArch a).areas = s.areas := rfl
@[simp] theorem State.setArch_cores (s : State) (a : WarpArch) : (s.setArch a).cores = s.cores := rfl
@[simp] theorem State.setArch_tlb2 (s : State) (a : WarpArch) : (s.setArch a).tlb2 = s.tlb2 := rfl
@[simp] theorem State.setArch_grids (s : State) (a : WarpArch) : (s.setArch a).grids = s.grids := rfl
@[simp] theorem State.setArch_queues (s : State) (a : WarpArch) : (s.setArch a).queues = s.queues := rfl
@[simp] theorem State.setArch_seqs (s : State) (a : WarpArch) : (s.setArch a).seqs = s.seqs := rfl
@[simp] theorem State.setArch_served (s : State) (a : WarpArch) : (s.setArch a).served = s.served := rfl
@[simp] theorem State.setArch_graphs (s : State) (a : WarpArch) : (s.setArch a).graphs = s.graphs := rfl
@[simp] theorem State.setArch_donations (s : State) (a : WarpArch) : (s.setArch a).donations = s.donations := rfl
@[simp] theorem State.setArch_waitSince (s : State) (a : WarpArch) : (s.setArch a).waitSince = s.waitSince := rfl
@[simp] theorem State.setArch_removing (s : State) (a : WarpArch) : (s.setArch a).removing = s.removing := rfl
@[simp] theorem State.setArch_cmds (s : State) (a : WarpArch) : (s.setArch a).cmds = s.cmds := rfl
@[simp] theorem State.setArch_lastPair (s : State) (a : WarpArch) : (s.setArch a).lastPair = s.lastPair := rfl
@[simp] theorem State.setArch_pool (s : State) (a : WarpArch) : (s.setArch a).pool = s.pool := rfl
@[simp] theorem State.setArch_poolPend (s : State) (a : WarpArch) : (s.setArch a).poolPend = s.poolPend := rfl
@[simp] theorem State.setArch_rounds (s : State) (a : WarpArch) : (s.setArch a).rounds = s.rounds := rfl
@[simp] theorem State.setArch_packets (s : State) (a : WarpArch) : (s.setArch a).packets = s.packets := rfl
@[simp] theorem State.setArch_roundMsgs (s : State) (a : WarpArch) : (s.setArch a).roundMsgs = s.roundMsgs := rfl
@[simp] theorem State.setArch_audit (s : State) (a : WarpArch) : (s.setArch a).audit = s.audit := rfl
@[simp] theorem State.setArch_tok (s : State) (a : WarpArch) : (s.setArch a).tok = s.tok := rfl
@[simp] theorem State.setArch_names (s : State) (a : WarpArch) : (s.setArch a).names = s.names := rfl
@[simp] theorem State.setArch_ports (s : State) (a : WarpArch) : (s.setArch a).ports = s.ports := rfl
@[simp] theorem State.setArch_harts (s : State) (a : WarpArch) : (s.setArch a).harts = s.harts := rfl
@[simp] theorem State.setArch_links (s : State) (a : WarpArch) : (s.setArch a).links = s.links := rfl
@[simp] theorem State.setArch_sys (s : State) (a : WarpArch) : (s.setArch a).sys = s.sys := rfl
@[simp] theorem State.setArch_nextId (s : State) (a : WarpArch) : (s.setArch a).nextId = s.nextId := rfl
@[simp] theorem State.setArch_agenda (s : State) (a : WarpArch) : (s.setArch a).agenda = s.agenda := rfl
@[simp] theorem State.setArch_moves (s : State) (a : WarpArch) : (s.setArch a).moves = s.moves := rfl
@[simp] theorem State.setArch_free (s : State) (a : WarpArch) : (s.setArch a).free = s.free := rfl
@[simp] theorem State.setArch_ev (s : State) (a : WarpArch) : (s.setArch a).ev = s.ev := rfl
@[simp] theorem State.setArch_cur (s : State) (a : WarpArch) : (s.setArch a).cur = s.cur := rfl

@[simp] theorem State.setSreg_mem (s : State) (r : Nat) (v : W64) : (s.setSreg r v).mem = s.mem := rfl
@[simp] theorem State.setSreg_codeDirty (s : State) (r : Nat) (v : W64) : (s.setSreg r v).codeDirty = s.codeDirty := rfl
@[simp] theorem State.setSreg_blocks (s : State) (r : Nat) (v : W64) : (s.setSreg r v).blocks = s.blocks := rfl
@[simp] theorem State.setSreg_areas (s : State) (r : Nat) (v : W64) : (s.setSreg r v).areas = s.areas := rfl
@[simp] theorem State.setSreg_cores (s : State) (r : Nat) (v : W64) : (s.setSreg r v).cores = s.cores := rfl
@[simp] theorem State.setSreg_tlb2 (s : State) (r : Nat) (v : W64) : (s.setSreg r v).tlb2 = s.tlb2 := rfl
@[simp] theorem State.setSreg_grids (s : State) (r : Nat) (v : W64) : (s.setSreg r v).grids = s.grids := rfl
@[simp] theorem State.setSreg_queues (s : State) (r : Nat) (v : W64) : (s.setSreg r v).queues = s.queues := rfl
@[simp] theorem State.setSreg_seqs (s : State) (r : Nat) (v : W64) : (s.setSreg r v).seqs = s.seqs := rfl
@[simp] theorem State.setSreg_served (s : State) (r : Nat) (v : W64) : (s.setSreg r v).served = s.served := rfl
@[simp] theorem State.setSreg_graphs (s : State) (r : Nat) (v : W64) : (s.setSreg r v).graphs = s.graphs := rfl
@[simp] theorem State.setSreg_donations (s : State) (r : Nat) (v : W64) : (s.setSreg r v).donations = s.donations := rfl
@[simp] theorem State.setSreg_waitSince (s : State) (r : Nat) (v : W64) : (s.setSreg r v).waitSince = s.waitSince := rfl
@[simp] theorem State.setSreg_removing (s : State) (r : Nat) (v : W64) : (s.setSreg r v).removing = s.removing := rfl
@[simp] theorem State.setSreg_cmds (s : State) (r : Nat) (v : W64) : (s.setSreg r v).cmds = s.cmds := rfl
@[simp] theorem State.setSreg_lastPair (s : State) (r : Nat) (v : W64) : (s.setSreg r v).lastPair = s.lastPair := rfl
@[simp] theorem State.setSreg_pool (s : State) (r : Nat) (v : W64) : (s.setSreg r v).pool = s.pool := rfl
@[simp] theorem State.setSreg_poolPend (s : State) (r : Nat) (v : W64) : (s.setSreg r v).poolPend = s.poolPend := rfl
@[simp] theorem State.setSreg_rounds (s : State) (r : Nat) (v : W64) : (s.setSreg r v).rounds = s.rounds := rfl
@[simp] theorem State.setSreg_packets (s : State) (r : Nat) (v : W64) : (s.setSreg r v).packets = s.packets := rfl
@[simp] theorem State.setSreg_roundMsgs (s : State) (r : Nat) (v : W64) : (s.setSreg r v).roundMsgs = s.roundMsgs := rfl
@[simp] theorem State.setSreg_audit (s : State) (r : Nat) (v : W64) : (s.setSreg r v).audit = s.audit := rfl
@[simp] theorem State.setSreg_tok (s : State) (r : Nat) (v : W64) : (s.setSreg r v).tok = s.tok := rfl
@[simp] theorem State.setSreg_names (s : State) (r : Nat) (v : W64) : (s.setSreg r v).names = s.names := rfl
@[simp] theorem State.setSreg_ports (s : State) (r : Nat) (v : W64) : (s.setSreg r v).ports = s.ports := rfl
@[simp] theorem State.setSreg_harts (s : State) (r : Nat) (v : W64) : (s.setSreg r v).harts = s.harts := rfl
@[simp] theorem State.setSreg_links (s : State) (r : Nat) (v : W64) : (s.setSreg r v).links = s.links := rfl
@[simp] theorem State.setSreg_sys (s : State) (r : Nat) (v : W64) : (s.setSreg r v).sys = s.sys := rfl
@[simp] theorem State.setSreg_nextId (s : State) (r : Nat) (v : W64) : (s.setSreg r v).nextId = s.nextId := rfl
@[simp] theorem State.setSreg_agenda (s : State) (r : Nat) (v : W64) : (s.setSreg r v).agenda = s.agenda := rfl
@[simp] theorem State.setSreg_moves (s : State) (r : Nat) (v : W64) : (s.setSreg r v).moves = s.moves := rfl
@[simp] theorem State.setSreg_free (s : State) (r : Nat) (v : W64) : (s.setSreg r v).free = s.free := rfl
@[simp] theorem State.setSreg_ev (s : State) (r : Nat) (v : W64) : (s.setSreg r v).ev = s.ev := rfl
@[simp] theorem State.setSreg_cur (s : State) (r : Nat) (v : W64) : (s.setSreg r v).cur = s.cur := rfl

@[simp] theorem State.setUnit_mem (s : State) (f : IUnit → IUnit) : (s.setUnit f).mem = s.mem := rfl
@[simp] theorem State.setUnit_codeDirty (s : State) (f : IUnit → IUnit) : (s.setUnit f).codeDirty = s.codeDirty := rfl
@[simp] theorem State.setUnit_blocks (s : State) (f : IUnit → IUnit) : (s.setUnit f).blocks = s.blocks := rfl
@[simp] theorem State.setUnit_areas (s : State) (f : IUnit → IUnit) : (s.setUnit f).areas = s.areas := rfl
@[simp] theorem State.setUnit_cores (s : State) (f : IUnit → IUnit) : (s.setUnit f).cores = s.cores := rfl
@[simp] theorem State.setUnit_tlb2 (s : State) (f : IUnit → IUnit) : (s.setUnit f).tlb2 = s.tlb2 := rfl
@[simp] theorem State.setUnit_grids (s : State) (f : IUnit → IUnit) : (s.setUnit f).grids = s.grids := rfl
@[simp] theorem State.setUnit_queues (s : State) (f : IUnit → IUnit) : (s.setUnit f).queues = s.queues := rfl
@[simp] theorem State.setUnit_seqs (s : State) (f : IUnit → IUnit) : (s.setUnit f).seqs = s.seqs := rfl
@[simp] theorem State.setUnit_served (s : State) (f : IUnit → IUnit) : (s.setUnit f).served = s.served := rfl
@[simp] theorem State.setUnit_graphs (s : State) (f : IUnit → IUnit) : (s.setUnit f).graphs = s.graphs := rfl
@[simp] theorem State.setUnit_donations (s : State) (f : IUnit → IUnit) : (s.setUnit f).donations = s.donations := rfl
@[simp] theorem State.setUnit_waitSince (s : State) (f : IUnit → IUnit) : (s.setUnit f).waitSince = s.waitSince := rfl
@[simp] theorem State.setUnit_removing (s : State) (f : IUnit → IUnit) : (s.setUnit f).removing = s.removing := rfl
@[simp] theorem State.setUnit_cmds (s : State) (f : IUnit → IUnit) : (s.setUnit f).cmds = s.cmds := rfl
@[simp] theorem State.setUnit_lastPair (s : State) (f : IUnit → IUnit) : (s.setUnit f).lastPair = s.lastPair := rfl
@[simp] theorem State.setUnit_pool (s : State) (f : IUnit → IUnit) : (s.setUnit f).pool = s.pool := rfl
@[simp] theorem State.setUnit_poolPend (s : State) (f : IUnit → IUnit) : (s.setUnit f).poolPend = s.poolPend := rfl
@[simp] theorem State.setUnit_rounds (s : State) (f : IUnit → IUnit) : (s.setUnit f).rounds = s.rounds := rfl
@[simp] theorem State.setUnit_packets (s : State) (f : IUnit → IUnit) : (s.setUnit f).packets = s.packets := rfl
@[simp] theorem State.setUnit_roundMsgs (s : State) (f : IUnit → IUnit) : (s.setUnit f).roundMsgs = s.roundMsgs := rfl
@[simp] theorem State.setUnit_audit (s : State) (f : IUnit → IUnit) : (s.setUnit f).audit = s.audit := rfl
@[simp] theorem State.setUnit_tok (s : State) (f : IUnit → IUnit) : (s.setUnit f).tok = s.tok := rfl
@[simp] theorem State.setUnit_names (s : State) (f : IUnit → IUnit) : (s.setUnit f).names = s.names := rfl
@[simp] theorem State.setUnit_ports (s : State) (f : IUnit → IUnit) : (s.setUnit f).ports = s.ports := rfl
@[simp] theorem State.setUnit_harts (s : State) (f : IUnit → IUnit) : (s.setUnit f).harts = s.harts := rfl
@[simp] theorem State.setUnit_links (s : State) (f : IUnit → IUnit) : (s.setUnit f).links = s.links := rfl
@[simp] theorem State.setUnit_sys (s : State) (f : IUnit → IUnit) : (s.setUnit f).sys = s.sys := rfl
@[simp] theorem State.setUnit_nextId (s : State) (f : IUnit → IUnit) : (s.setUnit f).nextId = s.nextId := rfl
@[simp] theorem State.setUnit_agenda (s : State) (f : IUnit → IUnit) : (s.setUnit f).agenda = s.agenda := rfl
@[simp] theorem State.setUnit_moves (s : State) (f : IUnit → IUnit) : (s.setUnit f).moves = s.moves := rfl
@[simp] theorem State.setUnit_free (s : State) (f : IUnit → IUnit) : (s.setUnit f).free = s.free := rfl
@[simp] theorem State.setUnit_ev (s : State) (f : IUnit → IUnit) : (s.setUnit f).ev = s.ev := rfl
@[simp] theorem State.setUnit_cur (s : State) (f : IUnit → IUnit) : (s.setUnit f).cur = s.cur := rfl

@[simp] theorem State.setStatus_mem (s : State) (x : IssueStatus) : (s.setStatus x).mem = s.mem := rfl
@[simp] theorem State.setStatus_codeDirty (s : State) (x : IssueStatus) : (s.setStatus x).codeDirty = s.codeDirty := rfl
@[simp] theorem State.setStatus_warps (s : State) (x : IssueStatus) : (s.setStatus x).warps = s.warps := rfl
@[simp] theorem State.setStatus_blocks (s : State) (x : IssueStatus) : (s.setStatus x).blocks = s.blocks := rfl
@[simp] theorem State.setStatus_areas (s : State) (x : IssueStatus) : (s.setStatus x).areas = s.areas := rfl
@[simp] theorem State.setStatus_cores (s : State) (x : IssueStatus) : (s.setStatus x).cores = s.cores := rfl
@[simp] theorem State.setStatus_tlb2 (s : State) (x : IssueStatus) : (s.setStatus x).tlb2 = s.tlb2 := rfl
@[simp] theorem State.setStatus_grids (s : State) (x : IssueStatus) : (s.setStatus x).grids = s.grids := rfl
@[simp] theorem State.setStatus_queues (s : State) (x : IssueStatus) : (s.setStatus x).queues = s.queues := rfl
@[simp] theorem State.setStatus_seqs (s : State) (x : IssueStatus) : (s.setStatus x).seqs = s.seqs := rfl
@[simp] theorem State.setStatus_served (s : State) (x : IssueStatus) : (s.setStatus x).served = s.served := rfl
@[simp] theorem State.setStatus_graphs (s : State) (x : IssueStatus) : (s.setStatus x).graphs = s.graphs := rfl
@[simp] theorem State.setStatus_donations (s : State) (x : IssueStatus) : (s.setStatus x).donations = s.donations := rfl
@[simp] theorem State.setStatus_waitSince (s : State) (x : IssueStatus) : (s.setStatus x).waitSince = s.waitSince := rfl
@[simp] theorem State.setStatus_removing (s : State) (x : IssueStatus) : (s.setStatus x).removing = s.removing := rfl
@[simp] theorem State.setStatus_cmds (s : State) (x : IssueStatus) : (s.setStatus x).cmds = s.cmds := rfl
@[simp] theorem State.setStatus_lastPair (s : State) (x : IssueStatus) : (s.setStatus x).lastPair = s.lastPair := rfl
@[simp] theorem State.setStatus_pool (s : State) (x : IssueStatus) : (s.setStatus x).pool = s.pool := rfl
@[simp] theorem State.setStatus_poolPend (s : State) (x : IssueStatus) : (s.setStatus x).poolPend = s.poolPend := rfl
@[simp] theorem State.setStatus_rounds (s : State) (x : IssueStatus) : (s.setStatus x).rounds = s.rounds := rfl
@[simp] theorem State.setStatus_packets (s : State) (x : IssueStatus) : (s.setStatus x).packets = s.packets := rfl
@[simp] theorem State.setStatus_roundMsgs (s : State) (x : IssueStatus) : (s.setStatus x).roundMsgs = s.roundMsgs := rfl
@[simp] theorem State.setStatus_audit (s : State) (x : IssueStatus) : (s.setStatus x).audit = s.audit := rfl
@[simp] theorem State.setStatus_tok (s : State) (x : IssueStatus) : (s.setStatus x).tok = s.tok := rfl
@[simp] theorem State.setStatus_names (s : State) (x : IssueStatus) : (s.setStatus x).names = s.names := rfl
@[simp] theorem State.setStatus_ports (s : State) (x : IssueStatus) : (s.setStatus x).ports = s.ports := rfl
@[simp] theorem State.setStatus_harts (s : State) (x : IssueStatus) : (s.setStatus x).harts = s.harts := rfl
@[simp] theorem State.setStatus_links (s : State) (x : IssueStatus) : (s.setStatus x).links = s.links := rfl
@[simp] theorem State.setStatus_sys (s : State) (x : IssueStatus) : (s.setStatus x).sys = s.sys := rfl
@[simp] theorem State.setStatus_nextId (s : State) (x : IssueStatus) : (s.setStatus x).nextId = s.nextId := rfl
@[simp] theorem State.setStatus_agenda (s : State) (x : IssueStatus) : (s.setStatus x).agenda = s.agenda := rfl
@[simp] theorem State.setStatus_moves (s : State) (x : IssueStatus) : (s.setStatus x).moves = s.moves := rfl
@[simp] theorem State.setStatus_free (s : State) (x : IssueStatus) : (s.setStatus x).free = s.free := rfl
@[simp] theorem State.setStatus_ev (s : State) (x : IssueStatus) : (s.setStatus x).ev = s.ev := rfl

/-! ### Reads after writes -/

theorem State.setWarp_warp (s : State) (w v : Nat) (x : Warp) : (s.setWarp w x).warp v = if v = w then x else s.warp v := by
  by_cases h : v = w <;> simp [State.warp, State.setWarp, Sparse.find_insert, h]

@[simp] theorem State.setWarp_warp_self (s : State) (w : Nat) (x : Warp) : (s.setWarp w x).warp w = x := by
  simp [State.setWarp_warp]

theorem State.setBlock_block (s : State) (b c : Nat) (x : Block) : (s.setBlock b x).block c = if c = b then x else s.block c := by
  by_cases h : c = b <;> simp [State.block, State.setBlock, Sparse.find_insert, h]

@[simp] theorem State.setBlock_block_self (s : State) (b : Nat) (x : Block) : (s.setBlock b x).block b = x := by
  simp [State.setBlock_block]

theorem State.setCore_core (s : State) (c d : Nat) (x : Core) : (s.setCore c x).core d = if d = c then x else s.core d := by
  simp [State.core, State.setCore, Sparse.get_set]

theorem State.setHart_hart (s : State) (h k : Nat) (x : Hart) : (s.setHart h x).hart k = if k = h then x else s.hart k := by
  simp [State.hart, State.setHart, Sparse.get_set]

theorem State.setPort_port (s : State) (h k : Nat) (x : NamePort) : (s.setPort h x).port k = if k = h then x else s.port k := by
  simp [State.port, State.setPort, Sparse.get_set]

theorem State.setLink_link (s : State) (l k : Nat) (x : Link) : (s.setLink l x).link k = if k = l then x else s.link k := by
  simp [State.link, State.setLink, Sparse.get_set]

@[simp] theorem State.setWarp_block (s : State) (w b : Nat) (x : Warp) : (s.setWarp w x).block b = s.block b := rfl

@[simp] theorem State.setCw_cw (s : State) (x : Warp) : (s.setCw x).cw = x := by simp [State.cw, State.setCw]

@[simp] theorem State.setArch_arch (s : State) (a : WarpArch) : (s.setArch a).arch = a := by simp [State.arch, State.setArch]

@[simp] theorem State.setArch_cw (s : State) (a : WarpArch) : (s.setArch a).cw = { s.cw with arch := a } := by
  simp [State.setArch]

@[simp] theorem State.setStatus_cw (s : State) (x : IssueStatus) : (s.setStatus x).cw = s.cw := rfl

@[simp] theorem State.setStatus_status (s : State) (x : IssueStatus) : (s.setStatus x).cur.status = x := rfl

end Sys2Proof.Machine
end

