-- ==== Sys2Proof/Laws/Ops.lean ====
section
/-! SUPPORT. What each shared register operation does: reads after writes of the register files, and the operations that
write one result a lane. -/

namespace Sys2Proof.Machine

/-! ### Lane masks -/

theorem mem_bitPositions (n k w l : Nat) : l ∈ bitPositions n k w ↔ k ≤ l ∧ l < k + n ∧ w.testBit (l - k) = true := by
  induction n generalizing k w with
  | zero => simp [bitPositions]; omega
  | succ n ih =>
    have key : l ∈ bitPositions (n + 1) k w ↔ (l = k ∧ w % 2 = 1) ∨ l ∈ bitPositions n (k + 1) (w / 2) := by
      rw [bitPositions]
      by_cases h : w % 2 = 1 <;> simp [h]
    rw [key, ih]
    by_cases hl : l = k
    · subst hl; simp [Nat.testBit_zero]
    · by_cases hk : k + 1 ≤ l
      · obtain ⟨j, rfl⟩ := Nat.exists_eq_add_of_le hk
        have h1 : k + 1 + j - k = j + 1 := by omega
        have h2 : k + 1 + j - (k + 1) = j := by omega
        rw [h1, h2, Nat.testBit_succ]
        simp only [hl, false_and, false_or]
        constructor <;> rintro ⟨a, b, c⟩ <;> exact ⟨by omega, by omega, c⟩
      · simp [hl]; omega

theorem mem_lanesOf (m : Lanes) (l : Nat) : l ∈ lanesOf m ↔ hasLane m l = true := by
  simp only [lanesOf, mem_bitPositions, hasLane, BitVec.testBit_toNat]
  constructor
  · intro h; simpa using h.2.2
  · intro h
    have := BitVec.lt_of_getLsbD h
    exact ⟨Nat.zero_le _, by omega, by simpa using h⟩

theorem hasLane_laneBit (l k : Nat) : hasLane (laneBit l) k = (decide (k < 64) && decide (l = k)) := by
  unfold hasLane laneBit
  rw [BitVec.getLsbD_ofNat, Nat.testBit_two_pow]

theorem hasLane_maskOf (ls : List Nat) (k : Nat) : hasLane (maskOf ls) k = (decide (k < 64) && decide (k ∈ ls)) := by
  induction ls with
  | nil => simp [maskOf, hasLane]
  | cons a ls ih =>
    have : hasLane (maskOf (a :: ls)) k = (hasLane (laneBit a) k || hasLane (maskOf ls) k) := by simp [maskOf, hasLane]
    rw [this, ih, hasLane_laneBit]
    by_cases h : k < 64 <;> by_cases h1 : a = k <;> simp [h, h1, Ne.symm]

theorem hasLane_filterLanes (m : Lanes) (p : Nat → Bool) (l : Nat) : hasLane (filterLanes m p) l = (hasLane m l && p l) := by
  rw [filterLanes, hasLane_maskOf]
  by_cases h : hasLane m l = true
  · have := BitVec.lt_of_getLsbD h
    simp [List.mem_filter, mem_lanesOf, h, this]
  · simp [List.mem_filter, mem_lanesOf, h]

/-! ### Register files -/

theorem WarpArch.getS_setS (a : WarpArch) (r k : Nat) (v : W64) : (a.setS r v).getS k = if k = r then v else a.getS k := by
  simp [WarpArch.getS, WarpArch.setS, Sparse.get_set]

theorem WarpArch.setV_dead (a : WarpArch) (r l : Nat) (v : W32) : (a.setV r l v).dead = a.dead := rfl

/-- Every field but the vector registers is kept by a vector write. -/
theorem WarpArch.setV_frame (a : WarpArch) (r l : Nat) (v : W32) : a.setV r l v = { a with vregs := (a.setV r l v).vregs } := rfl

theorem WarpArch.setV_find (a : WarpArch) (r l k : Nat) (v : W32) :
    Sparse.find (a.setV r l v).vregs k
      = if k = 64 * r + l then (if v = 0 ∧ a.dead.getLsbD (64 * (r / 32) + l) = false then none else some v)
        else Sparse.find a.vregs k := by
  unfold WarpArch.setV
  by_cases hv : v = 0 ∧ a.dead.getLsbD (64 * (r / 32) + l) = false
  · by_cases hk : k = 64 * r + l <;> simp only [hv, hk, and_self, if_true, if_false, Sparse.find_erase]
  · by_cases hk : k = 64 * r + l <;> simp only [hv, hk, if_true, if_false, Sparse.find_insert]

/-- A vector register after a write, for lanes of a warp. -/
theorem WarpArch.getV_setV_lane (a : WarpArch) (free r l k j : Nat) (v : W32) (hl : l < 64) (hj : j < 64) :
    (a.setV r l v).getV free k j = if k = r ∧ j = l then v else a.getV free k j := by
  unfold getV
  simp only [setV_find, setV_dead]
  by_cases h : k = r ∧ j = l
  · obtain ⟨rfl, rfl⟩ := h
    by_cases hv : v = 0 ∧ a.dead.getLsbD (64 * (k / 32) + j) = false
    · simp [hv.1, hv.2]
    · simp only [hv, if_false, if_true, and_self]
  · have hk : ¬ 64 * k + j = 64 * r + l := by omega
    simp only [hk, h, if_false]
    rfl

/-- p0 reads 1; a write reaches the lanes of its mask, and nothing in p0 (R19). -/
theorem WarpArch.hasLane_getP_setP (a : WarpArch) (k j : Nat) (mask v : Lanes) (l : Nat) :
    hasLane ((a.setP k mask v).getP j) l
      = if j = k ∧ k ≠ 0 ∧ hasLane mask l = true then hasLane v l else hasLane (a.getP j) l := by
  unfold WarpArch.setP
  by_cases hk : k = 0
  · simp [hk]
  · by_cases hj : j = k
    · subst hj
      by_cases hm : hasLane mask l = true
      · have h64 := BitVec.lt_of_getLsbD hm
        simp_all [WarpArch.getP, Sparse.get_set, hasLane]
      · by_cases h64 : l < 64
        · simp_all [WarpArch.getP, Sparse.get_set, hasLane]
        · have h1 : ∀ x : Lanes, hasLane x l = false := fun x => BitVec.getLsbD_of_ge x l (by omega)
          simp [h1]
    · by_cases h0 : j = 0
      · subst h0; simp [WarpArch.getP, hj]
      · simp [WarpArch.getP, Sparse.get_set, hj, hk, h0]

theorem WarpArch.setP_frame (a : WarpArch) (k : Nat) (mask v : Lanes) :
    a.setP k mask v = { a with preds := (a.setP k mask v).preds } := by
  unfold WarpArch.setP; split <;> rfl

theorem WarpArch.getAcc_setAcc (a : WarpArch) (t row col u r c : Nat) (v : W32) :
    (a.setAcc t row col v).getAcc u r c
      = if 4096 * u + 64 * r + c = 4096 * t + 64 * row + col then v else a.getAcc u r c := by
  unfold WarpArch.getAcc WarpArch.setAcc
  simp only [accKey]
  by_cases hv : v = 0 ∧ hasLane a.unborn (accLane (4096 * t + 64 * row + col)) = false
  · by_cases h : 4096 * u + 64 * r + c = 4096 * t + 64 * row + col
    · simp [h, hv.1, hv.2, Sparse.find_erase]
    · simp only [hv, if_true, and_self, Sparse.find_erase, h, if_false]
  · by_cases h : 4096 * u + 64 * r + c = 4096 * t + 64 * row + col
    · simp only [h, hv, if_false, Sparse.find_insert, if_true]
    · simp only [h, hv, if_false, Sparse.find_insert]

/-! ### Runs of writes -/

theorem WarpArch.setVs_frame (a : WarpArch) (ws : List (Nat × Nat × W32)) :
    a.setVs ws = { a with vregs := (a.setVs ws).vregs } := by
  induction ws generalizing a with
  | nil => rfl
  | cons e ws ih =>
    obtain ⟨r, l, v⟩ := e
    have h1 : a.setVs ((r, l, v) :: ws) = (a.setV r l v).setVs ws := rfl
    rw [h1, ih]
    rfl

theorem WarpArch.setVs_append (a : WarpArch) (xs ys : List (Nat × Nat × W32)) : a.setVs (xs ++ ys) = (a.setVs xs).setVs ys := by
  induction xs generalizing a with
  | nil => rfl
  | cons e xs ih => obtain ⟨r, l, v⟩ := e; exact ih _

/-- One result a lane in register `d`: the lanes listed read their result, every other register and lane is kept. -/
theorem WarpArch.getV_setVs_lanes (a : WarpArch) (free d k j : Nat) (ls : List Nat) (f : Nat → W32)
    (hls : ∀ l ∈ ls, l < 64) (hj : j < 64) :
    (a.setVs (ls.map (fun l => (d, l, f l)))).getV free k j = if k = d ∧ j ∈ ls then f j else a.getV free k j := by
  induction ls generalizing a with
  | nil => simp [setVs]
  | cons x xs ih =>
    have hx : x < 64 := hls x (by simp)
    have := ih (a.setV d x (f x)) (fun l hl => hls l (by simp [hl]))
    simp only [List.map_cons, setVs]
    rw [this, getV_setV_lane _ _ _ _ _ _ _ hx hj]
    by_cases h1 : k = d <;> by_cases h2 : j = x <;> by_cases h3 : j ∈ xs <;> simp_all

theorem WarpArch.orNstat_frame (a : WarpArch) (f : NumFlags) : a.orNstat f = { a with nstat := a.nstat ||| f.setWidth 64 } := rfl

@[simp] theorem WarpArch.orNstat_getV (a : WarpArch) (f : NumFlags) (free r l : Nat) : (a.orNstat f).getV free r l = a.getV free r l := rfl

theorem lanesOf_lt (m : Lanes) (l : Nat) (h : l ∈ lanesOf m) : l < 64 :=
  BitVec.lt_of_getLsbD ((mem_lanesOf m l).1 h)

/-- A vector register after one result a lane. -/
theorem State.mapLanes_vreg (s : State) (d r l : Nat) (f : Nat → Nat × NumFlags) (hl : l < 64) :
    (s.mapLanes d f).vreg r l = if r = d ∧ hasLane s.written l = true then BitVec.ofNat 32 (f l).1 else s.vreg r l := by
  simp only [State.vreg, State.mapLanes, State.setArch_arch, State.setArch_free, WarpArch.orNstat_getV, List.map_map]
  have := WarpArch.getV_setVs_lanes s.arch s.free d r l (lanesOf s.written) (fun l => BitVec.ofNat 32 (f l).1)
    (fun k hk => lanesOf_lt _ _ hk) hl
  simp only [mem_lanesOf] at this
  exact this

/-- What one result a lane leaves: everything but the register's lanes and NSTAT, which only gains the lanes' flags. -/
theorem State.mapLanes_arch (s : State) (d : Nat) (f : Nat → Nat × NumFlags) :
    (s.mapLanes d f).arch = { s.arch with
      vregs := (s.mapLanes d f).arch.vregs
      nstat := s.arch.nstat ||| ((lanesOf s.written).foldl (fun acc l => acc ||| (f l).2) (0 : NumFlags)).setWidth 64 } := by
  simp only [State.mapLanes, State.setArch_arch, WarpArch.orNstat, List.foldl_map]
  rw [WarpArch.setVs_frame]

/-- A scalar result. -/
theorem scalarTo_next (s : State) (d : BitVec 6) (v : State → W64) (h : s.scalarOn = true) :
    scalarTo s d v = .next (s.setSreg d.toNat (v s)) := by simp [scalarTo, scalarDo, h]

theorem scalarTo_off (s : State) (d : BitVec 6) (v : State → W64) (h : s.scalarOn = false) : scalarTo s d v = .next s := by
  simp [scalarTo, scalarDo, h]

theorem State.setSreg_sreg (s : State) (r k : Nat) (v : W64) : (s.setSreg r v).sreg k = if k = r then v else s.sreg k := by
  simp [State.sreg, State.setSreg, WarpArch.getS_setS]

/-- A predicate after one result a lane. -/
theorem State.mapPred_pred (s : State) (p k l : Nat) (f : Nat → Bool) :
    hasLane ((s.mapPred p f).pred k) l
      = if k = p ∧ p ≠ 0 ∧ hasLane s.written l = true then f l else hasLane (s.pred k) l := by
  simp only [State.pred, State.mapPred, State.setArch_arch, WarpArch.hasLane_getP_setP, hasLane_filterLanes]
  by_cases h : k = p ∧ p ≠ 0 ∧ hasLane s.written l = true <;> simp [h]

end Sys2Proof.Machine
end

