-- ==== Sys2Proof/Laws/Traps.lean ====
section
/-! SUPPORT. What holding a unit, writing a record and taking a trap do, each said once. -/

namespace Sys2Proof.Machine

/-- A held unit: its hold and the issue's status change, nothing else. -/
theorem State.hold_eq (s : State) (h : Hold) :
    s.hold h = { s.setWarp s.cur.w (s.cw.setUnit s.cur.u (fun u => { u with hold := h })) with cur := { s.cur with status := .wait } } := rfl

/-- A record changes the black box, its head and the pending sources alone. -/
theorem recordEvent_frame (s : State) (type sev : Nat) (src : BitVec 13) (ctx : Option (BitVec 12)) (addr detail : W64) :
    recordEvent s type sev src ctx addr detail
      = { s with sys := { s.sys with box := (recordEvent s type sev src ctx addr detail).sys.box, boxHead := s.sys.boxHead + 1,
                                     pending := (recordEvent s type sev src ctx addr detail).sys.pending } } := rfl

/-- Where a removal is not under way it is noted, and nothing else changes. -/
theorem startRemoval_frame (s : State) (ctx : BitVec 12) :
    startRemoval s ctx = { s with removing := (startRemoval s ctx).removing } := by
  unfold startRemoval
  split <;> rfl

/-- The context's removal has started. -/
theorem startRemoval_mem (s : State) (ctx : BitVec 12) : ∃ p, (ctx, p) ∈ (startRemoval s ctx).removing := by
  unfold startRemoval
  split
  · rename_i h
    obtain ⟨e, he, hc⟩ := List.any_eq_true.mp h
    exact ⟨e.2, by rw [← eq_of_beq hc]; exact he⟩
  · exact ⟨_, List.mem_append_right _ (List.mem_singleton.mpr rfl)⟩

/-- A trap of a unit below trap level whose handler's header can be entered: the frame is written, the unit stands at the handler at
trap level, one record is made, and every other piece of state is as it was but for the groups the header makes undefined. -/
theorem takeTrap_enters {s : State} {w u : Nat} {t : TrapInfo} {entry : Nat} {h : Header}
    (h0 : ((s.warp w).unit u).trap = none) (h1 : (s.block (s.warp w).blk).handler = some entry)
    (h2 : headerAt s (s.warp w).ctx entry = .ok h) :
    takeTrap s w u t =
      let x := s.warp w
      let v := x.unit u
      let a := (x.arch.applyLive h v.lanes).noteLive h v.lanes
      wantLive ((recordEvent s 1 0 (coreAgent s x.core) (some x.ctx) (makeFrame v t).fpc (BitVec.ofNat 64 (t.vec * 2 ^ 56 + t.cause * 2 ^ 48))).setWarp w
        { x with arch := { a with units := modAt a.units u (fun q =>
          { q with pos := { hdr := entry, idx := 0, head := h, inst := 0 }, alsoIn := [], hold := headerHold a h, skip := false, xfer := none,
                   fenced := false, issued := false, fe := 0, wake := none, passed := false, latch := [], arms := none,
                   entering := false, jumped := false,
                   trap := some (makeFrame v t), more := [], trapOrder := s.moves }) } }) w h v.lanes := by
  simp only [takeTrap, h0, h1, h2, Option.isSome_none, Bool.false_eq_true, if_false]

/-- A trap at trap level, or without a handler that can be entered, starts the removal of the context; memory, blocks and the
registers stay. -/
theorem takeTrap_ends {s : State} {w u : Nat} {t : TrapInfo}
    (h : ((s.warp w).unit u).trap.isSome = true ∨ (s.block (s.warp w).blk).handler = none) :
    (∃ p, ((s.warp w).ctx, p) ∈ (takeTrap s w u t).removing) ∧ (takeTrap s w u t).mem = s.mem ∧ (takeTrap s w u t).blocks = s.blocks := by
  unfold takeTrap
  by_cases ht : ((s.warp w).unit u).trap.isSome = true
  · simp only [ht, if_true]
    refine ⟨startRemoval_mem _ _, ?_, ?_⟩ <;> rw [startRemoval_frame] <;> rfl
  · have hn := h.resolve_left ht
    simp only [ht, hn, if_false, Bool.false_eq_true]
    refine ⟨startRemoval_mem _ _, ?_, ?_⟩ <;> rw [startRemoval_frame] <;> rfl

/-- TRET's resumption: the unit stands where the frame says, below trap level, with its lanes and key. -/
theorem IUnit.resume_eq (v : IUnit) (f : TrapFrame) :
    (v.resume f).trap = none ∧ (v.resume f).pos = f.pos ∧ (v.resume f).lanes = v.lanes ∧ (v.resume f).key = v.key
      ∧ (v.resume f).skip = f.skips ∧ (v.resume f).hold = .none := ⟨rfl, rfl, rfl, rfl, rfl, rfl⟩

end Sys2Proof.Machine
end

