-- ==== Sys2Proof/Tests/Slice0.lean ====
section
/-! SUPPORT. Tests: ill-formed terms refused, words written out bit by bit from the encoding tables, single steps, and for
every statement with hypotheses a state that meets them. -/

namespace Sys2Proof.Tests

open Sys2Proof Sys2Proof.Machine Sys2Proof.Claim

set_option maxRecDepth 100000
set_option Elab.async false

/-! ### A small state -/

/-- A descriptor of context 1, two table entries that map its first GiB one to one, and at 0x30000 a block of one bundle
followed by another header. -/
def smallMem : List Host.Cell :=
  [(0x20, 1), (0x22, 1), (0x28, 1), (0x10000, 1), (0x10002, 2), (0x20000, 0x1F), (0x30001, 0xFE), (0x30002, 1), (0x30004, 0xFE),
   (0x30005, 1), (0x30006, 0x20), (0x30007, 0xF8), (0x30011, 0xFE), (0x30012, 1), (0x30014, 0xFE), (0x30015, 1), (0x30016, 0x20),
   (0x30017, 0xF8)]

/-- The header of that block. -/
def head1 : Header := ⟨1, 0, 15, 15, 0, 255, 0, false, false, false⟩

/-- A warp of block 1 whose live lanes 0 to 7 stand at it. -/
def warp1 : Warp := { blk := 1, ctx := 1, arch := { live := 255, units := [{ lanes := 255, pos := ⟨0x30000, 0, head1, 0⟩ }] } }

/-- A service-span state with that warp as number 16 of context 1, and an issue of its only unit under way in lanes 0 to 7. -/
def small : State :=
  { State.reset with
    mem := smallMem
    warps := [(16, warp1)]
    blocks := [(1, { ctx := 1, code := 0x30000, spAlloc := 65536 })]
    sys := { span := .service, factory := [] }
    cur := { w := 16, u := 0, lanes := 255, guard := 255, slotVec := true, last := true } }

/-- The small state with its warp changed. -/
def smallWarp (f : Warp → Warp) : State := small.setWarp 16 (f warp1)

/-- The small state with the warp's register state changed. -/
def smallArch (f : WarpArch → WarpArch) : State := smallWarp (fun x => { x with arch := f x.arch })

/-- Block 1 is a cluster of one, and scalar register 4 holds the address of its scratchpad's last word. -/
def inBlock : State := { smallArch (fun a => a.setS 4 65532) with
  blocks := [(1, { ctx := 1, code := 0x30000, spAlloc := 65536, cluster := [1] })] }

/-- Scalar register 4 holds an odd address, and the block names a trap handler. -/
def odd : State := { smallArch (fun a => a.setS 4 1) with
  blocks := [(1, { ctx := 1, code := 0x30000, spAlloc := 65536, handler := some 0x30000 })] }

/-- Scalar register 4 holds an address of no mapped page, in a context with REPLAY. -/
def far : State := { smallArch (fun a => a.setS 4 (BitVec.ofNat 64 (2 ^ 30))) with mem := writeByte small.mem 0x20 3 }

/-! ### Registers -/

theorem witness_scalar_results : scalarResult (.sadd 1 2 3) ≠ none ∧ small.scalarOn = true
    ∧ ({ small with cur := { small.cur with guard := 0, gscope := true } } : State).scalarOn = false := by
  refine ⟨by simp [scalarResult], by decide, by decide⟩

theorem witness_vector_results : (Instr.vadd ⟨1, 2, 3, 2⟩).WellFormed ∧ vectorResult (.vadd ⟨1, 2, 3, 2⟩) ≠ none := by
  refine ⟨by decide, by simp [vectorResult]⟩

theorem witness_predicate_results : (Instr.vcmp ⟨7, 14, 2, 3, 0⟩).WellFormed ∧ predResult (.vcmp ⟨7, 14, 2, 3, 0⟩) ≠ none := by
  refine ⟨by decide, by simp [predResult]⟩

theorem witness_float_results : (Instr.vfma ⟨255, 2, 3, 3⟩).WellFormed ∧ floatResult (.vfma ⟨255, 2, 3, 3⟩) ≠ none := by
  refine ⟨by decide, by simp [floatResult]⟩

theorem witness_special_registers : (Instr.sgets 63 32).WellFormed ∧ (Instr.vgets 255 7).WellFormed ∧ small.scalarOn = true := by
  decide

theorem witness_conversions : (Instr.vcvt 10 3 ⟨8, 6, 0, true, true⟩).WellFormed ∧ (Instr.vfcvt 10 3 ⟨0, 6, 3, false, false⟩).WellFormed
    ∧ (Instr.vpack 254 4 2 63).WellFormed ∧ (Instr.vunpk 4 254 2 30).WellFormed := by decide

theorem lanes_all {m : Lanes} {P : Nat → Prop} (h : ∀ l ∈ lanesOf m, P l) : ∀ l, hasLane m l = true → P l :=
  fun l hl => h l ((mem_lanesOf m l).2 hl)

theorem witness_cross_lane : ProperIssue small ∧ (Instr.vqxch 1 2 6 none).WellFormed ∧ sourceLane (.vqxch 1 2 6 none) ≠ none
    ∧ (Instr.vvote 3 1 14 true (some 8)).WellFormed ∧ (Instr.vballot 254 8 14 true).WellFormed
    ∧ (Instr.vwred 1 2 8 12 true).WellFormed := by
  refine ⟨⟨by decide, by decide +kernel, by decide, by decide, lanes_all (by decide)⟩, by decide, by simp [sourceLane], by decide⟩

/-! ### Accesses as a slot hands them out -/

theorem witness_global_issue : ∃ f, globalForm (.vld ⟨3, 5, 4, 2, 0⟩ none) = some f ∧ f.ready small ∧ small.cur.status = .ok
    ∧ verdict (f.placed small).1 = .pass ∧ small.cur.guard ≠ 0 ∧ pathCount small.cw f.path < 63 ∧ f.dest ≠ none := by
  refine ⟨_, rfl, ?_⟩
  unfold AccessForm.ready
  decide +kernel

theorem witness_global_store_issue : ∃ f, globalForm (.vst ⟨3, 5, 4, 2, 0⟩ none) = some f ∧ f.ready small
    ∧ verdict (f.placed small).1 = .pass ∧ f.dest = none ∧ touchedFull (f.placed small).2
        (partsFrom (f.placed small).1 (fun l => laneData small f.data f.size l) (fun l => laneData small f.expect f.size l)) = false := by
  refine ⟨_, rfl, ?_⟩
  unfold AccessForm.ready
  decide +kernel

theorem witness_no_lane_issue : ∃ f, globalForm (.vst ⟨3, 5, 4, 2, 0⟩ none) = some f
    ∧ f.ready ({ small with cur := { small.cur with guard := 0 } } : State)
    ∧ verdict (f.placed ({ small with cur := { small.cur with guard := 0 } } : State)).1 = .pass := by
  refine ⟨_, rfl, ?_⟩
  unfold AccessForm.ready
  decide +kernel

/-- No selected lane, and lanes 8 and 9 help: lane 8's address is in the window, lane 9's is in a hole. -/
def helping : State :=
  let s := smallArch (fun a => a.setV 5 9 (2 ^ 30))
  { s with cur := { s.cur with guard := 0, helpers := 0x300 } }

theorem witness_helpers_issue : ∃ f, globalForm (.vld ⟨3, 5, 4, 2, 0⟩ none) = some f ∧ f.ready helping ∧ verdict (f.placed helping).1 = .pass
    ∧ helping.cur.guard = 0 ∧ f.kind = .load ∧ f.dest ≠ none
    ∧ (f.placed helping).1.any (fun q => q.1.lane == 8 && match q.2 with | .ok _ _ => true | _ => false) = true
    ∧ (f.placed helping).1.any (fun q => q.1.lane == 9 && match q.2 with | .ok _ _ => false | _ => true) = true := by
  refine ⟨_, rfl, ?_⟩
  unfold AccessForm.ready
  decide +kernel

theorem witness_scratch_issue : ∃ f, scratchForm (.vsts ⟨3, 5, 4, 3, 3⟩ none) = some (f, false) ∧ f.ready small
    ∧ verdict (scratchPlaced small false (f.pieces small)) = .pass ∧ pathCount small.cw 0 < 63 ∧ pathCount small.cw 1 < 63 := by
  refine ⟨_, rfl, ?_⟩
  unfold AccessForm.ready
  decide +kernel

theorem witness_scalar_access : small.scalarOn = true ∧ verdict (placeGlobal small .store 8 [⟨64, 0, 0, 8, false⟩]).1 = .pass
    ∧ pathCount small.cw 2 < 63 ∧ small.unit.fe = 0 ∧ touchedFull (placeGlobal small .store 8 [⟨64, 0, 0, 8, false⟩]).2
        (partsFrom (placeGlobal small .store 8 [⟨64, 0, 0, 8, false⟩]).1 (fun _ => leSplit 8 (small.sreg 0).toNat) (fun _ => [])) = false := by
  decide +kernel

theorem witness_full_empty_issue : (Instr.vldf ⟨3, 5, 4, 2, 0⟩ none).WellFormed ∧ (Instr.vste ⟨3, 5, 4, 2, 0⟩ none).WellFormed
    ∧ (∀ load x, x ∈ [none, some ⟨1, 2, 0⟩] → (feForm load ⟨3, 5, 4, 2, 0⟩ x).fresh inBlock)
    ∧ inBlock.cur.guard ≠ 0 ∧ verdict (scratchPlaced inBlock true ((feForm true ⟨3, 5, 4, 2, 0⟩ none).pieces inBlock)) = .pass
    ∧ inBlock.cur.u < inBlock.arch.units.length := by
  unfold AccessForm.fresh
  decide +kernel

/-- The unit has handed its access out, some of its lanes still wait where `fe` says so, and its fence is over where `fenced` says so. -/
def issuedOut (fe : Lanes) (fenced : Bool) : State :=
  smallArch (fun a => { a with units := a.units.map (fun v => { v with issued := true, fe := fe, fenced := fenced }) })

theorem witness_full_empty_waits_on : (issuedOut 3 false).unit.issued = true ∧ (issuedOut 3 false).unit.fe ≠ 0
    ∧ (issuedOut 0 false).unit.fe = 0 ∧ (issuedOut 0 false).unit.fenced = false ∧ (issuedOut 0 true).unit.fenced = true
    ∧ (feForm true ⟨3, 5, 4, 2, 0⟩ (some ⟨1, 2, 0⟩)).order = 1 ∧ (feForm false ⟨3, 5, 4, 2, 0⟩ (some ⟨2, 2, 0⟩)).order = 2 := by
  decide +kernel

theorem witness_joined_fences : (∃ f, globalForm (.vld ⟨3, 5, 4, 2, 0⟩ (some ⟨1, 2, 16⟩)) = some f ∧ f.order = 1)
    ∧ (∃ f, globalForm (.vst ⟨3, 5, 4, 2, 0⟩ (some ⟨2, 4, 0⟩)) = some f ∧ f.order = 2)
    ∧ small.cur.u < small.arch.units.length ∧ small.unit.fenced = false ∧ small.unit.issued = false
    ∧ (smallArch (fun a => { a with units := a.units.map (fun v => { v with issued := true, fenced := true }) })).unit.fenced = true := by
  refine ⟨⟨_, rfl, rfl⟩, ⟨_, rfl, rfl⟩, by decide⟩

theorem witness_acquire_hands_out :
    (∃ f, globalForm (.vld ⟨3, 5, 4, 2, 0⟩ (some ⟨1, 2, 0⟩)) = some f ∧ f.order = 1 ∧ f.fresh small ∧ verdict (f.placed small).1 = .pass
        ∧ pathCount small.cw f.path < 63 ∧ f.dest ≠ none)
    ∧ ∃ f, scratchForm (.vlds ⟨3, 5, 4, 2, 0⟩ (some ⟨1, 2, 0⟩)) = some (f, false) ∧ f.order = 1 ∧ f.fresh small
        ∧ verdict (scratchPlaced small false (f.pieces small)) = .pass := by
  refine ⟨⟨_, rfl, ?_⟩, _, rfl, ?_⟩ <;> (unfold AccessForm.fresh; decide +kernel)

/-- A state whose slot is the scalar one. -/
def scalarSlot (s : State) : State := { s with cur := { s.cur with slotVec := false } }

/-- The handler that the block of `odd` names can be entered. -/
theorem odd_can_trap {s : State} (h : headerAt s s.cw.ctx 0x30000 = .ok head1) (hb : s.cblk.handler = some 0x30000)
    (hu : s.unit.trap = none) (hn : s.cur.u < s.arch.units.length) : CanTrap s := ⟨hu, hn, 0x30000, head1, hb, h⟩

theorem witness_failed_checks :
    (∃ f, globalForm (.vld ⟨3, 5, 4, 2, 0⟩ none) = some f ∧ f.fresh odd ∧ verdict (f.placed odd).1 = .trap 1 255 1
      ∧ tornDown (f.placed odd).2 odd.cw.ctx = false ∧ CanTrap (f.placed odd).2)
    ∧ ∃ f, globalForm (.vld ⟨3, 5, 4, 2, 0⟩ none) = some f ∧ f.fresh far ∧ ∃ vas, verdict (f.placed far).1 = .park vas := by
  refine ⟨⟨_, rfl, ?_, by decide +kernel, by decide +kernel, ?_⟩, _, rfl, ?_, List.replicate 8 (2 ^ 30), by decide +kernel⟩
  case refine_2 => apply odd_can_trap <;> decide +kernel
  all_goals (unfold AccessForm.fresh; decide +kernel)

theorem witness_failed_scratch_checks :
    (∃ f, scratchForm (.vlds ⟨3, 5, 4, 2, 0⟩ none) = some (f, false) ∧ f.fresh odd
      ∧ verdict (scratchPlaced odd false (f.pieces odd)) = .trap 1 255 1)
    ∧ (feForm false ⟨3, 5, 4, 2, 0⟩ none).fresh odd
    ∧ verdict (scratchPlaced odd true ((feForm false ⟨3, 5, 4, 2, 0⟩ none).pieces odd)) = .trap 1 255 1
    ∧ tornDown odd odd.cw.ctx = false ∧ CanTrap odd := by
  refine ⟨⟨_, rfl, ?_⟩, ?_, by decide +kernel, by decide +kernel, ?_⟩
  case refine_3 => apply odd_can_trap <;> decide +kernel
  all_goals (unfold AccessForm.fresh; decide +kernel)

theorem witness_failed_scalar_checks : (scalarSlot odd).scalarOn = true ∧ (scalarSlot odd).cur.slotVec = false
    ∧ verdict (placeGlobal (scalarSlot odd) .load 8 [⟨64, 1, 0, 8, false⟩]).1 = .trap 1 (maskOf [64]) 1
    ∧ tornDown (placeGlobal (scalarSlot odd) .load 8 [⟨64, 1, 0, 8, false⟩]).2 1 = false
    ∧ CanTrap (placeGlobal (scalarSlot odd) .load 8 [⟨64, 1, 0, 8, false⟩]).2
    ∧ verdict (placeGlobal (scalarSlot far) .store 8 [⟨64, 2 ^ 30, 0, 8, false⟩]).1 = .park [2 ^ 30] := by
  refine ⟨by decide, by decide, by decide +kernel, by decide +kernel, ?_, by decide +kernel⟩
  apply odd_can_trap <;> decide +kernel

/-! ### Accesses that perform -/

/-- A four-byte part of a lane. -/
def part (lane addr : Nat) : AccPart :=
  { lane, va := addr, addr, off := 0, size := 4, ros := false, helper := false, data := [1, 2, 3, 4], expect := [0, 0, 0, 0] }

/-- The first outstanding access of the warp. -/
def access (kind : AccKind) (bank : Option Nat) (dest : Option AccDest) (parts : List AccPart) : Access :=
  { id := 1, kind, lanes := 255, bank, dest, count := none, useL1 := false, scope := 3, parts, got := [], stage := .waiting,
    acks := 0, snap := none, unit := 0, slotVec := true }

/-- The small state with one outstanding access, and an event about it and a sector or bank. -/
def withAccess (c : Access) (sector : Nat) : State :=
  { smallWarp (fun x => { x with accs := [c] }) with
    ev := { w := 16, id := 1, sector }
    tok := { held := [(2 ^ 42, { tokens := 2048, owner := true, valid := true, data := 0x55 })]
             homes := [(2 ^ 42, { owner := false, count := 0 })] } }

/-- Register 3, four bytes. -/
def toV3 : AccDest := ⟨false, 3, 4, true⟩

/-- Two lanes at one word of the sector at 2^48, the first of the domain window. -/
def onSector (kind : AccKind) (dest : Option AccDest) : Access :=
  access kind none dest [part 0 (2 ^ 48), part 63 (2 ^ 48 + 60)]

/-- One lane at the last word of the scratchpad of a block. -/
def onBank (kind : AccKind) (b : Nat) (dest : Option AccDest) : Access :=
  access kind (some b) dest [part 63 (b * 2 ^ 21 + 65532)]

theorem performable_bank (kind : AccKind) (b : Nat) (dest : Option AccDest)
    (h : mayPerform (withAccess (onBank kind b dest) (Config.bankOf 65532)).cw (onBank kind b dest) (onBank kind b dest).parts = true)
    (hb : (b * 2 ^ 21 + 65532) % 2 ^ 21 = 65532) :
    Performable (withAccess (onBank kind b dest) (Config.bankOf 65532)) (withAccess (onBank kind b dest) (Config.bankOf 65532)).cw
      (onBank kind b dest) := by
  refine ⟨rfl, rfl, ?_, by simp [onBank, access], rfl, h⟩
  simp only [partsAt, onBank, access, part, withAccess, List.filter_cons, List.filter_nil, hb, beq_self_eq_true, if_true]

theorem performable_sector (kind : AccKind) (dest : Option AccDest)
    (h : mayPerform (withAccess (onSector kind dest) (2 ^ 42)).cw (onSector kind dest) (onSector kind dest).parts = true) :
    Performable (withAccess (onSector kind dest) (2 ^ 42)) (withAccess (onSector kind dest) (2 ^ 42)).cw (onSector kind dest) :=
  ⟨rfl, rfl, rfl, by simp [onSector, access], rfl, h⟩

theorem witness_stores_perform :
    Performable (withAccess (onBank (.store 3) 1 none) (Config.bankOf 65532)) (withAccess (onBank (.store 3) 1 none) (Config.bankOf 65532)).cw
        (onBank (.store 3) 1 none)
      ∧ Performable (withAccess (onBank (.store 2) 2 none) (Config.bankOf 65532))
        (withAccess (onBank (.store 2) 2 none) (Config.bankOf 65532)).cw (onBank (.store 2) 2 none)
      ∧ Performable (withAccess (onSector (.store 0) none) (2 ^ 42)) (withAccess (onSector (.store 0) none) (2 ^ 42)).cw
        (onSector (.store 0) none)
      ∧ satisfied (withAccess (onSector (.store 0) none) (2 ^ 42)) (coreAgent small 0) (2 ^ 42) true = true
      ∧ ∀ p ∈ (onSector (.store 0) none).parts, p.data ≠ [] ∧ p.addr % 64 + p.data.length ≤ 64 :=
  ⟨performable_bank _ _ _ (by decide +kernel) (by decide), performable_bank _ _ _ (by decide +kernel) (by decide),
    performable_sector _ _ (by decide +kernel), by decide +kernel, by decide⟩

theorem witness_loads_return :
    Performable (withAccess (onBank .load 1 (some toV3)) (Config.bankOf 65532)) (withAccess (onBank .load 1 (some toV3)) (Config.bankOf 65532)).cw
        (onBank .load 1 (some toV3))
      ∧ LoadShape (onBank .load 1 (some toV3)) toV3
      ∧ Performable (withAccess (onBank .load 2 (some toV3)) (Config.bankOf 65532))
        (withAccess (onBank .load 2 (some toV3)) (Config.bankOf 65532)).cw (onBank .load 2 (some toV3))
      ∧ Performable (withAccess (onSector .load (some toV3)) (2 ^ 42)) (withAccess (onSector .load (some toV3)) (2 ^ 42)).cw
        (onSector .load (some toV3))
      ∧ LoadShape (onSector .load (some toV3)) toV3
      ∧ satisfied (withAccess (onSector .load (some toV3)) (2 ^ 42)) (coreAgent small 0) (2 ^ 42) false = true
      ∧ (holding (withAccess (onSector .load (some toV3)) (2 ^ 42)) (coreAgent small 0) (2 ^ 42)).poison = false
      ∧ ∀ e ∈ (withAccess (onSector .load (some toV3)) (2 ^ 42)).cw.accs, isPureStore e.kind = false := by
  refine ⟨performable_bank _ _ _ (by decide +kernel) (by decide), ⟨rfl, ?_⟩, performable_bank _ _ _ (by decide +kernel) (by decide),
    performable_sector _ _ (by decide +kernel), ⟨rfl, ?_⟩, by decide +kernel⟩ <;> decide

/-- The reply of another block's bank is on its way. -/
def replied : Access := { onBank .load 2 (some toV3) with stage := .replied, parts := [], got := [(63, 0, [1, 2, 3, 4])] }

theorem witness_remote_reply : eventAccess (withAccess replied 0) = some ((withAccess replied 0).cw, replied)
    ∧ replied.dest = some toV3 ∧ (replied.got.map (·.1)).Nodup ∧ (∀ g ∈ replied.got, g.1 < 64 ∧ g.2.2.length = toV3.bytes)
    ∧ 0 < toV3.bytes := by decide +kernel

theorem witness_atomics_perform :
    Performable (withAccess (onBank .cas 1 (some toV3)) (Config.bankOf 65532)) (withAccess (onBank .cas 1 (some toV3)) (Config.bankOf 65532)).cw
        (onBank .cas 1 (some toV3))
      ∧ LoadShape (onBank .cas 1 (some toV3)) toV3 ∧ AtomicShape (onBank .cas 1 (some toV3))
      ∧ (∀ p ∈ (onBank .cas 1 (some toV3)).parts, p.addr / 2 ^ 21 = 1 ∧ p.addr % 2 ^ 21 + p.size ≤ 2 ^ 21)
      ∧ Performable (withAccess (onSector (.atomic 0 false) (some toV3)) (2 ^ 42)) (withAccess (onSector (.atomic 0 false) (some toV3)) (2 ^ 42)).cw
        (onSector (.atomic 0 false) (some toV3))
      ∧ LoadShape (onSector (.atomic 0 false) (some toV3)) toV3 ∧ AtomicShape (onSector (.atomic 0 false) (some toV3))
      ∧ (∀ p ∈ (onSector (.atomic 0 false) (some toV3)).parts, p.ros = false ∧ p.addr / 64 = 2 ^ 42 ∧ p.addr % 64 + p.size ≤ 64)
      ∧ satisfied (withAccess (onSector (.atomic 0 false) (some toV3)) (2 ^ 42)) (coreAgent small 0) (2 ^ 42) true = true
      ∧ (coherentSector (withAccess (onSector (.atomic 0 false) (some toV3)) (2 ^ 42)) (2 ^ 42)).2 = false := by
  refine ⟨performable_bank _ _ _ (by decide +kernel) (by decide), ⟨rfl, by decide⟩, ⟨.inr rfl, by decide⟩, by decide,
    performable_sector _ _ (by decide +kernel), ⟨rfl, by decide⟩, ⟨.inl ⟨0, false, rfl⟩, by decide⟩, by decide +kernel⟩

/-- At another block's bank. -/
theorem witness_remote_banks :
    Performable (withAccess (onBank .cas 2 (some toV3)) (Config.bankOf 65532)) (withAccess (onBank .cas 2 (some toV3)) (Config.bankOf 65532)).cw
        (onBank .cas 2 (some toV3))
      ∧ LoadShape (onBank .cas 2 (some toV3)) toV3 ∧ AtomicShape (onBank .cas 2 (some toV3))
      ∧ (∀ p ∈ (onBank .cas 2 (some toV3)).parts, p.addr / 2 ^ 21 = 2 ∧ p.addr % 2 ^ 21 + p.size ≤ 2 ^ 21)
      ∧ (2 : Nat) ≠ (withAccess (onBank .cas 2 (some toV3)) (Config.bankOf 65532)).cw.blk
      ∧ Performable (withAccess (onBank .storeFe 2 none) (Config.bankOf 65532)) (withAccess (onBank .storeFe 2 none) (Config.bankOf 65532)).cw
        (onBank .storeFe 2 none)
      ∧ spFull (withAccess (onBank .storeFe 2 none) (Config.bankOf 65532)) 2 65532 = false :=
  ⟨performable_bank _ _ _ (by decide +kernel) (by decide), ⟨rfl, by decide⟩, ⟨.inr rfl, by decide⟩, by decide, by decide +kernel,
    performable_bank _ _ _ (by decide +kernel) (by decide), by decide +kernel⟩

theorem witness_full_empty_waits :
    Performable (withAccess (onBank .storeFe 1 none) (Config.bankOf 65532)) (withAccess (onBank .storeFe 1 none) (Config.bankOf 65532)).cw
        (onBank .storeFe 1 none)
      ∧ spFull (withAccess (onBank .storeFe 1 none) (Config.bankOf 65532)) 1 65532 = false
      ∧ Performable (withAccess (onBank .loadFe 1 (some toV3)) (Config.bankOf 65532))
        (withAccess (onBank .loadFe 1 (some toV3)) (Config.bankOf 65532)).cw (onBank .loadFe 1 (some toV3))
      ∧ spFull (withAccess (onBank .loadFe 1 (some toV3)) (Config.bankOf 65532)) 1 65532 = !true :=
  ⟨performable_bank _ _ _ (by decide +kernel) (by decide), by decide +kernel, performable_bank _ _ _ (by decide +kernel) (by decide),
    by decide +kernel⟩

/-! ### Posted writes and release rounds -/

/-- A posted write of the last two bytes of the sector at 2^48 that has reached its home. -/
def posted : State := { small with
  tok := { homes := [], posted := [⟨0, ⟨2 ^ 42, [(62, [7, 8])], none, 0, 0, 0⟩, some (16, 1)⟩] } }

/-- Its home has given its tokens away. -/
def postedWaits : State := { posted with tok := { posted.tok with homes := [(2 ^ 42, { owner := false, count := 0 })] } }

theorem witness_posted_writes :
    isHomeOf posted (ownAgent posted.sys 512) (2 ^ 42) = true ∧ localAddr posted.sys (sectorBase (2 ^ 42)) = some 0
      ∧ satisfied posted (ownAgent posted.sys 512) (2 ^ 42) true = true ∧ ¬ CensusRuns posted (2 ^ 42)
      ∧ CensusRuns { posted with tok := { posted.tok with census := [⟨2 ^ 42, .round1, [0], 0, 0, 0, false, false, 0⟩] } } (2 ^ 42)
      ∧ satisfied postedWaits (ownAgent postedWaits.sys 512) (2 ^ 42) true = false := by
  unfold CensusRuns
  decide +kernel

theorem witness_posted_acknowledged : ∃ c : Access, c.acks = 1 ∧ c.id = 1
    ∧ c ∈ (({ withAccess { access .posted none none [] with acks := 1 } 0 with tok := { acks := [(16, 1)] } } : State).warp 16).accs :=
  ⟨{ access .posted none none [] with acks := 1 }, rfl, rfl, by decide +kernel⟩

/-- A warp whose query waits for home 8 of module 7, to be asked again at time 0, and whose unit awaits the answer. -/
def querying (count resend : Nat) : State :=
  { smallWarp (fun x => { x with
      query := some ⟨0, [⟨7, 8, count⟩], resend, [⟨7, 8, count⟩]⟩
      arch := { x.arch with units := x.arch.units.map (fun v => { v with hold := .fenceQuery 0 }) } }) with
    ev := { w := 16, k := 7, home := 8, srcId := sourceId small small.cw, count := 1 }
    blocks := odd.blocks
    sys := { small.sys with auxTime := 1 } }

theorem witness_release_queries :
    (querying 1 0).cw.query = some ⟨0, [⟨7, 8, 1⟩], 0, [⟨7, 8, 1⟩]⟩ ∧ sourceId (querying 1 0) (querying 1 0).cw = (querying 1 0).ev.srcId
      ∧ (∃ e, e ∈ ([⟨7, 8, 1⟩] : List Touch) ∧ (e.module.toNat == (querying 1 0).ev.k && e.home.toNat == (querying 1 0).ev.home) = true)
      ∧ (∃ entry h, ((querying 1 0).block 1).handler = some entry ∧ headerAt (querying 1 0) 1 entry = .ok h)
      ∧ ((querying 1 0).cw.unit 0).trap = none
      ∧ Sparse.find (querying 1 1).grids 7 = none ∧ (querying 1 1).cw.query = some ⟨0, [⟨7, 8, 1⟩], 1, [⟨7, 8, 1⟩]⟩ ∧ 1 ≤ (querying 1 1).now := by
  refine ⟨by decide +kernel, by decide +kernel, by decide +kernel, ⟨0x30000, head1, by decide +kernel, by decide +kernel⟩,
    by decide +kernel⟩

/-! ### Control -/

/-- The small state with its only unit changed. -/
def smallUnit (f : IUnit → IUnit) : State := smallArch (fun a => { a with units := a.units.map f })

/-- The small state in the scalar slot, with the block's trap handler. -/
def trappable (f : WarpArch → WarpArch) (g : Issue → Issue) : State :=
  let s := smallArch f
  { s with blocks := odd.blocks, cur := g { s.cur with slotVec := false, gscope := true } }

theorem canTrap (f : WarpArch → WarpArch) (g : Issue → Issue)
    (h : (trappable f g).unit.trap = none ∧ (trappable f g).cur.u < (trappable f g).arch.units.length
      ∧ (trappable f g).cblk.handler = some 0x30000
      ∧ headerAt (trappable f g) (trappable f g).cw.ctx 0x30000 = .ok (head1)) : CanTrap (trappable f g) :=
  ⟨h.1, h.2.1, 0x30000, _, h.2.2⟩

/-- A return stack as full as it may be, in lane 0. -/
def fullStack (a : WarpArch) : WarpArch := { a with rstk := [(0, List.replicate 32 8)] }

theorem witness_transfers_decided :
    (∀ l, l < 64 → hasLane small.cur.lanes l = true → (Sparse.get [] small.arch.rstk l).length < 32)
      ∧ CanTrap (trappable fullStack id) ∧ (trappable fullStack id).cur.slotVec = false
      ∧ hasLane (trappable fullStack id).cur.guard 0 = true ∧ 32 ≤ (Sparse.get [] (trappable fullStack id).arch.rstk 0).length
      ∧ (∀ l, l < 64 → hasLane (1 : Lanes) l = true → Sparse.get [] (trappable fullStack id).arch.rstk l ≠ [])
      ∧ CanTrap (trappable id id) ∧ Sparse.get [] (trappable id id).arch.rstk 7 = [] := by
  refine ⟨by decide +kernel, canTrap _ _ (by decide +kernel), by decide, by decide +kernel, by decide +kernel, by decide +kernel,
    canTrap _ _ (by decide +kernel), by decide +kernel⟩

/-- A transfer to the header after the placed block, by all lanes or by the lower four. -/
def toNext (taken : Lanes) (dest : Nat) : Transfer := ⟨.branch, taken, dest, [], true⟩

theorem witness_transfer_to_one_side :
    let s := smallUnit (fun v => { v with xfer := some (toNext 255 (0x30000 + 16)) })
    let v := s.cw.unit 0
    v.xfer = some (toNext 255 (0x30000 + 16)) ∧ ProperTransfer v (toNext 255 (0x30000 + 16)) ∧ Settled s.cw.arch
      ∧ TargetOk s 16 (toNext 255 (0x30000 + 16)) ∧ PlainHeader s 16 (0x30000 + 16) (head1)
      ∧ ∀ l, hasLane v.lanes l = true → laneDest v (toNext 255 (0x30000 + 16)) l = 0x30000 + 16 := by
  refine ⟨by decide +kernel, ⟨by decide +kernel, fun _ => by decide +kernel, fun h => by simp [toNext] at h⟩,
    by unfold Settled; decide +kernel, fun _ => by decide +kernel,
    ⟨by decide +kernel, by decide +kernel⟩, lanes_all (by decide +kernel)⟩

theorem witness_transfer_divides :
    let s := smallUnit (fun v => { v with xfer := some (toNext 15 0x30000) })
    ∃ v, s.cw.arch.units[0]? = some v ∧ ProperTransfer v (toNext 15 0x30000) ∧ s.cw.arch.splits.length < 64
      ∧ hasLane v.lanes 0 = true ∧ hasLane v.lanes 7 = true
      ∧ laneDest v (toNext 15 0x30000) 0 ≠ laneDest v (toNext 15 0x30000) 7 := by
  refine ⟨_, rfl, ⟨by decide +kernel, ?_, ?_⟩, by decide +kernel⟩ <;>
    (intro h; simp [toNext] at h)

/-- The stack of ply 0 is full and its secondary slot taken. -/
def fullPly (a : WarpArch) : WarpArch :=
  { a with units := a.units.map (fun v => { v with lanes := 15, xfer := some (toNext 3 0x30000) })
                      ++ [{ sec := true, ply := 0, lanes := 16, pos := ⟨0x30000, 0, head1, 0⟩ }]
           stack := List.replicate 64 { sec := true, ply := 0, lanes := 32, pos := ⟨0x30000, 0, head1, 0⟩ } }

theorem witness_full_ply_traps :
    let s := trappable fullPly id
    ∃ v, s.cw.arch.units[0]? = some v ∧ (stackOf s.cw.arch 0).length = 64 ∧ s.cw.arch.units.any (isSecondaryOf 0) = true
      ∧ v.xfer = some (toNext 3 0x30000) ∧ TargetOk s 16 (toNext 3 0x30000) ∧ MayTrap s 16 0
      ∧ laneDest v (toNext 3 0x30000) 0 ≠ laneDest v (toNext 3 0x30000) 3 := by
  refine ⟨_, rfl, by decide +kernel, by decide +kernel, by decide +kernel, fun _ => by decide +kernel,
    ⟨by decide +kernel, by decide +kernel, 0x30000, head1, by decide +kernel, by decide +kernel⟩, by decide +kernel⟩

theorem witness_traps_taken : CanTrap (trappable id id) ∧ (trappable id id).cur.slotVec = false ∧ (trappable id id).scalarOn = true
    ∧ small.cblk.handler = none ∧ small.cur.u < small.arch.units.length
    ∧ (trappable id (fun c => { c with guard := 0 })).scalarOn = false :=
  ⟨canTrap _ _ (by decide +kernel), rfl, rfl, by decide +kernel, by decide +kernel, rfl⟩

/-- A frame of a trapped bundle of the placed block. -/
def frame : TrapFrame :=
  { fpc := 0x30008, vec := 6, cause := 0, slotVec := false, skips := true, code := 42, fmask := 255, faddr := 0, fres := 0x30008,
    fact := 255, kept := none, pos := ⟨0x30000, 1, head1, 0⟩, atHeader := false }

theorem witness_trap_level :
    let s := smallUnit (fun v => { v with trap := some frame, xfer := some ⟨.tret, 255, 0x30008, [], false⟩ })
    s.unit.trap = some frame ∧ s.cur.u < s.arch.units.length ∧ s.scalarOn = true
      ∧ (s.cw.unit 0).xfer = some ⟨.tret, 255, 0x30008, [], false⟩ ∧ frame.fres = frame.fpc ∧ Settled s.cw.arch
      ∧ (s.cw.unit 0).more = [] ∧ frame.atHeader = false ∧ (fetchWord s 1 0x30008).map isHeaderWord = some false := by
  refine ⟨by decide +kernel, by decide +kernel, by decide +kernel, by decide +kernel, rfl, ?_, by decide +kernel, rfl, by decide +kernel⟩
  unfold Settled
  decide +kernel

/-! ### Fences, monitors and barriers -/

theorem witness_fence_and_waitc :
    (trappable id (fun c => { c with guard := 0 })).scalarOn = false ∧ small.scalarOn = true ∧ small.unit.fenced = false
      ∧ pathCount small.cw 5 ≤ 0 ∧ small.unit.passed = false ∧ small.cur.u < small.arch.units.length
      ∧ 0 < pathCount (smallWarp (fun x => { x with paths := [{ (default : PathIssue) with path := 5 }] })).cw 5 := by decide +kernel

/-- The warp's unit holds for a reason, an access of a kind being outstanding, and an event about it is under way. -/
def holding1 (h : Hold) (k : AccKind) : State :=
  { smallWarp (fun x => { x with
      accs := [access k none none []], touched := [⟨0, 8, 1⟩]
      arch := { x.arch with units := x.arch.units.map (fun v => { v with hold := h }) } }) with ev := { w := 16 } }

theorem witness_fences_complete :
    Sparse.find (holding1 (.fenceRel 4) .posted).warps 16 = some (holding1 (.fenceRel 4) .posted).cw
      ∧ ((holding1 (.fenceRel 4) .posted).cw.unit 0).hold = .fenceRel 4
      ∧ NoneLeft (holding1 (.fenceRel 4) .posted).cw ((holding1 (.fenceRel 4) .posted).cw.unit 0) ReleaseWaits
      ∧ ¬ NoneLeft (holding1 (.fenceRel 3) .load).cw ((holding1 (.fenceRel 3) .load).cw.unit 0) ReleaseWaits
      ∧ NoneLeft (holding1 (.fenceAcq 2) (.store 0)).cw ((holding1 (.fenceAcq 2) (.store 0)).cw.unit 0) AcquireWaits
      ∧ ¬ NoneLeft (holding1 (.fenceAcq 1) .cas).cw ((holding1 (.fenceAcq 1) .cas).cw.unit 0) AcquireWaits
      ∧ (holding1 (.fenceRel 4) .posted).cw.acks = 0 ∧ (holding1 (.fenceQuery 9) .load).cw.query = none
      ∧ (smallArch (fun a => { a with live := 0, units := [] })).cw.arch.live = 0 := by
  refine ⟨by decide +kernel, by decide +kernel, ?_, ?_, ?_, ?_, by decide +kernel⟩
  · intro c hc _
    simp only [holding1, smallWarp] at hc
    have : c.kind = .posted := by revert c; decide +kernel
    simp [ReleaseWaits, this]
  · exact fun h => h _ (by decide +kernel : access .load none none [] ∈ _) (by decide +kernel) (by simp [ReleaseWaits, access])
  · intro c hc _
    have : c.kind = .store 0 := by revert c; decide +kernel
    simp [AcquireWaits, this]
  · exact fun h => h _ (by decide +kernel : access .cas none none [] ∈ _) (by decide +kernel) (by simp [AcquireWaits, access])

/-- Scalar register 8 holds 2^18, a page of context 1, whose line the core's L2 holds. -/
def readable : State :=
  { smallArch (fun a => (a.setS 8 0x40000).setS 9 0x40000) with
    tok := { held := [(2 ^ 42 + 0x1000, { tokens := 2048, owner := true, valid := true }),
                      (2 ^ 42 + 0x1001, { tokens := 1, owner := false, valid := true })]
             homes := [(2 ^ 42 + 0x1000, { owner := false, count := 0 }), (2 ^ 42 + 0x1001, { count := 2046 })] } }

theorem witness_monitor_armed :
    let p := placeGlobal readable .load 1 [⟨64, 0x40000, 0, 1, false⟩]
    readable.scalarOn = true ∧ NoLoads readable.cw ∧ p.1 = [(⟨64, 0x40000, 0, 1, false⟩, .ok (2 ^ 48 + 0x40000) false)]
      ∧ ∀ k, k < 2 → satisfied p.2 (coreAgent p.2 p.2.cw.core) (2 * ((2 ^ 48 + 0x40000) / 128) + k) false = true := by
  refine ⟨by decide +kernel, fun c hc => ?_, by decide +kernel, by decide +kernel⟩
  rw [show readable.cw.accs = [] by decide +kernel] at hc
  exact absurd hc (by simp)

theorem noLoads {s : State} (h : s.cw.accs = []) : NoLoads s.cw := fun c hc => by rw [h] at hc; exact absurd hc (by simp)

theorem witness_monitor_waits :
    small.unit.wake = none ∧ small.cw.mon = none ∧ (smallUnit (fun v => { v with wake := some 0 })).unit.wake = some 0
      ∧ (smallWarp (fun x => { x with mon := some ⟨0, 0, true, false⟩ })).cw.mon = some ⟨0, 0, true, false⟩
      ∧ (smallWarp (fun x => { x with mon := some ⟨0, 0, false, true⟩ })).cw.mon = some ⟨0, 0, false, true⟩
      ∧ ((holding1 (.monwait (some 0)) .load).cw.unit 0).hold = .monwait (some 0) ∧ 0 ≤ (holding1 (.monwait (some 0)) .load).sys.auxTime
      ∧ ((holding1 (.monwait (some 0)) .load).block (holding1 (.monwait (some 0)) .load).cw.blk).status = .resident
      ∧ NoLoads (smallWarp (fun x => { x with mon := some ⟨0, 0, false, true⟩ })).cw := by
  refine ⟨?_, ?_, ?_, ?_, ?_, ?_, ?_, ?_, noLoads ?_⟩ <;> decide +kernel

/-- Block 1 is the first of a cluster with block 2, and scalar register 8 holds a barrier's address in block k of it. -/
def atBarrier (k off : Nat) (f : IUnit → IUnit) : State :=
  let s := smallArch (fun a => { a.setS 8 (BitVec.ofNat 64 (k * 2 ^ 21 + off)) with units := a.units.map f })
  { s with
    blocks := [(1, { ctx := 1, code := 0x30000, spAlloc := 65536, handler := some 0x30000, cluster := [1, 2] }),
               (2, { ctx := 1, spAlloc := 65536 })]
    cur := { s.cur with slotVec := false } }

theorem witness_barrier_instructions :
    BarrierAt (atBarrier 0 65528 id) 65528 1 65528
      ∧ ((atBarrier 0 65528 id).unit.passed = false ∧ (atBarrier 0 65528 id).unit.issued = false)
      ∧ BarrierAt (atBarrier 1 0 id) (2 ^ 21) 2 0 ∧ ((atBarrier 0 4 id).sreg 8).toNat % 8 ≠ 0
      ∧ CanTrap (atBarrier 1 0 id)
      ∧ (atBarrier 0 0 (fun v => { v with fenced := true })).unit.fenced = true
      ∧ pathCount (atBarrier 0 0 (fun v => { v with fenced := true })).cw 0 < 63
      ∧ (atBarrier 0 0 (fun v => { v with passed := true, fenced := true })).unit.passed = true := by
  refine ⟨by unfold BarrierAt; decide +kernel, by decide +kernel,
    by unfold BarrierAt; decide +kernel, by decide +kernel,
    ⟨by decide +kernel, by decide +kernel, 0x30000, head1, by decide +kernel, by decide +kernel⟩,
    by decide +kernel⟩

/-- An arrival at the last doubleword of block 1's scratchpad. -/
def arrival : Access := access (.arrive true 1) (some 1) none [{ part 64 (2 ^ 21 + 65528) with size := 8, data := [] }]

theorem witness_barrier_arrivals :
    eventAccess (withAccess arrival 0) = some ((withAccess arrival 0).cw, arrival)
      ∧ mayPerform (withAccess arrival 0).cw arrival arrival.parts = true
      ∧ arrivalsNeeded (withAccess arrival 0) 1 (barDword (withAccess arrival 0) 1 65528) ≤ countOf (barDword (withAccess arrival 0) 1 65528) + 1 := by
  decide +kernel

theorem witness_checkpoint :
    let s : State := { small with blocks := [(1, { ctx := 1, ckptWait := some 0 })], ev := { k := 1 } }
    (s.block 1).ckptWait = some 0 ∧ (s.block 1).status = .resident ∧ (s.block 1).mq = [] ∧ (∀ c ∈ s.cmds, c.blk ≠ 1)
      ∧ ∀ e ∈ s.warps, e.2.blk = 1 → e.2.accs = [] ∧ e.2.acks = 0 ∧ e.2.spend = [] := by
  decide +kernel

/-! ### Names and children -/

/-- Name 0 leads to an entry of a kind whose body is at 0x50000, name 1 to code at 0x30000, both of context 1. -/
def named (kind : Nat) : State :=
  { readable with
    names := { next := 2
               table := [(0, { counter := 0, state := 1, ctx := 1, w0 := BitVec.ofNat 64 (kind * 2 ^ 56 + 0x50000), w1 := 128 }),
                         (8, { counter := 1, state := 1, ctx := 1, w0 := BitVec.ofNat 64 (2 ^ 56 + 0x30000), w1 := 24 })] }
    mem := smallMem ++ [(0x50000, 1)]
    cur := { readable.cur with lanes := 3, guard := 3 } }

/-- The unit's fence before a name operation has completed. -/
def fenced (s : State) : State := s.setWarp 16 { s.cw with arch := { s.arch with units := s.arch.units.map (fun v => { v with fenced := true }) } }

theorem nlkReady (kind : Nat) (h : (fenced (named kind)).cw.accs = []
    ∧ (fenced (named kind)).scalarOn = true ∧ pathCount (fenced (named kind)).cw 5 < 63) : NlkReady (fenced (named kind)) :=
  ⟨h.2.1, noLoads h.1, h.2.2⟩

/-- What a scalar access of `n` bytes at `va` leaves of translation. -/
def placedRead (n va : Nat) (s : State) : State := (placeGlobal s .load n [⟨64, va, 0, n, false⟩]).2

/-- What such a read of the core's own sector leaves: its L1 without the line, and the sector among those the slot has read. -/
def afterAccess (n va : Nat) (s : State) : State :=
  let p := placedRead n va s
  let sec := (2 ^ 48 + va) / 64
  noteSector (p.setCore p.cw.core (l1Drop (p.core p.cw.core) (sec / 2))) ⟨sec, (holding p (coreAgent p p.cw.core) sec).data, false, false⟩

/-- What a scalar access of 16 bytes at 2^18 leaves of translation. -/
def afterRead (s : State) : State := afterAccess 16 0x40000 s

theorem readsZeros (n va : Nat) (s : State) :
    let p := placedRead n va s
    let h := holding p (coreAgent p p.cw.core) ((2 ^ 48 + va) / 64)
    (placeGlobal s .load n [⟨64, va, 0, n, false⟩] = ([(⟨64, va, 0, n, false⟩, .ok (2 ^ 48 + va) false)], p) ∧ p.cw.accs = []
      ∧ p.unit.latch.find? (fun r => r.sec == (2 ^ 48 + va) / 64) = none
      ∧ satisfied p (coreAgent p p.cw.core) ((2 ^ 48 + va) / 64) false = true ∧ h.poison = false
      ∧ List.replicate n 0 = sectorBytes h.data ((2 ^ 48 + va) % 64) n) →
    ReadsBytes n s va (List.replicate n 0) (afterAccess n va s) := by
  intro p h ⟨e, h1, h2, h3, h4, h5⟩
  exact ⟨_, _, _, _, e, fun c hc => by rw [h1] at hc; exact absurd hc (by simp), .inr (.inl ⟨h2, rfl, h3, h4, rfl, rfl⟩), h5⟩

theorem reads_named (kind : Nat) (hk : kind = 3 ∨ kind = 7) : Reads16 (fenced (named kind)) 0x40000 (List.replicate 16 0) (afterRead (fenced (named kind))) := by
  rcases hk with rfl | rfl <;>
    exact readsZeros 16 0x40000 _ (by decide +kernel)

theorem witness_name_instructions : NlkReady (fenced (named 7)) ∧ ((fenced (named 7)).sreg 8).toNat = 0x40000
    ∧ ((fenced (named 7)).sreg 9).toNat = 0x40000 ∧ (fenced (named 7)).unit.fenced = true ∧ (fenced (named 7)).unit.issued = false
    ∧ Reads16 (fenced (named 7)) 0x40000 (List.replicate 16 0) (afterRead (fenced (named 7)))
    ∧ (∃ t, StoresBytes 16 (fenced (named 7)) 0x40000 (2 ^ 48 + 0x40000) t ∧ t.sreg 9 = (fenced (named 7)).sreg 9
      ∧ ReadsBody t 0x40000 (List.replicate 16 0) (afterAccess 8 0x40008 (afterAccess 8 0x40000 t))) :=
  ⟨nlkReady _ (by decide +kernel), by decide +kernel, by decide +kernel, by decide +kernel, by decide +kernel, reads_named 7 (by simp),
    (placeGlobal (fenced (named 7)) .store 16 [⟨64, 0x40000, 0, 16, false⟩]).2, ⟨false, by decide +kernel⟩, by decide +kernel,
    List.replicate 8 0, List.replicate 8 0, _,
    readsZeros 8 0x40000 _ (by decide +kernel),
    readsZeros 8 0x40008 _ (by decide +kernel), rfl⟩

theorem witness_ncas_store : ∃ t hi, StoresBytes 8 (fenced (named 7)) 0x40000 (2 ^ 48 + 0x40000) t
    ∧ StoresBytes 8 t ((0x40000 + 8) % 2 ^ 64) hi (placeGlobal t .store 8 [⟨64, 0x40008, 0, 8, false⟩]).2 :=
  ⟨(placeGlobal (fenced (named 7)) .store 8 [⟨64, 0x40000, 0, 8, false⟩]).2, 2 ^ 48 + 0x40008, ⟨false, by decide +kernel⟩,
    false, by decide +kernel⟩

/-- What FORK goes on in after its name and its hold, and after its record. -/
def forkHeld : State :=
  let t0 := afterRead (fenced (named 7))
  ((takeHold t0 0).getD t0).setUnit (fun v => { v with fork := some ⟨0, BitVec.ofNat 64 (7 * 2 ^ 56 + 0x50000), 128, none⟩ })

def forkRec : LaunchRec := makeRec ([1, 0, 0, 0, 0, 0, 0, 0] ++ List.replicate 120 0) 0x30000 none

def forkRead : State := ForkReads forkHeld ⟨0, BitVec.ofNat 64 (7 * 2 ^ 56 + 0x50000), 128, none⟩ 0x50000 forkRec

theorem witness_fork : NlkReady (fenced (named 7)) ∧ (fenced (named 7)).unit.fenced = true ∧ (fenced (named 7)).unit.fork = none
    ∧ bodyOf (afterRead (fenced (named 3))) 1 0 7 = .error 3
    ∧ unreadable forkHeld (launchAgent forkHeld) 1 0x50000 128 = []
    ∧ recordAt forkHeld 1 (BitVec.ofNat 64 (7 * 2 ^ 56 + 0x50000)) 128 = .ok forkRec
    ∧ recordAt forkHeld 1 (BitVec.ofNat 64 (7 * 2 ^ 56 + 0x50000)) 64 = .error 3
    ∧ let p := placeGlobal forkRead .load 8 (([0, 1] : List Nat).map (fun l => ⟨l, (0x40000 + 8 * l) % 2 ^ 64, 0, 8, false⟩))
      ArgsReady p.2 p.1 forkRec 2 := by
  refine ⟨nlkReady _ (by decide +kernel), by decide +kernel, by decide +kernel, by decide +kernel, by decide +kernel, by decide +kernel,
    by decide +kernel, ?_, by decide +kernel, by decide +kernel⟩
  intro e he
  refine ⟨2 ^ 48 + 0x40000 + 8 * e.1.lane, false, List.replicate 8 0, ?_, _, _, .inr (.inl ⟨?_, rfl, ?_, ?_, rfl, rfl⟩), ?_⟩ <;>
    (revert e; decide +kernel)

theorem witness_fork_holds : ForkHolds (afterRead (fenced (named 7))) 0 0 forkHeld := by
  refine ⟨by decide +kernel, by decide +kernel, by decide +kernel, (takeHold (afterRead (fenced (named 7))) 0).getD State.reset, ?_, ?_⟩ <;>
    decide +kernel

theorem witness_graph_walk_waits : (scalarSlot small).scalarOn = true ∧ (scalarSlot small).unit.fenced = false
    ∧ ({ small with cur := { small.cur with guard := 0, gscope := true } } : State).scalarOn = false := by decide

theorem witness_graph_walk : NlkReady (fenced (named 3)) ∧ (fenced (named 3)).unit.fenced = true
    ∧ resolve (afterRead (fenced (named 3))) 0 = .live 0 ∧ mayUse (afterRead (fenced (named 3))) 1 (nameEntry (afterRead (fenced (named 3))) 0) = true
    ∧ (nameEntry (afterRead (fenced (named 3))) 0).w0.toNat / 2 ^ 56 = 3
    ∧ readVirtual (afterRead (fenced (named 3))) 1 0x50000 64 = some ([1] ++ List.replicate 63 0)
    ∧ (∃ r, readNode (afterRead (fenced (named 3))) 1 0x50000 0 = some r ∧ r.npred = 0)
    ∧ ((afterRead (fenced (named 3))).graphs = [] ∧ (fenced (named 3)).cblk.children < 4096
      ∧ graphWaits (afterRead (fenced (named 3))) 1 0x50000 = [] ∧ (nameEntry (afterRead (fenced (named 3))) 0).holds ≠ 65535
      ∧ TableWritable (takeGraph (afterRead (fenced (named 3))) 1 0x50000 1) 0)
    ∧ resolve ({ small with names := { next := 1 } } : State) 0 = .gone ∧ resolve small 0 = .absent
    ∧ (nameEntry (afterRead (fenced (named 7))) 0).w0.toNat / 2 ^ 56 ≠ 3 := by
  refine ⟨nlkReady _ (by decide +kernel), ?_, ?_, ?_, ?_, ?_, ⟨⟨0, 0, [0, 0, 0, 0], 0, 0, 0, 0, 0⟩, ?_, rfl⟩, ?_, ?_, ?_, ?_⟩
  all_goals (try unfold TableWritable)
  all_goals decide +kernel

/-- A second warp of the block, at JOIN or not. -/
def twoWarps (joined : Bool) (children : Nat) : State :=
  { small with
    warps := small.warps ++ [(17, { warp1 with arch := { warp1.arch with
      units := warp1.arch.units.map (fun v => { v with hold := if joined then .atJoin else .none }) } })]
    blocks := [(1, { ctx := 1, code := 0x30000, spAlloc := 65536, children := children, cluster := [1] })] }

theorem witness_join : WarpTable (twoWarps true 0) ∧ (twoWarps true 0).arch.units.length = 1 ∧ (twoWarps true 0).cur.u = 0
    ∧ (twoWarps true 0).unit.passed = false ∧ (twoWarps true 0).cw.ended = false ∧ (twoWarps true 0).cblk.status = .resident
    ∧ (∃ e, e ∈ (twoWarps false 0).warps.filter (fun e => e.1 != 16 && e.2.blk == 1 && !e.2.ended) ∧ atJoin e.2 = false)
    ∧ (∀ e ∈ (twoWarps true 0).warps.filter (fun e => e.1 != 16 && e.2.blk == 1 && !e.2.ended), atJoin e.2 = true)
    ∧ (twoWarps true 0).cblk.children = 0 ∧ (twoWarps true 4096).cblk.children ≠ 0
    ∧ (∀ k ∈ (twoWarps true 4096).cblk.cluster, k = (twoWarps true 4096).cw.blk)
    ∧ NoLoads (twoWarps true 0).cw ∧ NoLoads (twoWarps false 0).cw ∧ NoLoads (twoWarps true 4096).cw := by
  refine ⟨by unfold WarpTable; decide +kernel, ?_, ?_, ?_, ?_, ?_, ?_, ?_, ?_, ?_, ?_, noLoads ?_, noLoads ?_, noLoads ?_⟩ <;> decide +kernel

/-! ### Matrix instructions -/

/-- FP8 operands in FIFOs 0 and 1 without scales, of 512 rows deep k or none. -/
def mmaOp (kc : Nat) : MmOp := ⟨3, 0, 1, 0, BitVec.ofNat 6 kc, true, false⟩

/-- The block owns FIFOs 0 and 1, format-block register 0 reads 8-bit floats, or has a bad operand pair. -/
def matrix (ta tb : Nat) (mq : List MatOp) (fifos : Sparse (List Byte)) : State :=
  { smallArch (fun a => { a with fmt := [(0, BitVec.ofNat 128 (ta + 16 * tb + 256))] }) with
    blocks := [(1, { ctx := 1, code := 0x30000, spAlloc := 65536, handler := some 0x30000, fifoSet := 3, mq := mq, fifos := fifos })]
    ev := { k := 1 } }

theorem witness_matrix_issue :
    (matrix 0 0 [] []).cblk.fifoSet.getLsbD 1 = true ∧ small.cblk.fifoSet.getLsbD 1 = false
      ∧ ¬ fmtCheck (Sparse.get 0 (matrix 15 0 [] []).arch.fmt 0) false 1 65536 1
      ∧ (∀ c, 1 ≤ c → c ≤ 5 → fmtCheck (Sparse.get 0 (matrix 0 1 [] []).arch.fmt 0) false 1 65536 c)
      ∧ CanTrap (matrix 15 0 [] []) ∧ (matrix 15 0 [] []).cur.slotVec = true ∧ matrixRow (matrix 0 1 [] []) 7
      ∧ (fmtField (Sparse.get 0 (matrix 0 1 [] []).arch.fmt 0) 10 2 = 0 ∧ fmtField (Sparse.get 0 (matrix 0 1 [] []).arch.fmt 0) 12 2 = 0) := by
  refine ⟨by decide +kernel, by decide +kernel, ?_, ?_,
    ⟨by decide +kernel, by decide +kernel, 0x30000, head1, by decide +kernel, by decide +kernel⟩, rfl,
    .inl (by decide +kernel), by decide +kernel, by decide +kernel⟩
  · simp only [fmtCheck, typePair]; decide +kernel
  · intro c h1 h2
    have : c = 1 ∨ c = 2 ∨ c = 3 ∨ c = 4 ∨ c = 5 := by omega
    rcases this with rfl | rfl | rfl | rfl | rfl
    · simp only [fmtCheck, typePair]; decide +kernel
    · simp only [fmtCheck]; decide +kernel
    · simp only [fmtCheck]; decide +kernel
    · exact ⟨fun h => absurd (by decide +kernel) h, fun h => absurd (by decide +kernel) h⟩
    · simp only [fmtCheck]; decide +kernel

/-- An instruction of 32 FP8 elements a row, waiting or started. -/
def matOp (started : Bool) : MatOp :=
  { warp := 16, id := 1, mss := false, op := mmaOp 1, fmt := 256, rows := 255, scaleA := [], scaleB := [], started := started,
    aBytes := [], bBytes := [], arrays := if started then 1 else 0 }

theorem witness_matrix_start :
    let s := matrix 0 0 [matOp false] [(0, List.replicate 2048 1), (1, List.replicate 2048 2)]
    (s.block 1).mq[0]? = some (matOp false) ∧ (s.block 1).status = .resident ∧ MayStart s (s.block 1) 0 (matOp false)
      ∧ (s.core (s.block 1).core).arrays.length = 4 ∧ FreeArray (s.core (s.block 1).core) 0 := by
  refine ⟨by decide +kernel, by decide +kernel, ⟨rfl, by decide +kernel, fun j e h => absurd h (by omega), fun v hv => ?_, by decide +kernel⟩,
    by decide +kernel, ⟨by decide +kernel, by decide +kernel⟩⟩
  revert v
  simp only [← List.mem_append]
  decide +kernel

theorem witness_matrix_complete : ((matrix 0 0 [matOp true] []).block 1).mq[0]? = some (matOp true) ∧ (matOp true).started = true := by
  decide +kernel

/-- The unit stands at a bundle issued after the queued instruction. -/
def later (s : State) : State :=
  s.setWarp 16 { s.cw with arch := { s.arch with units := s.arch.units.map (fun v => { v with firstId := 2 }) } }

theorem witness_tile_access : TileFree (matrix 0 0 [matOp false] []) 3 ∧ TileFree (later (matrix 0 0 [matOp false] [])) 0
    ∧ ¬ TileFree (later (matrix 0 0 [matOp false] [])) 3
    ∧ (Instr.vaccrd ⟨192, 0, 0, 63⟩).WellFormed ∧ (Instr.vaccwr ⟨252, 0, 60, 3⟩).WellFormed ∧ (Instr.vaccq 1 2 0 60 true false).WellFormed
    ∧ small.cur.guard ≠ 0 := by
  refine ⟨?_, ?_, ?_, by decide⟩ <;> (unfold TileFree; decide +kernel)

/-- The first batch of the warp, complete or not, on chunk counter 31. -/
def batch1 (done : Bool) : Batch := ⟨1, [1], 11, true, 31, [], 2, done⟩

theorem witness_batches :
    small.scalarOn = true ∧ (trappable id (fun c => { c with guard := 0 })).scalarOn = false
      ∧ (matrix 0 0 [] []).cblk.ctrSet.getLsbD 31 = false ∧ CanTrap (trappable id id) ∧ (trappable id id).cblk.ctrSet.getLsbD 0 = false
      ∧ (∀ b ∈ small.cw.batches, b.done = true ∨ 0 < b.no.toNat)
      ∧ ¬ (∀ b ∈ (smallWarp (fun x => { x with batches := [batch1 false], arch := (x.arch.setS 1 5) })).cw.batches, b.done = true ∨ 1 < b.no.toNat)
      ∧ (smallWarp (fun x => { x with batches := [batch1 false] })).cw.batches[0]? = some (batch1 false)
      ∧ (∀ e ∈ [batch1 false], e.no < (batch1 false).no → e.done = true)
      ∧ (smallWarp (fun x => { x with batches := [batch1 true] })).cw.batches[0]? = some (batch1 true) := by
  refine ⟨by decide +kernel, by decide +kernel, by decide +kernel, canTrap _ _ (by decide +kernel), by decide +kernel⟩

/-! ### Engines -/

/-- Registers 1, 2 and 3 hold a destination, a source and a length; block 1 is a cluster of one and owns no FIFO. -/
def engine (x y z : Nat) : State :=
  { smallArch (fun a => ((a.setS 1 (BitVec.ofNat 64 x)).setS 2 (BitVec.ofNat 64 y)).setS 3 (BitVec.ofNat 64 z)) with
    blocks := [(1, { ctx := 1, code := 0x30000, spAlloc := 65536, handler := some 0x30000, cluster := [1] })] }

/-- Destination, source and length registers 1, 2 and 3, status register 4, flag 11. -/
def engOp : EngOp := ⟨4, 11, 1, 2, 3⟩

theorem engineTraps (x y z : Nat)
    (h : (engine x y z).unit.trap = none ∧ (engine x y z).cur.u < (engine x y z).arch.units.length
      ∧ (engine x y z).cblk.handler = some 0x30000 ∧ headerAt (engine x y z) (engine x y z).cw.ctx 0x30000 = .ok head1) : CanTrap (engine x y z) :=
  ⟨h.1, h.2.1, 0x30000, head1, h.2.2⟩

theorem witness_engine_issue :
    (∃ f, commandForm (.vecpy engOp false true 3) = some f ∧ f.aligned (engine 65532 0x40000 4) ∧ f.ranges (engine 65532 0x40000 4)
        ∧ EngReady (engine 65532 0x40000 4) ∧ ∀ k, f.fifo = some k → False)
      ∧ (∃ f, commandForm (.vecpy engOp true true 0) = some f ∧ f.aligned (engine 0 (2 ^ 23) 4) ∧ f.fromSp = true
        ∧ ¬ RangeOk (engine 0 (2 ^ 23) 4) (f.src (engine 0 (2 ^ 23) 4)) (f.len (engine 0 (2 ^ 23) 4)))
      ∧ (∃ f, commandForm (.vefill engOp false 7) = some f ∧ f.fifo = some 7 ∧ (engine 0 0 32).cblk.fifoSet.getLsbD 7 = false)
      ∧ (∃ f, commandForm (.vered engOp 0 6) = some f ∧ f.src (engine 0 1 4) % 4 ≠ 0)
      ∧ CanTrap (engine 0 1 4) ∧ EngReady (engine 0 64 0) ∧ ((engine 0 64 0).sreg 2).toNat % 64 = 0 ∧ ((engine 0 1 4).sreg 2).toNat % 64 ≠ 0
      ∧ (engine 0 0 0).cblk.ctrSet.getLsbD 31 = false := by
  have ready (x y z : Nat) (h : (engine x y z).cw.accs = [] ∧ (engine x y z).cur.guard ≠ 0 ∧ pathCount (engine x y z).cw 4 < 63) :
      EngReady (engine x y z) := ⟨h.2.1, noLoads h.1, h.2.2⟩
  refine ⟨⟨_, rfl, by unfold CommandForm.aligned; decide +kernel, ⟨fun h => by simp at h, fun _ => ⟨by decide +kernel, ?_⟩⟩,
      ready _ _ _ (by decide +kernel), fun k h => by simp at h⟩,
    ⟨_, rfl, by unfold CommandForm.aligned; decide +kernel, rfl, fun h => absurd h.1 (by decide +kernel)⟩,
    ⟨_, rfl, rfl, by decide +kernel⟩, ⟨_, rfl, by decide +kernel⟩, engineTraps _ _ _ (by decide +kernel), ready _ _ _ (by decide +kernel),
    by decide +kernel⟩
  intro a h1 h2
  have e1 : CommandForm.dst { kind := .ecpy false true 3, o := engOp, x := fun s => some (s.sreg engOp.x.toNat), unit := 4, toSp := true }
    (engine 65532 0x40000 4) = 65532 := by decide +kernel
  have e2 : CommandForm.len { kind := .ecpy false true 3, o := engOp, x := fun s => some (s.sreg engOp.x.toNat), unit := 4, toSp := true }
    (engine 65532 0x40000 4) = 4 := by decide +kernel
  have h3 : 65532 ≤ a ∧ a < 65536 := by rw [e1] at h1 h2; rw [e2] at h2; omega
  have : a = 65532 ∨ a = 65533 ∨ a = 65534 ∨ a = 65535 := by omega
  rcases this with rfl | rfl | rfl | rfl <;> exact ⟨1, by decide +kernel, by decide +kernel⟩

/-- A command of the warp: from 2^18 to 2^18, 64 bytes. -/
def cmd (kind : CmdKind) (stage : CmdStage) (pos : Nat) : Cmd :=
  { seq := 1, owner := .warp 16 1, engine := 96, core := 0, blk := 1, ctx := 1, cls := 0, kind, x := 0x40000, y := 0x40000, len := 64, sd := 4, cf := 11,
    stage, waits := [], pos, segEnd := pos, pins := [], pages := [], buf := [], stop := none, parked := false, desc := [], comm := none,
    name := none, pair := none, round := none }

/-- Register 8 holds 2^18; agents 0, 96 and 99 hold all tokens of sectors there. -/
def commanded (c : Cmd) : State :=
  { named 4 with
    cmds := [c]
    tok := { held := [(96 * 2 ^ 46 + 2 ^ 42 + 0x1000, { tokens := 2048, owner := true, valid := true })]
             homes := [(2 ^ 42 + 0x1000, { owner := false, count := 0 })] } }

theorem witness_engine_handover :
    (commanded (cmd (.ered 0 6) .issued 0)).cmds[0]? = some (cmd (.ered 0 6) .issued 0) ∧ (CmdKind.ered 0 6).isStep = false
      ∧ (commanded (cmd (.epkt false 0) .issued 0)).cw.accs = [] ∧ (CmdKind.epkt false 0).isStep = true
      ∧ (readGlobal (commanded (cmd (.epkt false 0) .issued 0)) (cmd (.epkt false 0) .issued 0) 0x40000 64).1 = .bytes (List.replicate 64 0)
      ∧ (readGlobal (commanded (cmd (.epkt false 0) .issued 0)) (cmd (.epkt false 0) .issued 0) (2 ^ 30) 64).1 = .fail (2 ^ 30)
      ∧ resolve (commanded (cmd (.epkt false 0) .issued 0)) 0 = .live 0 ∧ resolve (commanded (cmd (.epkt false 0) .issued 0)) 2 = .absent
      ∧ mayUse (commanded (cmd (.epkt false 0) .issued 0)) 1 (nameEntry (commanded (cmd (.epkt false 0) .issued 0)) 0) = true
      ∧ (nameEntry (commanded (cmd (.epkt false 0) .issued 0)) 0).w0.toNat / 2 ^ 56 = 4
      ∧ (nameEntry (commanded (cmd (.epkt false 0) .issued 0)) 8).w0.toNat / 2 ^ 56 ≠ 4
      ∧ ((nameEntry (commanded (cmd (.epkt false 0) .issued 0)) 0).holds ≠ 65535
        ∧ TableWritable (commanded { cmd (.epkt false 0) .issued 0 with desc := List.replicate 64 0 }) 0) := by
  unfold TableWritable
  decide +kernel

theorem witness_engine_segments :
    let c := cmd (.ecpy true false 0) .running 0
    let s := commanded c
    c.kind.toGlobal = true ∧ c.pos = c.segEnd ∧ c.stop = none ∧ c.pos ≠ c.len ∧ (cmd (.ecpy false true 0) .running 0).kind.toGlobal = false
      ∧ (placePages c 18 0x40000 (0x40000 + 64) s []).1 = .all
      ∧ satisfied (placePages c 18 0x40000 (0x40000 + 64) s []).2.2 (engineAgent s c.engine)
          (destAddr { c with pages := (placePages c 18 0x40000 (0x40000 + 64) s []).2.1 } 0x40000 / 64) true = true
      ∧ ¬ ((commanded (cmd .eblkPut .running 0)).ev.flag = false ∧ 0x40000 + 64 ≤ ((commanded (cmd .eblkPut .running 0)).block 1).poolSize)
      ∧ (c.pins = [] ∧ s.tok.pins = []) ∧ (0, 16, 0) ∈ readyHeads (commanded (cmd (.ered 0 6) .queued 0)) 96
      ∧ ∀ e ∈ (commanded (cmd (.ered 0 6) .queued 0)).cmds, e.engine = 96 → e.stage ≠ .running := by decide +kernel

theorem witness_engine_room :
    let c : Cmd := { cmd (.epkt false 0) .queued 4096 with len := 8192, pair := some 3, desc := List.replicate 64 0 }
    let s (l : List (Nat × Link)) : State := { commanded c with links := l }
    (0, 3, 0) ∈ readyHeads (s [(0, { trained := true })]) 96 ∧ c.kind.isStep = true ∧ c.pos ≠ 0 ∧ stepEntry c 0 / 8192 = 0
      ∧ stepEntry c 0 / 256 % 32 = 0 ∧ ((s [(0, { trained := true })]).link 0).trained = true
      ∧ (0, 3, 0) ∈ readyHeads (s []) 96 ∧ ((s []).link 0).trained = false := by decide +kernel

theorem witness_engine_completion :
    (commanded (cmd (.ered 0 6) .running 64)).cmds[0]? = some (cmd (.ered 0 6) .running 64) ∧ (cmd (.ered 0 6) .running 64).pos = 64
      ∧ (cmd .eblkFlush .running 64).kind = .eblkFlush ∧ (cmd (.epkt false 0) .finishing 0).kind.isStep = true
      ∧ (commanded (cmd (.epkt false 0) .finishing 0)).links = [] := by decide +kernel

/-! ### Packets and rounds -/

/-- Pair 3 has a communicator at 2^18 of context 1 with identifier 3 and version 0; a packet or round message has arrived. -/
def collective (ops : Nat) (m : RoundMsg) (type : BitVec 3) (c : Cmd) : State :=
  { commanded c with
    mem := smallMem ++ [(0x40006, 3)]
    packets := [(0, ⟨0x50000, 3, 0, 0, BitVec.ofNat 64 ops, 0, 4, 1, 6, 0, 1, [1, 2, 3, 4]⟩)]
    roundMsgs := [(type, m)]
    tok := { held := [(99 * 2 ^ 46 + 2 ^ 42 + 0x1400, { tokens := 2048, owner := true, valid := true })]
             homes := [(2 ^ 42 + 0x1400, { owner := false, count := 0 })] }
    sys := { small.sys with channels := [(3, BitVec.ofNat 64 (2 ^ 63 + 0x40000 + 1))] } }

/-- A message from module 1 about round 0 of pair 3. -/
def msg (version : BitVec 32) : RoundMsg := ⟨1, 0, 3, version, 3⟩

theorem homeHasAll (ops : Nat) (type : BitVec 3) (c : Cmd) (da : Nat)
    (h : isHomeOf (collective ops (msg 0) type c) (homeAgent (collective ops (msg 0) type c).sys (da / 64 * 64)) (da / 64) = true
      ∧ (holding (collective ops (msg 0) type c) (homeAgent (collective ops (msg 0) type c).sys (da / 64 * 64)) (da / 64)).tokens = 2048
      ∧ blockedFor (collective ops (msg 0) type c) (homeAgent (collective ops (msg 0) type c).sys (da / 64 * 64)) (da / 64) = false
      ∧ isPending (collective ops (msg 0) type c) (homeAgent (collective ops (msg 0) type c).sys (da / 64 * 64)) (da / 64) = false
      ∧ (∀ p ∈ (collective ops (msg 0) type c).tok.pins, p.sector ≠ da / 64)
      ∧ (∀ f ∈ (collective ops (msg 0) type c).tok.flights, f.msg.sector ≠ da / 64)
      ∧ ∀ e ∈ (collective ops (msg 0) type c).tok.held, e.1 % 2 ^ 46 ≠ da / 64) : HomeHasAll (collective ops (msg 0) type c) da := h

theorem objectReadable (s : State) (h : commOf s 3 = some ⟨0x40000, 1, 3 * 2 ^ 48⟩ ∧ domainAddr s.sys 0x40000 = some (2 ^ 48 + 0x40000)
    ∧ canRead s (objectAgent s ((2 ^ 48 + 0x40000) / 64)) ((2 ^ 48 + 0x40000) / 64) = true) : ObjectReadable s 3 := by
  intro o da h1 h2
  rw [h.1, Option.some.injEq] at h1
  subst h1
  rw [h.2.1, Option.some.injEq] at h2
  subst h2
  exact h.2.2

/-- Every hypothesis of the packet statements but the entry's operation. -/
theorem witness_packets :
    let s := collective (2 ^ 13) (msg 0) 0 (cmd (.ered 0 6) .queued 0)
    ObjectReadable s 3 ∧ ∃ p o, s.packets[0]? = some (0, p) ∧ s.sys.span = .service ∧ commOf s 3 = some o ∧ entryField p 4 3 = s.sys.modid.toNat
      ∧ o.w0 / 2 ^ 48 % 2 ^ 16 = p.cid.toNat ∧ o.w0 / 2 ^ 16 % 2 ^ 32 = p.version.toNat ∧ entryField p 13 3 = 1
      ∧ placeChunk s o.ctx p.dstc.toNat p.payload.length = some [(2 ^ 48 + 0x50000, 0, 4)]
      ∧ domainAddr s.sys (o.base + 0x1000) = some (2 ^ 48 + 0x41000) ∧ localAddr s.sys (2 ^ 48 + 0x41000) = some 0x41000
      ∧ satisfied s (ownAgent s.sys (receiver s p (2 ^ 48 + 0x50000))) ((2 ^ 48 + 0x50000) / 64) true = true
      ∧ s.tok.pins = [] ∧ isHomeOf s (ownAgent s.sys (receiver s p (2 ^ 48 + 0x50000))) ((2 ^ 48 + 0x50000) / 64) = false
      ∧ HomeHasAll s (2 ^ 48 + 0x41000)
      ∧ placeChunk s o.ctx (2 ^ 30) 4 = none ∧ (s.link 0).trained = false ∧ commOf s 4 = none := by
  refine ⟨?_, ⟨0x50000, 3, 0, 0, BitVec.ofNat 64 (2 ^ 13), 0, 4, 1, 6, 0, 1, [1, 2, 3, 4]⟩, ⟨0x40000, 1, 3 * 2 ^ 48⟩, ?_⟩
  · exact objectReadable _ (by decide +kernel)
  · unfold HomeHasAll
    decide +kernel

/-- What a packet's placement reads can be read, and none of it is written. -/
theorem witness_hop_reads :
    let s := collective (2 ^ 13) (msg 0) 0 (cmd (.ered 0 6) .queued 0)
    let p : Packet := ⟨0x50000, 3, 0, 0, BitVec.ofNat 64 (2 ^ 13), 0, 4, 1, 6, 0, 1, [1, 2, 3, 4]⟩
    HopReads s p ⟨0x40000, 1, 3 * 2 ^ 48⟩ ((2 ^ 48 + 0x41000) / 64 :: [(2 ^ 48 + 0x50000) / 64]) := by
  refine ⟨by decide +kernel, fun da h => ?_⟩
  rw [show domainAddr (collective (2 ^ 13) (msg 0) 0 (cmd (.ered 0 6) .queued 0)).sys 0x40000 = some (2 ^ 48 + 0x40000) by decide +kernel,
    Option.some.injEq] at h
  subst h
  decide

theorem witness_packet_forwarded : let k := ({ small with links := [(31, { trained := true })] } : State).link 31
    k.trained = true ∧ Sparse.get 0 k.used 3 + 4 ≤ 2 ^ 20 := by decide +kernel

theorem witness_rounds_at_receiver :
    let s := collective 0 (msg 0) 0 (cmd (.ered 0 6) .queued 0)
    let held (p : BitVec 3) : State := { s with rounds := [⟨3, 0, p, 3, false⟩], ev := { flag := true } }
    ObjectReadable s 3 ∧ s.sys.span = .service
      ∧ (∃ o, commOf s 3 = some o ∧ o.w0 / 2 ^ 16 % 2 ^ 32 = 0 ∧ o.w0 < 2 ^ 64 ∧ domainAddr s.sys o.base = some (2 ^ 48 + 0x40000))
      ∧ (∃ o, commOf s 3 = some o ∧ o.w0 / 2 ^ 16 % 2 ^ 32 ≠ 1) ∧ heldFor s 3 0 = none
      ∧ heldFor (held 1) 3 0 = some ⟨3, 0, 1, 3, false⟩ ∧ ownPacketsGone { held 1 with packets := [] } 3 0 = true
      ∧ heldFor (held 0) 3 0 = some ⟨3, 0, 0, 3, false⟩ ∧ heldFor (held 2) 3 0 = some ⟨3, 0, 2, 3, false⟩
      ∧ localAddr s.sys (2 ^ 48 + 0x40000) = some 0x40000 ∧ HomeHasAll s (2 ^ 48 + 0x40000) := by
  refine ⟨objectReadable _ (by decide +kernel), rfl, ⟨⟨0x40000, 1, 3 * 2 ^ 48⟩, by decide +kernel⟩,
    ⟨⟨0x40000, 1, 3 * 2 ^ 48⟩, by decide +kernel⟩, by decide +kernel,
    by decide +kernel, by decide +kernel, by decide +kernel, by decide +kernel, by decide +kernel, homeHasAll _ _ _ _ (by decide +kernel)⟩

theorem witness_rounds_at_proposer :
    let c := { cmd (.epkt false 0) .running 0 with round := some ⟨3, 0, 3, 2, 2⟩ }
    let s := collective 0 (msg 0) 5 c
    s.roundMsgs[0]? = some (5, msg 0) ∧ InRound s (msg 0) 0 c ⟨3, 0, 3, 2, 2⟩ := by
  exact ⟨rfl, rfl, rfl, rfl, rfl, fun j _ _ h => absurd h (by omega)⟩

/-! ### Names at the table -/

/-- An operation of the warp on name 0 or another; core 0's L2 holds the sector at 2^18 whole. -/
def nameOp (kind : NameOpKind) (name : BitVec 128) (b0 : W64) : NameOp :=
  { asker := .warp 16 1 4, kind, ctx := 1, name, b0, b1 := 128, n0 := BitVec.ofNat 64 (2 * 2 ^ 56), n1 := 0,
    out := some (2 ^ 48 + 0x40000, 2 ^ 48 + 0x40008), waitFlash := false }

/-- Names 0 and 1 stand, 2 is the next, and an operation is at the table. -/
def tabled (o : NameOp) (f : NameState → NameState) : State :=
  { named 4 with names := f { (named 4).names with resEnd := 100, ops := [o] } }

theorem witness_names_known :
    let s := tabled (nameOp .look 0 0) id
    KnownName s 0 ∧ ¬ KnownName s 2 ∧ findEntry s 0 = some 0 ∧ (nameEntry s 0).state = 1 ∧ mayUse s 1 (nameEntry s 0) = true
      ∧ (tabled (nameOp .look 0 0) (fun n => { n with table := [] })).names.next = 2
      ∧ findEntry (tabled (nameOp .look 0 0) (fun n => { n with table := [] })) 0 = none
      ∧ (0 : W64) ∉ askerHolds s (nameOp .look 0 0) ∧ ¬ MayChange s 1 (nameEntry s 0) 3
      ∧ mayUse s 2 (nameEntry s 0) = false ∧ ¬ MayCreate s (nameOp .new 0 (BitVec.ofNat 64 (2 ^ 56))) := by
  refine ⟨?_, ?_, by decide +kernel, by decide +kernel, by decide +kernel, by decide +kernel, by decide +kernel, by decide +kernel, ?_,
    by decide +kernel, ?_⟩
  · unfold KnownName; decide +kernel
  · unfold KnownName; decide +kernel
  · unfold MayChange HasRight; decide +kernel
  · rintro (h | h | ⟨⟨k, h⟩, _⟩)
    · exact absurd h (by decide +kernel)
    · exact absurd h (by decide +kernel)
    · exact absurd h (by simp [nameOp])

/-- Entry 0 has every right, or is held by the warp. -/
def rights (n : NameState) : NameState :=
  { n with table := [(0, { counter := 0, state := 1, ctx := 1, w0 := 0, w1 := BitVec.ofNat 64 (2 ^ 48 - 2 ^ 40) }), (8, (Sparse.get {} n.table 8))] }

theorem witness_names_changed :
    let s := tabled (nameOp .delete 0 0) rights
    MayChange s 1 (nameEntry s 0) 3 ∧ MayChange s 1 (nameEntry s 0) 4 ∧ (nameEntry s 0).holds = 0 ∧ s.names.reclaim.getLsbD 0 = false
      ∧ ((nameEntry s 0).w0 = (nameOp .cas 0 0).b0 ∧ (nameEntry s 0).w1 ≠ (nameOp .cas 0 0).b1)
      ∧ (1 ≤ ((nameOp .cas 0 0).n0.extractLsb' 56 8).toNat ∧ TableWritable s 0 ∧ StoresAt s (nameOp .cas 0 0) (2 ^ 48 + 0x40000))
      ∧ (0 : W64) ∈ askerHolds (s.setWarp 16 { s.warp 16 with holds := [0] }) (nameOp .release 0 0) := by
  refine ⟨.inr ⟨by decide +kernel, by unfold HasRight; decide +kernel⟩, .inr ⟨by decide +kernel, by unfold HasRight; decide +kernel⟩,
    by decide +kernel, by decide +kernel, by decide +kernel, ⟨by decide +kernel, ?_, rfl, by unfold OwnsAll; decide +kernel⟩,
    by decide +kernel⟩
  unfold TableWritable
  decide +kernel

/-- The warp holds the name of a tombstone, and of a live entry. -/
theorem witness_names_released :
    let s (state : BitVec 2) := (tabled (nameOp .release 0 0) (fun n => { n with reclaim := 0x41001, table :=
      [(0, { counter := 0, state := state, ctx := 1, holds := 1, w0 := 0, w1 := BitVec.ofNat 64 (2 ^ 48 - 2 ^ 40) })] })).setWarp 16
        { small.cw with holds := [0] }
    (nameEntry (s 2) 0).state = 2 ∧ (nameEntry (s 2) 0).holds = 1 ∧ (nameEntry (s 1) 0).state ≠ 2 ∧ KnownName (s 2) 0 ∧ findEntry (s 2) 0 = some 0
      ∧ mayUse (s 2) 1 (nameEntry (s 2) 0) = true ∧ (0 : W64) ∈ askerHolds (s 2) (nameOp .release 0 0)
      ∧ TableWritable (setAskerHold (s 2) (nameOp .release 0 0) false 0) 0 ∧ (askerHolds (s 2) (nameOp .lookHold 0 0)).length < 16 := by
  unfold KnownName TableWritable
  decide +kernel

theorem witness_names_created :
    let s := tabled (nameOp .new 0 (BitVec.ofNat 64 (7 * 2 ^ 56))) id
    MayCreate s (nameOp .new 0 (BitVec.ofNat 64 (7 * 2 ^ 56))) ∧ s.names.flashBusy = false ∧ s.names.next.toNat + 1 < s.names.resEnd.toNat
      ∧ (nameKeys s.names.next.toNat).find? (fun k => (nameEntry s k).state == 0) = some 16
      ∧ (StoresAt s (nameOp .new 0 (BitVec.ofNat 64 (7 * 2 ^ 56))) (2 ^ 48 + 0x40000)
        ∧ TableWritable { s with names := { s.names with next := s.names.next + 1 } } 16)
      ∧ (tabled (nameOp .new 0 0) (fun n => { n with resEnd := 3 })).names.resEnd.toNat
          ≤ (tabled (nameOp .new 0 0) (fun n => { n with resEnd := 3 })).names.next.toNat + 1
      ∧ (tabled (nameOp .new 0 0) (fun n => { n with flashBusy := true })).names.flashBusy = true :=
  ⟨.inr (.inl (by decide +kernel)), by decide +kernel, by decide +kernel, by decide +kernel,
    ⟨⟨rfl, by unfold OwnsAll; decide +kernel⟩, by unfold TableWritable; decide +kernel⟩, by decide +kernel, by decide +kernel⟩

/-- A port's operation whose operands the home has, or which nobody of this module holds. -/
theorem witness_names_fetched :
    let o := { nameOp .look 0 0 with asker := .port 0, fetch := true }
    let s (homes : Sparse HomeMeta) : State := { tabled o id with ports := [(0, { npa := 0x40000, npb := 0x40000 })], tok := { homes := homes } }
    let readable (t : State) : Prop := ∀ sec ∈ operandSectors t (t.port 0), canRead t (askerAgent t o) sec = true
    (s []).names.ops[0]? = some o ∧ readable (s []) ∧ ¬ readable (s [(2 ^ 42 + 0x1000, { owner := false, count := 0 })]) := by
  decide +kernel

theorem witness_names_reclaimed :
    let s := tabled (nameOp .delete 0 0) (fun n => { rights n with reclaim := 0x41001 })
    s.names.reclaim.getLsbD 0 = true ∧ s.names.recHead + 1 ≠ s.names.recTail
      ∧ domainAddr s.sys ((s.names.reclaim.extractLsb' 12 40).toNat * 4096 + 32 * s.names.recHead.toNat) = some (2 ^ 48 + 0x41000)
      ∧ localAddr s.sys (2 ^ 48 + 0x41000) = some 0x41000 ∧ HomeHasAll s (2 ^ 48 + 0x41000)
      ∧ ((s.port 0).npst.extractLsb' 56 8).toNat ≠ 255
      ∧ ((({ s with ports := [(0, { npst := BitVec.ofNat 64 (255 * 2 ^ 56) })] } : State).port 0).npst.extractLsb' 56 8).toNat = 255 := by
  refine ⟨by decide +kernel, by decide +kernel, by decide +kernel, by decide +kernel, ?_, by decide +kernel, by decide +kernel⟩
  unfold HomeHasAll
  decide +kernel

/-! ### Harts -/

/-- Hart 0 of context 1 with x10 = a and x11 = 7; its cache holds the sector at 2^18 whole. -/
def harted (kind a : Nat) (h : Hart → Hart) : State :=
  { named kind with
    harts := [(0, h { x := [(10, BitVec.ofNat 64 a), (11, 7)], ctx := some 1, mode := .s })]
    tok := { held := [(152 * 2 ^ 46 + 2 ^ 42 + 0x1000, { tokens := 2048, owner := true, valid := true, data := 0xFF })]
             homes := [(2 ^ 42 + 0x1000, { owner := false, count := 0 })] } }

/-- The launch record at 0x50000. -/
def record : LaunchRec := makeRec ([1, 0, 0, 0, 0, 0, 0, 0] ++ List.replicate 120 0) 0x30000 none

theorem witness_gx_launch :
    ((harted 7 0x42000 (fun h => { h with ctx := none })).hart 0).ctx = none ∧ ((harted 7 0x42000 id).hart 0).ctx = some 1
      ∧ (hartOpen (harted 7 0x42000 id) 0 = false ∧ launchWaits (harted 7 0x42000 id) 1 0x42000 = [] ∧ launchWaits (harted 7 0x42000 id) 1 (2 ^ 30) = [])
      ∧ NameRead (harted 7 0x42000 id) 1 0x42000 0 ∧ (∀ n, ¬ NameRead (harted 7 0x42000 id) 1 (2 ^ 30) n)
      ∧ launchRecord (harted 3 0x42000 id) 1 0 = .error 3 ∧ launchRecord (harted 7 0x42000 id) 1 0 = .ok record
      ∧ (queueOf (harted 7 0x42000 id) 1 record.prio).length < 1024
      ∧ 1024 ≤ (queueOf { harted 7 0x42000 id with queues := [(4, List.replicate 1024 0)] } 1 record.prio).length := by
  refine ⟨by decide +kernel, by decide +kernel, by decide +kernel, ⟨by decide, List.replicate 16 0, by decide +kernel, by decide +kernel⟩, ?_,
    by decide +kernel⟩
  rintro n ⟨_, bs, h, _⟩
  rw [show readVirtual (harted 7 0x42000 id) 1 (2 ^ 30) 16 = none by decide +kernel] at h
  exact absurd h (by simp)

theorem witness_gx_replay :
    ((harted 7 1 (fun h => { h with mode := .u })).hart 0).mode = .u ∧ ((harted 7 1 id).hart 0).mode ≠ .u
      ∧ (descriptor (harted 7 1 id) 1).valid = true ∧ ((harted 7 1 id).hart 0).part = 0 ∧ ¬ (4096 : Nat) < 4096
      ∧ parkedCount (harted 7 1 id) 1 < 2 ^ 56 ∧ hartOpen (harted 7 1 id) 0 = false := by decide +kernel

theorem witness_hart_memory :
    HartMay (harted 7 0 id) 0 0x40038 8 (2 ^ 48 + 0x40038) true ∧ HartMay (harted 7 0 id) 0 0x4003F 1 (2 ^ 48 + 0x4003F) false
      ∧ ((harted 7 0 (fun h => { h with reserved := some (2 ^ 42 + 0x1000) })).hart 0).reserved = some ((2 ^ 48 + 0x40038) / 64)
      ∧ ((harted 7 0 id).hart 0).reserved ≠ some ((2 ^ 48 + 0x40038) / 64) ∧ HartReleases (harted 7 0 id) 0 := by
  unfold HartMay HartReleases
  decide +kernel

/-- A hart with an open store, and one whose port is busy. -/
theorem witness_hart_fences :
    (harted 7 0 id).sys.span = .service ∧ ((harted 7 0 id).hart 0).wait = none ∧ ((harted 7 0 id).hart 0).buffer = []
      ∧ ((harted 7 0 (fun h => { h with buffer := [(2 ^ 48 + 0x40000, [1])] })).hart 0).buffer ≠ []
      ∧ (({ harted 7 0 id with ports := [(0, { npst := BitVec.ofNat 64 (255 * 2 ^ 56) })] } : State).port 0).npst.extractLsb' 56 8 = 255 := by
  decide +kernel

theorem witness_hart_registers : supervisor ((harted 7 0 id).hart 0) = true ∧ supervisor ((harted 7 0 (fun h => { h with mode := .vu })).hart 0) = false
    ∧ ((harted 7 0 id).port 63).npst.extractLsb' 56 8 ≠ 255 ∧ 7 < ((harted 7 0 id).core 95).faults.length := by decide +kernel

/-- The registers at both ends of the window's ranges, an address of none, and a hart of another partition. -/
theorem witness_control_window :
    (∀ off ∈ [0, 0x18, 0x10000, 0x15F88, 0x20000, 0x20FE8, 0x30078, 0x60178, 0x70008, 0x400000, 0x5FFFF8],
      physPlace (harted 7 0 id).sys (15 * 2 ^ 48 + off) = .control off ∧ off % 8 = 0)
      ∧ physPlace (harted 7 0 id).sys (15 * 2 ^ 48 + 0x800000) = .nowhere
      ∧ supervisor ((harted 7 0 id).hart 0) = true ∧ supervisor ((harted 7 0 (fun h => { h with mode := .u })).hart 0) = false
      ∧ osHart ((harted 7 0 id).hart 0) = true ∧ osHart ((harted 7 0 (fun h => { h with part := 1 })).hart 0) = false
      ∧ (harted 7 0 id).sys.span = .service ∧ ((harted 7 0 id).hart 0).wait = none ∧ ((harted 7 0 id).core 95).faults.length = 8
      ∧ ((harted 7 0 id).port 63).npst.extractLsb' 56 8 ≠ 255 ∧ (harted 7 0 id).sys.clk < 65536 := by
  decide +kernel

/-! ### Blocks, grids and graphs -/

/-- Core 0 works and no other; grid 1 waits in class 0, and a block of class 3 may hold the core's scratchpad. -/
def launching (resident : Bool) (status : BlockStatus) : State :=
  { small with
    warps := []
    blocks := if resident then [(1, { ctx := 1, cls := 3, spAlloc := 0x180000, status := status })] else []
    grids := [(1, { ctx := 1, launch := { record with spAlloc := 4096 }, parent := .hart, doneVal := 1, s0 := 5, dbase := 0, copy := .whole,
                    dispatched := 0, ended := 0, rounds := [], completed := false })]
    queues := [(4, [1])]
    cores := [(1, { fenced := true }), (2, { fenced := true }), (3, { fenced := true })]
    sys := { small.sys with pass := 1 }
    ev := { k := 1 } }

theorem witness_dispatch :
    allWork (launching false .resident) = [(0, 1, .fresh 1 1)] ∧ coresFor (launching false .resident) (.fresh 1 1) [] = some [0]
      ∧ coresFor (launching true .resident) (.fresh 1 1) [] = none ∧ (workNeed (launching false .resident) (.fresh 1 1)).2 = 1 := by
  decide +kernel

theorem witness_data_copied : DataCopied (launching false .resident) := by
  intro q gid g hq hg hf
  have h1 : ∀ q ∈ (launching false .resident).queues, q.2 = [1] := by decide +kernel
  rw [h1 q hq, List.mem_singleton] at hg
  subst hg
  rw [show Sparse.find (launching false .resident).grids 1 = some ((launching false .resident).grids.head!).2 by decide +kernel,
    Option.some.injEq] at hf
  subst hf
  decide +kernel

theorem witness_preemption :
    (0, 1, Work.fresh 1 1) ∈ allWork (launching true .resident)
      ∧ coresFor (launching true .resident) (.fresh 1 1) (stoppingBlocks (launching true .resident)) = none
      ∧ victims (launching true .resident) 0 (.fresh 1 1) = [(3, 0, [1])]
      ∧ ((launching true .stopping).block 1).status = .stopping ∧ Drained (launching true .stopping) 1
      ∧ ((launching true .resident).block 1).status ≠ .stopping := by
  refine ⟨by decide +kernel, by decide +kernel, by decide +kernel, by decide +kernel, ⟨fun e he => ?_, by decide +kernel, ?_, .inr ?_⟩,
    by decide +kernel⟩
  · rw [show (launching true .stopping).warps = [] by decide +kernel] at he
    exact absurd he (by simp)
  · intro o w id sd h
    rw [show (launching true .stopping).names.ops = [] by decide +kernel] at h
    exact absurd h (by simp)
  · intro c w id h
    rw [show (launching true .stopping).cmds = [] by decide +kernel] at h
    exact absurd h (by simp)

/-- Context 1 has waited since time 0 at a full/empty word or not, and the clock stands at 20 µs. -/
def waiting (now : Nat) (f : State → State) : State :=
  f { smallUnit (fun v => { v with hold := .fullEmpty, fe := 1 }) with
      waitSince := [(1, 0)]
      sys := { small.sys with auxTime := now }
      ev := { ctx := 1 } }

/-- The context's donation, over or not. -/
def donation (ended : Bool) (fes : List (Nat × Nat × Bool)) : Donation := ⟨1, 0, [], ended, fes, [], []⟩

theorem witness_donations :
    Sparse.find (waiting 20000 id).waitSince 1 = some 0 ∧ (waiting 19999 id).now < 0 + 20000 ∧ 0 + 20000 ≤ (waiting 20000 id).now
      ∧ Waits (waiting 20000 id) 1 ∧ watchedSectors (waiting 20000 id) 1 = []
      ∧ (waiting 0 (fun s => { s with donations := [donation true []] })).donations[0]? = some (donation true [])
      ∧ spFull (waiting 0 id) 1 0 ≠ true ∧ (waiting 0 (fun s => { s with donations := [donation false []] })).removing = [] := by
  refine ⟨by decide +kernel, by decide +kernel, by decide +kernel, ⟨by decide +kernel, ?_⟩, by decide +kernel⟩
  have h : residentWarps (waiting 20000 id) 1 = (waiting 20000 id).warps := by decide +kernel
  rw [h]
  refine fun e he => ⟨by revert e; decide +kernel, fun v hv => ?_⟩
  have h1 : ∀ e ∈ (waiting 20000 id).warps, ∀ v ∈ e.2.arch.units, countsForDonation v = true := by decide +kernel
  exact h1 e he v hv

/-- A checkpoint of the warp of block 1, and an undo entry. -/
def saved : State := { small with
  blocks := [(1, { ctx := 1, eligible := true, ckpt := some ⟨[(16, warp1.arch, none)], [], [], [], 0, 1, [], [], []⟩, undo := [⟨5, 77, true⟩] })]
  ev := { k := 1, ctx := 1 } }

theorem witness_removals_and_rollbacks :
    partOf small 1 ≠ 0 ∧ partOf { small with mem := smallMem.filter (fun e => e.1 != 0x28) } 1 = 0 ∧ small.removing = []
      ∧ ((Sparse.find small.blocks 1).map (·.eligible)) = some false ∧ ((Sparse.find small.blocks 1).map (·.status)) = some .resident
      ∧ ((Sparse.find saved.blocks 1).map (·.eligible)) = some true
      ∧ ((Sparse.find saved.blocks 1).map (·.ckpt)) = some (some ⟨[(16, warp1.arch, none)], [], [], [], 0, 1, [], [], []⟩)
      ∧ small.sys.span = .service ∧ ((saved.block 1).undo.map (·.word)).Nodup ∧ ∀ v ∈ warp1.arch.units, v.entering = false := by decide +kernel

/-- Grid 1 of node 0 has ended and stores its number at an address or nowhere; the graph's node record is at 0x50040. -/
def graphed (done : Nat) (node : List Host.Cell) (v : NodeState) : State :=
  { small with
    mem := smallMem ++ node
    grids := [(1, { ctx := 1, launch := { record with done := BitVec.ofNat 64 done }, parent := .node 1 0, doneVal := 9, s0 := 0, dbase := 0,
                    dispatched := 1, ended := 1, rounds := [], completed := false })]
    graphs := [(1, { ctx := 1, name := 0, base := 0x50000, blk := 1, engine := 96, core := 0, cls := 0, nodes := [v], status := 0, ended := false })]
    tok := { held := [(220 * 2 ^ 46 + 2 ^ 42 + 0x1400, { tokens := 2048, owner := true, valid := true }),
                      (221 * 2 ^ 46 + 2 ^ 42 + 0x1000, { tokens := 2048, owner := true, valid := true })]
             homes := [(2 ^ 42 + 0x1000, { owner := false, count := 0 }), (2 ^ 42 + 0x1400, { owner := false, count := 0 })] }
    ev := { k := 1, node := 0 } }

/-- A node without predecessors, ready, running, or ended with status 3. -/
def node0 (ready running : Bool) (result : Option W64) : NodeState := ⟨0, 0, ready, running, false, result⟩

theorem witness_grid_completion :
    let s := graphed 0x40000 [] (node0 false true none)
    (∃ g, Sparse.find s.grids 1 = some g ∧ g.completed = false ∧ g.ended = g.launch.gridM1.toNat + 1 ∧ g.rounds = []
        ∧ g.ctx = 1 ∧ g.launch.done.toNat = 0x40000)
      ∧ StorePlaced s (ownAgent s.sys 221) 1 0x40000 (2 ^ 48 + 0x40000)
      ∧ (∀ sec ∈ walkSectors (graphed (2 ^ 30) [] (node0 false true none)) 1 (2 ^ 30),
          canRead (graphed (2 ^ 30) [] (node0 false true none)) (ownAgent s.sys 221) sec = true)
      ∧ translatePure (graphed (2 ^ 30) [] (node0 false true none)) 1 (2 ^ 30) .store = .fail 4
      ∧ ((Sparse.find (graphed 0 [] (node0 false true none)).grids 1).map (·.launch.done)) = some 0 := by
  refine ⟨⟨_, rfl, rfl, by decide +kernel, rfl, rfl, by decide +kernel⟩,
    ⟨(readUnderTokens (graphed 0x40000 [] (node0 false true none)) (ownAgent small.sys 221)
      (walkSectors (graphed 0x40000 [] (node0 false true none)) 1 0x40000)).2, false, by decide +kernel, by decide +kernel, ?_⟩,
    by decide +kernel, by decide +kernel, by decide +kernel⟩
  unfold OwnsAll
  decide +kernel

theorem witness_graph_reads :
    (∀ e ∈ [(0, 6), (0, 2), (0, 7)], nodeWaits (graphed 0 [(0x50040 + e.1, BitVec.ofNat 8 e.2)] (node0 true false none))
        { ctx := 1, name := 0, base := 0x50000, blk := 1, engine := 96, core := 0, cls := 0, nodes := [], status := 0, ended := false } 0 = [])
      ∧ (Sparse.find (graphed 0 [(0x50040, 1)] (node0 true false none)).graphs 1).map
          (fun g => recordWaits (takeNode (graphed 0 [(0x50040, 1)] (node0 true false none)) g 0) 1 0) = some []
      ∧ (readNode (graphed 0 [(0x50040, 4), (0x50061, 0x20), (0x50062, 4)] (node0 true false none)) 1 0x50000 0).map (·.a) = some 0x42000
      ∧ unreadable (graphed 0 [(0x50040, 4), (0x50061, 0x20), (0x50062, 4)] (node0 true false none)) (walkerAgent small) 1 0x42000 8 = []
      ∧ readVirtual (graphed 0 [(0x50040, 4), (0x50061, 0x20), (0x50062, 4)] (node0 true false none)) 1 0x42000 8 = some (List.replicate 8 0)
      ∧ small.names.reclaim.getLsbD 0 = false := by
  decide +kernel

/-- The state in which node 0 has ended and been read, and the one in which its graph's STATUS is placed. -/
def nodeEnded : State :=
  takeNode (graphed 0 [(0x50040, 6)] (node0 false true (some 3)))
    { ctx := 1, name := 0, base := 0x50000, blk := 1, engine := 96, core := 0, cls := 0, nodes := [node0 false true (some 3)],
      status := 0, ended := false } 0

theorem ended_graph_stores : StorePlaced nodeEnded (walkerAgent small) 1 (0x50000 + 8) (2 ^ 48 + 0x50008) := by
  refine ⟨(readUnderTokens nodeEnded (walkerAgent small) (walkSectors nodeEnded 1 (0x50000 + 8))).2, false, by decide +kernel,
    by decide +kernel, ?_⟩
  unfold OwnsAll
  decide +kernel

theorem witness_graph_nodes :
    (∃ g v r, nodeOf (graphed 0 [(0x50040, 6)] (node0 true false none)) 1 0 g v ∧ v.ready = true ∧ v.running = false ∧ g.ended = false
        ∧ g.status = 0 ∧ readNode (graphed 0 [(0x50040, 6)] (node0 true false none)) g.ctx g.base 0 = some r ∧ r.type = 6)
      ∧ (∃ r, readNode (graphed 0 [(0x50040, 2), (0x50070, 4)] (node0 true false none)) 1 0x50000 0 = some r ∧ r.type = 2
        ∧ r.a.toNat % 4 = 0 ∧ r.b.toNat % 4 = 0 ∧ r.len = 4)
      ∧ (∃ r, readNode (graphed 0 [(0x50040, 7)] (node0 true false none)) 1 0x50000 0 = some r ∧ r.type = 7)
      ∧ ∃ g v r, nodeOf (graphed 0 [(0x50040, 6)] (node0 false true (some 3))) 1 0 g v ∧ v.running = true ∧ v.result = some 3
        ∧ readNode (graphed 0 [(0x50040, 6)] (node0 false true (some 3))) g.ctx g.base 0 = some r
        ∧ StorePlaced (takeNode (graphed 0 [(0x50040, 6)] (node0 false true (some 3))) g 0) (walkerAgent small) 1 (0x50000 + 8) (2 ^ 48 + 0x50008) := by
  refine ⟨⟨_, _, ⟨6, 0, [0, 0, 0, 0], 0, 0, 0, 0, 0⟩, ⟨rfl, rfl⟩, rfl, rfl, rfl, rfl, by decide +kernel, rfl⟩,
    ⟨⟨2, 0, [0, 0, 0, 0], 0, 0, 0, 4, 0⟩, by decide +kernel, rfl, by decide, by decide, rfl⟩,
    ⟨⟨7, 0, [0, 0, 0, 0], 0, 0, 0, 0, 0⟩, by decide +kernel, rfl⟩,
    ⟨_, _, ⟨6, 0, [0, 0, 0, 0], 0, 0, 0, 0, 0⟩, ⟨rfl, rfl⟩, rfl, rfl, by decide +kernel, ?_⟩⟩
  exact ended_graph_stores

/-! ### Tokens -/

/-- The sector that the token tests are about. -/
def sec0 : Nat := 2 ^ 42 + 0x1000

/-- A message of a type about that sector. -/
def about (type : BitVec 8) (src : BitVec 13) (count : BitVec 11) (owner : Bool) (data : Option SectorData) : Msg :=
  { type := type, reqid := 5, sector := sec0, dst := 0, src := src, count := count, data := data, tc := 1, dirty := owner,
    owner := owner, serial := 0, poison := false }

/-- It reaches core 0, which holds `n` tokens of the sector, or another agent. -/
def reached (m : Msg) (n : Nat) (owner : Bool) (f : State → State) : State :=
  f { small with
    tok := { held := [(sec0, { tokens := n, owner := owner, valid := decide (0 < n) })]
             homes := [(sec0, { owner := false, count := 0 })]
             flights := [⟨m, [0], false, false⟩] }
    ev := { agent := 0, k := 0, sector := sec0 } }

/-- The home of the sector. -/
def home0 : BitVec 13 := homeOf small sec0

/-- The winner of a persistent request at core 0, or a freeze. -/
def acted (x : ActState) (s : State) : State := { s with tok := { s.tok with acts := [(sec0, x)] } }

theorem witness_requests_answered :
    let rds := reached (about 1 3 0 false none) 2 true id
    Arrives rds ⟨about 1 3 0 false none, [0], false, false⟩ 1 ∧ Proper ⟨about 1 3 0 false none, [0], false, false⟩ ∧ pins rds 0 sec0 = false
      ∧ (actState rds 0 sec0).frozen = false ∧ (actState rds 0 sec0).winner = none ∧ accessReady rds 0 sec0 = false
      ∧ accessReady { rds with warps := [(16, { warp1 with accs := [access .load none (some toV3) [part 0 (2 ^ 48 + 0x40000)]] })] } 0 sec0 = true
      ∧ (holding rds 0 sec0).owner = true ∧ 2 ≤ (holding rds 0 sec0).tokens ∧ NoTlb 0
      ∧ (holding (reached (about 1 3 0 false none) 0 false id) 0 sec0).tokens = 0
      ∧ (holding (reached (about 1 3 0 false none) 1 true id) 0 sec0).tokens = 1
      ∧ Arrives (reached (about 2 3 0 false none) 2 false id) ⟨about 2 3 0 false none, [0], false, false⟩ 2
      ∧ pins (reached (about 1 3 0 false none) 2 true (fun s => { s with tok := { s.tok with pins := [⟨0, sec0, []⟩] } })) 0 sec0 = true
      ∧ (actState (reached (about 1 3 0 false none) 2 true (acted { frozen := true })) 0 sec0).frozen = true := by
  unfold Arrives Refused Proper NoTlb
  decide +kernel

theorem witness_tokens_arrive :
    let m := about 4 3 6 true (some 1)
    let s := reached m 3 false id
    Arrives s ⟨m, [0], false, false⟩ 4 ∧ isOwnAgent s.sys 0 = true ∧ Proper ⟨m, [0], false, false⟩ ∧ s.tok.discard = []
      ∧ isHomeOf s 0 sec0 = false ∧ (actState s 0 sec0).winner = none
      ∧ ¬ Proper ⟨about 4 3 6 true none, [0], false, false⟩ := by
  unfold Arrives Refused Proper
  decide +kernel

theorem witness_tokens_come_home :
    let m := { about 5 0 2047 true (some 1) with dst := home0 }
    let s : State := { reached m 0 false id with tok := { homes := [(sec0, { owner := false, count := 0 })], flights := [⟨m, [home0], false, false⟩] }
                                                 ev := { agent := home0, k := 0 } }
    Arrives s ⟨m, [home0], false, false⟩ 5 ∧ Proper ⟨m, [home0], false, false⟩ ∧ isHomeOf s home0 sec0 = true ∧ (actState s home0 sec0).winner = none
      ∧ (holding s home0 sec0).tokens + 2048 ≤ 2048 ∧ (holding s home0 sec0).owner = false ∧ s.tok.reqs = []
      ∧ s.tok.discard = [] ∧ serialOf s sec0 = 0 := by
  unfold Arrives Refused Proper
  decide +kernel

theorem witness_tokens_forwarded :
    let m := about 3 3 6 false none
    let s := reached m 3 false (acted { winner := some 7 })
    Arrives s ⟨m, [0], false, false⟩ 3 ∧ (actState s 0 sec0).winner = some 7 ∧ (actState s 0 sec0).frozen = false ∧ pins s 0 sec0 = false
      ∧ (0xFF : BitVec 8) ∉ [1, 2, 3, 4, 5, 0x10, 0x11, 0x12, 0x13, 0x14, 0x20, 0x21, 0x22]
      ∧ keptFromEviction s 0 sec0 = false
      ∧ keptFromEviction (reached m 3 false (acted { frozen := true })) 0 sec0 = true := by
  unfold Arrives Refused
  decide +kernel

/-- Home `home0` handles message `m`, with the given requests active. -/
def atHome (m : Msg) (es : List PersistEntry) : State :=
  { small with
    tok := { homes := [(sec0, { owner := true, count := 2047 })], flights := [⟨m, [home0], false, false⟩], persist := es }
    ev := { agent := home0, k := 0, sector := sec0 } }

/-- An active request of core 3, with `q` waiting behind it. -/
def active (q : List PersistReq) : PersistEntry := ⟨sec0, ⟨3, 1, true, 0, 5⟩, 4, 0, q, false⟩

theorem witness_persistent_at_home :
    let m := about 0x10 3 1 false none
    let s := atHome m []
    PrqTaken s 0 ⟨m, [home0], false, false⟩ ∧ isHomeOf s home0 sec0 = true ∧ (3 : BitVec 13) ≠ home0
      ∧ (∀ e ∈ s.tok.persist, e.sector ≠ sec0)
      ∧ 256 ≤ ((atHome m ((List.range 256).map (fun k => { active [] with sector := sec0 + 8 * (k + 1) }))).tok.persist.filter
          (fun e => homeOf s e.sector == homeOf s sec0)).length
      ∧ (atHome (about 0x10 9 1 false none) [active []]).tok.persist.find? (fun e => e.sector == sec0) = some (active [])
      ∧ 16 ≤ (active (List.replicate 16 ⟨5, 1, true, 0, 5⟩)).queue.length := by
  refine ⟨⟨rfl, by decide +kernel, rfl, by unfold Refused; decide +kernel, fun _ => rfl, fun h => absurd h (by decide +kernel)⟩, ?_⟩
  decide +kernel

/-- Two requests reach the home in one cycle, and the one of the lower class is taken; behind a held one its source is refused. -/
theorem witness_persistent_together :
    let m := about 0x10 3 1 false none
    let first : Msg := { about 0x10 9 1 false none with tc := 0 }
    let s : State := { atHome m [] with
      tok := { flights := [⟨m, [home0], false, false⟩, ⟨first, [home0], false, false⟩] }, ev := { agent := home0, k := 0, flag := true } }
    PrqTaken s 1 ⟨first, [home0], false, false⟩
      ∧ Refused { s with tok := { flights := [⟨m, [home0], false, false⟩, ⟨m, [home0], false, true⟩] } } ⟨m, [home0], false, false⟩ := by
  refine ⟨⟨rfl, by decide +kernel, rfl, by unfold Refused; decide +kernel, fun h => absurd h (by decide +kernel), fun _ =>
    ⟨⟨_, rfl, rfl⟩, ?_⟩⟩, by unfold Refused; decide +kernel⟩
  intro j e hj he _ _ _
  match j, hj, he with
  | 0, _, he => cases he; exact .inl (by decide +kernel)
  | 1, hj, _ => exact absurd rfl hj
  | n + 2, _, he => exact absurd he (by simp)

theorem witness_persistent_ends :
    let s := atHome (about 0x11 3 0 false none) [active [⟨5, 1, true, 8, 5⟩]]
    Arrives s ⟨about 0x11 3 0 false none, [home0], false, false⟩ 0x11
      ∧ s.tok.persist.find? (fun e => e.sector == sec0) = some (active [⟨5, 1, true, 8, 5⟩])
      ∧ (∀ x ∈ s.tok.persist, x.sector = sec0 → x = active [⟨5, 1, true, 8, 5⟩])
      ∧ (active [⟨5, 1, true, 8, 5⟩]).queue.find? (fun q => decide (8 ≤ q.passed)) = some ⟨5, 1, true, 8, 5⟩
      ∧ (∀ q ∈ [(⟨5, 1, true, 7, 5⟩ : PersistReq), ⟨6, 1, true, 7, 5⟩], q.passed < 8 ∧ RanksFirst ⟨5, 1, true, 7, 5⟩ q) := by
  unfold Arrives Refused RanksFirst
  decide +kernel

theorem witness_activations :
    let m := about 0x12 3 4 false none
    let s := reached m 3 false (acted { last := some 3 })
    Arrives s ⟨m, [0], false, false⟩ 0x12 ∧ isHomeOf s 0 sec0 = false ∧ Later (some 3) 4 ∧ ¬ Later (some 4) 4 ∧ ¬ Later (some 1028) 4
      ∧ pins s 0 sec0 = false ∧ accessReady s 0 sec0 = false ∧ (actState s 0 sec0).last = some 3 ∧ NoTlb 0
      ∧ Arrives (reached (about 0x13 3 4 false none) 3 false (acted { last := some 4, winner := some 3 }))
          ⟨about 0x13 3 4 false none, [0], false, false⟩ 0x13
      ∧ Arrives (reached (about 0x14 home0 0 false none) 3 false id) ⟨about 0x14 home0 0 false none, [0], false, false⟩ 0x14
      ∧ holdsEnough (reached m 3 false id) 0 sec0 false = true ∧ holdsEnough (reached m 3 false id) 0 sec0 true = false := by
  refine ⟨by unfold Arrives Refused; decide +kernel, by decide +kernel, ?_, ?_, ?_, by decide +kernel, by decide +kernel, by decide +kernel,
    by unfold NoTlb; decide, by unfold Arrives Refused; decide +kernel, by unfold Arrives Refused; decide +kernel, by decide +kernel, by decide +kernel⟩
  · intro l h; cases h; decide
  · intro h; exact absurd (h 4 rfl) (by decide)
  · intro h; exact absurd (h 1028 rfl) (by decide)

/-- A request of core 0 on the sector, at its `k`th attempt. -/
def asking (k : Nat) : TokenReq := ⟨0, sec0, true, k, [home0], 500, 1, 5, .transient⟩

theorem witness_requests_time_out :
    let s : State := { reached (about 1 3 0 false none) 3 false id with
      tok := { held := [(sec0, { tokens := 3 })], reqs := [asking 1, asking 5] }, sys := { small.sys with auxTime := 500 } }
    s.tok.reqs[s.ev.k]? = some (asking 1) ∧ (asking 1).stage = .transient ∧ (asking 1).expiry ≤ s.now ∧ small.now < (asking 1).expiry
      ∧ holdsEnough s 0 sec0 true = false ∧ blockedFor s 0 sec0 = false ∧ 5 ≤ (asking 5).attempt ∧ (0 : BitVec 13) ≠ homeOf s sec0
      ∧ (atHome (about 1 3 0 false none) [active []]).tok.persist.find? (fun e => e.sector == sec0) = some (active [])
      ∧ (active []).since + 5000 ≤ 5000 ∧ (active []).noted = false := by decide +kernel

/-- A census of the sector at its home, which waits for `ws`. -/
def census (phase : CensusPhase) (ws : List (BitVec 13)) (n owners : Nat) : Census := ⟨sec0, phase, ws, 1000, n, owners, false, false, 0⟩

/-- Home `home0` handles message `m` while that census runs. -/
def asked (m : Msg) (c : List Census) (f : TokenState → TokenState) : State :=
  let s := atHome m []
  { s with tok := f { s.tok with census := c } }

theorem witness_census_starts :
    isHomeOf (asked (about 0x21 3 7 false none) [] id) home0 sec0 = true ∧ home0 = homeOf (asked (about 0x21 3 7 false none) [] id) sec0
      ∧ CensusDue (asked (about 0x21 3 7 false none) [] (fun k => { k with homes := [(sec0, { owner := true, count := 2047, badParity := true })] })) sec0
      ∧ ¬ CensusDue (asked (about 0x21 3 7 false none) [] id) sec0
      ∧ PutOff (asked (about 0x21 3 7 false none) [] (fun k => { k with recreated := [(sec0, 0)] })) sec0
      ∧ ¬ PutOff (asked (about 0x21 3 7 false none) [] id) sec0
      ∧ OnlyCensus (asked (about 0x21 3 7 false none) [census .wait50 [] 5 0] id) sec0 (census .wait50 [] 5 0)
      ∧ OnlyCensus (asked (about 0x21 3 7 false none) [census .deferred [] 5 0] id) sec0 (census .deferred [] 5 0) := by
  unfold CensusDue PutOff OnlyCensus
  refine ⟨by decide +kernel, by decide +kernel, .inl (by decide +kernel), ?_, .inl ⟨(sec0, 0), by decide, rfl, by decide +kernel⟩, ?_,
    by decide +kernel, by decide +kernel⟩
  · rintro (h | ⟨e, h, _⟩)
    · exact absurd h (by decide +kernel)
    · rw [show (asked (about 0x21 3 7 false none) [] id).tok.persist = [] by decide +kernel] at h
      exact absurd h (by simp)
  · rintro (⟨e, h, _⟩ | h)
    · rw [show (asked (about 0x21 3 7 false none) [] id).tok.recreated = [] by decide +kernel] at h
      exact absurd h (by simp)
    · exact absurd h (by decide +kernel)

theorem witness_census_reports :
    let s := asked (about 0x21 3 7 false none) [census .round2 [3] 2041 1] id
    Arrives s ⟨about 0x21 3 7 false none, [home0], false, false⟩ 0x21 ∧ OnlyCensus s sec0 (census .round2 [3] 2041 1)
      ∧ (3 : BitVec 13) ∈ (census .round2 [3] 2041 1).waiting ∧ 2041 + 7 = 2048 ∧ s.tok.recreated.length < 4
      ∧ OnlyCensus (asked (about 0x21 3 0 false none) [census .recreate [3] 2041 0] id) sec0 (census .recreate [3] 2041 0)
      ∧ (actState s home0 sec0).winner = none
      ∧ Arrives (reached (about 0x20 home0 1 false none) 3 true id) ⟨about 0x20 home0 1 false none, [0], false, false⟩ 0x20
      ∧ (0 : BitVec 13) ≠ home0 := by
  unfold Arrives Refused OnlyCensus
  decide +kernel

theorem witness_recreation_reaches :
    let s := reached { about 0x22 home0 0 false none with serial := 1 } 3 true (acted { frozen := true })
    Arrives s ⟨{ about 0x22 home0 0 false none with serial := 1 }, [0], false, false⟩ 0x22 ∧ (actState s 0 sec0).frozen = true
      ∧ (actState s 0 sec0).serial = 0 ∧ pins s 0 sec0 = false ∧ accessReady s 0 sec0 = false ∧ isHomeOf s 0 sec0 = false
      ∧ (reached (about 0x22 home0 0 false none) 3 true (fun s => { s with tok := { s.tok with discard := [⟨0, sec0, 1, 9⟩] } })).tok.discard[0]?
          = some ⟨0, sec0, 1, 9⟩ := by
  unfold Arrives Refused
  decide +kernel

/-! ### Units between issues -/

/-- The unit holds in a given way, of a header that waits for flag 0, with the warp's flag 0 set or not. -/
def atHeader (flag : Bool) (f : IUnit → IUnit) : State :=
  { smallArch (fun a => { a with flags := if flag then 1 else 0
                                 units := a.units.map (fun v => f { v with pos := { v.pos with head := { head1 with wait := 1 } } }) }) with
    ev := { w := 16, u := 0, k := 72 } }

theorem witness_units :
    let s := atHeader true (fun v => { v with hold := .headerWait, age := 62 })
    0 < (s.warp 16).arch.units.length ∧ ((s.warp 16).unit 0).hold = .headerWait ∧ ((s.warp 16).unit 0).age = 62
      ∧ (∀ k < 12, ((s.warp 16).unit 0).pos.head.wait.getLsbD k = true → (s.warp 16).arch.flags.getLsbD k = true)
      ∧ ((atHeader false id).warp 16).arch.flags.getLsbD 0 = false := by decide +kernel

/-- Two units of ply 0, and a secondary unit of it on the stack. -/
def rotating : State :=
  { smallWarp (fun x => { x with
      stackCtr := [(0, 63)]
      arch := { x.arch with units := x.arch.units ++ [{ lanes := 256, sec := true, ply := 0, pos := ⟨0x30000, 0, head1, 0⟩ }]
                            stack := [{ lanes := 512, sec := true, ply := 0, pos := ⟨0x30000, 1, head1, 0⟩ }] } }) with
    ev := { w := 16, lane := 0 } }

theorem witness_rotation :
    Sparse.get 0 (rotating.warp 16).stackCtr 0 = 63 ∧ Settled (rotating.warp 16).arch
      ∧ (∀ v ∈ (rotating.warp 16).arch.stack, v.entering = false ∧ v.ply = 0 ∧ v.sec = true)
      ∧ isSecondaryOf 0 ((rotating.warp 16).unit 1) = true ∧ isSecondaryOf 0 ((rotating.warp 16).unit 0) = false
      ∧ Sparse.get 0 (small.warp 16).stackCtr 0 = 0 := by
  refine ⟨by decide +kernel, ?_, by decide +kernel⟩
  unfold Settled
  decide +kernel

/-- Units of the trappable block's warp with the given lanes, holds and bundle numbers, at a header followed by QXCH. -/
def parkedAs (us : List (Lanes × Hold × Nat)) : State :=
  { smallArch (fun a => { a with units := us.map (fun u => { lanes := u.1, hold := u.2.1, pos := ⟨0x30000, u.2.2, head1, 0⟩ }) }) with
    blocks := odd.blocks
    mem := writeBytes small.mem 0x30008 (leSplit 8 ((encodeBundle ⟨true, 0, false, some (.snop 0), .vqxch 1 2 6 none⟩).getD 0))
    ev := { w := 16 } }

theorem witness_stuck_units :
    let s := parkedAs [(255, .reconv, 0)]
    let t := parkedAs [(1, .cross, 1), (14, .cross, 2), (240, .none, 1)]
    ((∀ v ∈ (s.warp 16).arch.units, isParked v.hold = true ∧ v.entering = false) ∧ (s.warp 16).arch.units ≠ []
        ∧ (s.warp 16).arch.stack = [] ∧ ∀ k < 1, parkMet s (s.warp 16) k = false)
      ∧ groupStuck t (t.warp 16) 0 = true ∧ (∃ v ∈ (t.warp 16).arch.units, isParked v.hold = false)
      ∧ (t.warp 16).arch.units.length = 3 ∧ ((t.warp 16).unit 0).trap = none ∧ (t.block (t.warp 16).blk).handler = some 0x30000
      ∧ headerAt t (t.warp 16).ctx 0x30000 = .ok head1 := by
  decide +kernel

/-- Core 0's register cache, with what its warp has requested. -/
def caching (gs : List Granule) (wanted : List (Nat × Nat)) (accs : List Access) : State :=
  { smallWarp (fun x => { x with accs := accs }) with cores := [(0, { granules := gs, wanted := wanted })], ev := { w := 16, k := 72 } }

theorem witness_granules :
    (¬ ∃ g, g ∈ ((caching [] [(16, 72)] []).core 0).granules ∧ g.warp = 16 ∧ g.which = 72)
      ∧ (16, 72) ∈ ((caching [] [(16, 72)] []).core 0).wanted ∧ (16, 72) ∉ ((caching [] [] []).core 0).wanted
      ∧ missesGranule (caching [] [] []) 16 72 = false
      ∧ (∃ g, g ∈ ((caching [⟨16, 72, false⟩] [] []).core 0).granules ∧ g.warp = 16 ∧ g.which = 72)
      ∧ (let full := caching (List.replicate 1024 ⟨16, 0, false⟩) [(16, 72)]
         1024 ≤ ((full []).core 0).granules.length ∧ (∃ g, g ∈ ((full []).core 0).granules ∧ granuleInUse (full []) g = false)
           ∧ ∀ g ∈ ((full [onSector .load (some toV3)]).core 0).granules, granuleInUse (full [onSector .load (some toV3)]) g = true) := by
  decide +kernel

/-! ### Links, checks, power and the host -/

/-- Link 2 is trained, with two messages waiting; its injector is armed for requests of the sector. -/
def linked (f : Link → Link) : State :=
  { small with
    links := [(2, f { trained := true, queue := [.token (about 1 3 0 false none), .token (about 2 3 0 false none)] })]
    harts := [(0, { mode := .s })]
    ev := { link := 2, k := 0, lane := 1 } }

theorem witness_links :
    LinksWork (linked id) ∧ ((linked id).link 2).trained = true
      ∧ ((linked id).link 2).queue = .token (about 1 3 0 false none) :: [.token (about 2 3 0 false none)]
      ∧ ((linked id).link 2).inj.w0.getLsbD 63 = false
      ∧ (let k := (linked (fun k => { k with inj := { w0 := BitVec.ofNat 64 (2 ^ 63 + 2 ^ 40), w1 := BitVec.ofNat 64 sec0 } })).link 2
         k.inj.w0.getLsbD 63 = true ∧ (about 1 3 0 false none).type = k.inj.w0.extractLsb' 40 8
           ∧ (about 1 3 0 false none).sector = (k.inj.w1.extractLsb' 0 46).toNat)
      ∧ ((linked (fun k => { k with replay := [.token (about 1 3 0 false none)] })).link 2).replay[0]? = some (.token (about 1 3 0 false none))
      ∧ 16 < (((linked (fun k => { k with resends := List.replicate 17 (1, 0) })).link 2).resends.filter
          (fun e => e.1 == 1 && decide (small.now < e.2 + 1000000))).length
      ∧ ((linked (fun k => { k with inj := { taken := [(.token (about 1 3 0 false none), 7)] } })).link 2).inj.taken[0]?
          = some (.token (about 1 3 0 false none), 7)
      ∧ small.sys.fieldCount < 4096 := by
  unfold LinksWork
  decide +kernel

theorem witness_injector : osHart ((linked id).hart 0) = true ∧ (linked id).sys.span = .service
    ∧ osHart (({ linked id with harts := [(0, { mode := .vu })] } : State).hart 0) = false := by decide +kernel

theorem witness_memory_checks : physPlace small.sys (sec0 * 64) = .memory small.sys.modid.toNat 0x40000
    ∧ isHomeOf small (homeOf small sec0) sec0 = true ∧ domainSector small.sys sec0 = some sec0 ∧ domainSector small.sys 0x1000 = some sec0
    ∧ small.sys.rowErrors = [] := by decide +kernel

/-- Sixteen corrected errors of one row, whichever row the sector is in. -/
theorem witness_row_errors : ∃ s : State, 16 ≤ (s.sys.rowErrors.filter (fun e => e.1 == Config.dramRow sec0 && decide (s.now < e.2 + 86400000000000))).length
    ∧ s.sys.fieldCount < 4096 :=
  ⟨{ small with sys := { small.sys with rowErrors := List.replicate 16 (Config.dramRow sec0, 0) } }, by simp [State.now, small],
    by decide +kernel⟩

/-- Core 0 with its four arrays, and an audited block. -/
def audited (complete : Bool) : State :=
  { small with cores := [(0, { arrays := List.replicate 4 {} })], audit := [⟨0, 16, 1, 1, [], [], 0, 0, complete⟩] }

theorem witness_core_checks :
    ((audited true).core 0).arrays[0]? = some (default : ArrayState) ∧ (audited true).sys.span = .service ∧ (0 : Nat) < 96
      ∧ (audited true).audit[0]? = some ⟨0, 16, 1, 1, [], [], 0, 0, true⟩ ∧ replaySignature ⟨0, 16, 1, 1, [], [], 0, 0, true⟩ ^^^ 0 = 0
      ∧ replaySignature ⟨0, 16, 1, 1, [], [], 0, 0, true⟩ ^^^ 1 ≠ 0 := by decide +kernel

/-- Main power is good, in a span, with a reset waiting or not. -/
def powered (span : Span) (waits : Bool) : State :=
  { State.reset with sys := { State.reset.sys with auxPg := true, mainPg := true, span := span, resetPending := waits, therm := false } }

theorem witness_power :
    State.reset.sys.auxPg = true ∧ State.reset.sys.mainPg = false ∧ (powered .service false).sys.mainPg = true
      ∧ ({ State.reset with sys := { State.reset.sys with auxPg := false } } : State).sys.auxPg = false
      ∧ (powered .bringUp false).sys.span = .bringUp ∧ (powered .bringUp false).sys.resetPending = false
      ∧ (powered .service true).sys.resetPending = true ∧ LinksWork (powered .service false)
      ∧ (powered .recovery false).sys.span ≠ .service ∧ (powered .recovery false).sys.span ≠ .bringUp
      ∧ min 2600 (max 1000 State.reset.sys.capw.toNat) = 2600 := by
  unfold LinksWork
  decide +kernel

theorem witness_side_band :
    small.sys.auxPg = true ∧ small.sys.span = .service ∧ State.reset.sys.span ≠ .service
      ∧ domainAddr small.sys (sec0 * 64) = some (sec0 * 64) ∧ isHomeOf small (homeAgent small.sys (sec0 * 64)) (sec0 * 64 / 64) = true
      ∧ domainAddr small.sys (2 ^ 60) = none := by decide +kernel

/-- A sector of the host's memory, and its request at the home. -/
def hostReq (write : Bool) (owner : Bool) : State :=
  { small with
    sys := { small.sys with hostRange := some (lpddrBase, 2 ^ 30) }
    tok := { homes := [(2 ^ 42 + lpddrBase / 64, { owner := owner, count := if owner then 2047 else 0 })]
             host := [⟨write, 2 ^ 42 + lpddrBase / 64, 3, 0x1234⟩] }
    ev := { sector := 2 ^ 42 + lpddrBase / 64, flag := true } }

theorem witness_host_memory :
    let s := hostReq true true
    isHomeOf s (ownAgent s.sys 520) (2 ^ 42 + lpddrBase / 64) = true ∧ homeOf s (2 ^ 42 + lpddrBase / 64) = ownAgent s.sys 520
      ∧ satisfied s (ownAgent s.sys 520) (2 ^ 42 + lpddrBase / 64) true = true
      ∧ localAddr s.sys ((2 ^ 42 + lpddrBase / 64) * 64) = some lpddrBase
      ∧ (holding s (ownAgent s.sys 520) (2 ^ 42 + lpddrBase / 64)).owner = true := by decide +kernel

theorem witness_host_range : InHostRange (hostReq true true) (2 ^ 42 + lpddrBase / 64) (2 ^ 42 + lpddrBase / 64)
    ∧ ∀ d, ¬ InHostRange small (2 ^ 42 + lpddrBase / 64) d := by
  refine ⟨⟨lpddrBase, 2 ^ 30, lpddrBase, by decide +kernel⟩, ?_⟩
  rintro d ⟨b, n, x, _, h, _⟩
  rw [show small.sys.hostRange = none by decide +kernel] at h
  exact absurd h (by simp)

/-! ### The machine as a whole -/

theorem witness_canonical : MemoryCanonical State.reset ∧ MemoryCanonical small := by
  unfold MemoryCanonical
  decide +kernel

/-- A word stands where the next step fetches. -/
def fetching (word : Nat) : State := State.reset.withFetchWord 64 word

/-- The state in which the scheduler of that step has chosen its unit. -/
def chosen (word : Nat) : State := noteChoice (tickSched { fetching word with moves := (fetching word).moves + 1, agenda := [] } 0 0) 0 0 16

theorem witness_step :
    (fetching 0x8581404000000000).agenda = [.cycle 0 0] ∧ (fetching 0x8581404000000000).sys.span = .service
      ∧ chosenUnit (tickSched { fetching 0x8581404000000000 with moves := (fetching 0x8581404000000000).moves + 1, agenda := [] } 0 0) 0 0
          = some (16, 0) := by decide +kernel

theorem witness_step_decodes :
    let q := chosen 0x8581404000000000
    let x := q.warp 16
    let v := x.unit 0
    fetchWord q x.ctx v.bundleAddr = some 0x8581404000000000
      ∧ (decodeBundle 0x8581404000000000).toOption = some (scalarLine (.sli 5 16)) ∧ placedWord 0x8581404000000000 = false
      ∧ levelBreach x.arch v 0x8581404000000000 = false ∧ convLanes x 0 (unitConv x.arch v (scalarLine (.sli 5 16))) ≠ none
      ∧ (issueState q 16 0 (scalarLine (.sli 5 16)) v.lanes).unit.skip = false := by decide +kernel

theorem witness_step_rejects :
    let q := chosen 0x7800000000000000
    fetchWord q (q.warp 16).ctx ((q.warp 16).unit 0).bundleAddr = some 0x7800000000000000
      ∧ decodeBundle 0x7800000000000000 = .error .guardFifteen ∧ placedWord 0x7800000000000000 = false
      ∧ levelBreach (q.warp 16).arch ((q.warp 16).unit 0) 0x7800000000000000 = false := by decide +kernel

/-- A scalar-only line in form S3 or SI: guard p0 of scope both, SOP at [57:52], fields at [51:46], [45:40] and [39:34]. -/
def sWord (sop x y z : Nat) : Nat := 2 ^ 63 + 2 ^ 58 + sop * 2 ^ 52 + x * 2 ^ 46 + y * 2 ^ 40 + z * 2 ^ 34

/-- A trap return below trap level, and a return that is not its block's last word. -/
theorem witness_step_misplaced :
    let tret := sWord 0x2C 1 0 0
    let ret := sWord 0x22 0 0 0
    levelBreach ((chosen tret).warp 16).arch (((chosen tret).warp 16).unit 0) tret = true ∧ (decodeBundle tret).toOption ≠ none
      ∧ levelBreach ((chosen ret).warp 16).arch (((chosen ret).warp 16).unit 0) ret = false ∧ placedWord ret = true
      ∧ (decodeBundle ret).toOption ≠ none := by decide +kernel

theorem witness_step_events :
    let s : State := { small with agenda := [.event .ageingCounterSaturate { w := 16 }] }
    s.agenda = [.event .ageingCounterSaturate { w := 16 }] ∧ mayHappen s .ageingCounterSaturate = true := by decide +kernel

theorem witness_step_hart :
    let s := State.reset.withFetchWord 32 0x00B5050B
    s.sys.span = .service ∧ s.agenda = [.hart 0] ∧ decodeHart (hartWord s 0) = .ok (.gxLaunch 10 10 11)
      ∧ (let t := State.reset.withFetchWord 32 0x0000700B
         decodeHart (hartWord t 0) ≠ .ok (.gxLaunch 0 0 0) ∧ (decodeHart (hartWord t 0)).toOption = none ∧ hartWord t 0 % 128 = 0x0B) := by
  decide +kernel

theorem witness_encodable : Encodable ⟨true, 0, false, some (.sadd 1 2 3), .vadd ⟨1, 2, 3, 2⟩⟩ := by
  refine ⟨by decide, by decide, by simp, fun i h => ?_⟩
  cases h
  exact ⟨by decide, fun _ h => by simp at h⟩

theorem witness_vector_slot :
    regsFree small.cw (small.cur.lanes ||| small.cur.helpers) (((small.core small.cw.core).cc[schedOf small.cw]?).getD 0)
      (regUse (.vadd ⟨1, 2, 3, 2⟩)) = true := by decide +kernel

theorem witness_predicate_logic : (14 : BitVec 4) ≠ 15 ∧ (0 : BitVec 4) ≠ 15 := by decide

theorem witness_code_words :
    (0xF860145E00000620 : Nat) < 2 ^ 64 ∧ decodeWord 0xF860145E00000620 = .ok (.header ⟨3, 0x00A, 2, 15, 0, 3, 1, false, false, false⟩)
      ∧ encodeBundle ⟨true, 0, false, some (.sadd 1 2 3), .vadd ⟨1, 2, 3, 2⟩⟩ ≠ none := by
  decide +kernel

/-! ### Decoding: the words of R41 to R48, bit by bit -/

/-- A vector-only line: guard p0, VOP at [33:26], fields at [25:18], [17:10], [9:2] and [1:0]. -/
def vWord (vop x y z m : Nat) : Nat := 2 ^ 63 + vop * 2 ^ 26 + x * 2 ^ 18 + y * 2 ^ 10 + z * 2 ^ 2 + m

/-- A joined line: SOP 0x3F and the extension's own bits above a vector line's. -/
def jWord (ext vop x y z m : Nat) : Nat := 63 * 2 ^ 52 + ext + vWord vop x y z m

/-- Decodes to a line with this scalar instruction alone. -/
def isScalar (w : Nat) (i : Instr) : Bool := decide (decodeBundle w = .ok (scalarLine i))

/-- Decodes to a line with this vector instruction alone, not joined. -/
def isVector (w : Nat) (i : Instr) : Bool := decide (decodeBundle w = .ok (vectorLine i))

/-- Decodes to this joined line. -/
def isJoined (w : Nat) (i : Instr) : Bool := decide (decodeBundle w = .ok (joinedLine i))

/-- Is refused with this error. -/
def isRefused (w : Nat) (e : DecodeError) : Bool := decide (decodeBundle w = .error e)

theorem decode_scalar_three : [(0x01, Instr.sadd), (0x02, .ssub), (0x03, .smul), (0x04, .smulh), (0x05, .sand), (0x06, .sor),
    (0x07, .sxor), (0x08, .sshl), (0x09, .sshr), (0x0A, .ssar), (0x0B, .smin), (0x0C, .smax), (0x0D, .sslt), (0x0E, .sminn),
    (0x0F, .smaxn), (0x1D, .ssltn)].all (fun e => isScalar (sWord e.1 20 41 63) (e.2 20 41 63)) = true := by decide +kernel

theorem decode_scalar_immediate : [(0x10, Instr.saddSi), (0x11, .sandSi), (0x12, .sorSi), (0x13, .sxorSi), (0x14, .sshlSi), (0x15, .sshrSi),
    (0x16, .ssarSi), (0x17, .ssltSi), (0x1B, .sld), (0x1C, .sst)].all (fun e => isScalar (sWord e.1 20 41 62) (e.2 20 41 62)) = true := by
  decide +kernel

theorem decode_scalar_constants : isScalar (sWord 0x18 5 0 16) (.sli 5 16) = true ∧ isScalar (sWord 0x19 5 5 3) (.slsh 5 0x143) = true
    ∧ isScalar (sWord 0x1A 63 0 32) (.sgets 63 32) = true ∧ isScalar (sWord 0 1 1 1) (.snop 0x1041) = true := by decide +kernel

theorem decode_transfers : isScalar (sWord 0x20 0 0 7) (.sbra 7) = true ∧ isScalar (sWord 0x21 63 63 63) (.scall 0x3FFFF) = true
    ∧ isScalar (sWord 0x22 0 0 0) .sret = true ∧ isScalar (sWord 0x23 0 41 0) (.sbrx 41) = true ∧ isScalar (sWord 0x24 0 0 0) .sexit = true
    ∧ isScalar (sWord 0x25 0 0 0) .sregang = true ∧ isScalar (sWord 0x26 6 8 0) (.sbar 6 1) = true
    ∧ isScalar (sWord 0x27 6 16 0) (.sbara 6 2) = true ∧ isScalar (sWord 0x28 9 10 11) (.sfork 9 10 11) = true
    ∧ isScalar (sWord 0x29 0 0 0) .sjoin = true ∧ isScalar (sWord 0x2A 9 10 0) (.sgwalk 9 10) = true := by decide +kernel

theorem decode_system : isScalar (sWord 0x2B 0 0 42) (.strap 42) = true ∧ isScalar (sWord 0x2C 0 41 0) (.ssysNclr 41) = true
    ∧ isScalar (sWord 0x2C 1 0 0) .ssysTret = true ∧ isScalar (sWord 0x2C 2 41 7) (.ssysTrd 41 7) = true
    ∧ isScalar (sWord 0x2C 3 41 6) (.ssysTwr 41 6) = true ∧ isScalar (sWord 0x2C 4 41 0) (.ssysCtxid 41) = true
    ∧ isScalar 0x85E4380000000000 (.swaitc 2 7 false) = true ∧ isScalar 0x85F9800000000000 (.sfenceRel 3) = true
    ∧ isScalar (sWord 0x1F 20 0 0) (.sfenceAcq 2) = true ∧ isScalar (sWord 0x2F 8 0 0) (.smonarm 8) = true
    ∧ isScalar (sWord 0x30 14 9 0) (.smonwait 14 9) = true := by decide +kernel

theorem decode_batches_and_names : isScalar (sWord 0x2D 7 14 20) (.smfence 7 3 true 5) = true ∧ isScalar (sWord 0x2E 0 7 0) (.smwait 7) = true
    ∧ isScalar (sWord 0x31 20 8 0) (.snlook 20 8) = true ∧ isScalar (sWord 0x31 20 8 16) (.snlookHold 20 8) = true
    ∧ isScalar (sWord 0x31 20 8 32) (.snlookRelease 20 8) = true ∧ isScalar (sWord 0x32 20 8 9) (.snnew 20 8 9) = true
    ∧ isScalar (sWord 0x33 20 8 0) (.sndel 20 8) = true ∧ isScalar (sWord 0x34 20 8 9) (.sncas 20 8 9) = true := by decide +kernel

/-- `.sat` and `.n32` are m[1] and m[0], where the table of R85 has them. -/
theorem decode_vector_integer : [(0x01, 3, Instr.vadd), (0x02, 3, .vsub), (0x03, 3, .vmul), (0x04, 1, .vmulh), (0x05, 1, .vmin), (0x06, 1, .vmax),
    (0x07, 3, .vabs), (0x08, 2, .vneg), (0x09, 3, .vmad), (0x0A, 3, .vsad), (0x10, 0, .vand), (0x11, 0, .vor), (0x12, 0, .vxor),
    (0x14, 0, .vandn), (0x15, 0, .vshl), (0x16, 0, .vshr), (0x17, 0, .vsar), (0x18, 0, .vrot), (0x51, 3, .vlea), (0x20, 3, .vaddVi),
    (0x21, 3, .vmulVi), (0x22, 0, .vandVi), (0x23, 0, .vorVi), (0x24, 0, .vxorVi), (0x25, 0, .vshlVi), (0x26, 0, .vshrVi),
    (0x27, 0, .vsarVi), (0x28, 1, .vminVi), (0x29, 1, .vmaxVi)].all
      (fun e => isVector (vWord e.1 7 9 200 e.2.1) (e.2.2 ⟨7, 9, 200, BitVec.ofNat 2 e.2.1⟩)) = true := by decide +kernel

theorem decode_vector_scalar : [(0x30, 3, Instr.vaddVs), (0x31, 3, .vsubVs), (0x32, 3, .vmulVs), (0x33, 0, .vandVs), (0x34, 0, .vorVs), (0x35, 0, .vxorVs),
    (0x36, 0, .vshlVs), (0x37, 0, .vshrVs), (0x38, 0, .vsarVs), (0x39, 1, .vminVs), (0x3A, 1, .vmaxVs)].all
      (fun e => isVector (vWord e.1 7 9 63 e.2.1) (e.2.2 ⟨7, 9, 63, BitVec.ofNat 2 e.2.1⟩)) = true := by decide +kernel

theorem decode_vector_unary : [(0x13, Instr.vnot), (0x19, .vclz), (0x1A, .vpopc), (0x1B, .vbrev), (0x4B, .vmov)].all
      (fun e => isVector (vWord e.1 7 9 0 0) (e.2 7 9)) = true
    ∧ isVector (vWord 0x2A 7 0 200 1) (.vli 7 200 1) = true ∧ isVector (vWord 0x3B 7 0 63 0) (.vbcast 7 63) = true
    ∧ isVector (vWord 0x3C 7 0 63 0) (.vbcasth 7 63) = true ∧ isVector (vWord 0x54 7 9 32 0) (.vsxt 7 9 32) = true
    ∧ isVector (vWord 0x55 7 9 1 0) (.vzxt 7 9 1) = true ∧ isVector (vWord 0x56 7 0 3 0) (.vgets 7 3) = true
    ∧ isVector (vWord 0 1 2 3 1) (.vnop 0x4080D) = true ∧ isVector (vWord 0xFE 1 2 3 1) (.vhint 14 0x4080D) = true := by decide +kernel

theorem decode_predicates : isVector (vWord 0x40 (4 * 16 + 3) 9 200 1) (.vcmp ⟨4, 3, 9, 200, 1⟩) = true
    ∧ isVector (vWord 0x41 (4 * 16 + 3) 9 200 1) (.vcmpVi ⟨4, 3, 9, 200, 1⟩) = true
    ∧ isVector (vWord 0x42 (4 * 16 + 3) 9 63 1) (.vcmpVs ⟨4, 3, 9, 63, 1⟩) = true
    ∧ isVector (vWord 0x43 (4 * 16 + 3) 9 200 0) (.vfcmp ⟨4, 3, 9, 200, 0⟩) = true
    ∧ isVector (vWord 0x44 3 4 5 1) (.vpand ⟨3, 4, 5, false, true⟩) = true ∧ isVector (vWord 0x45 3 4 5 2) (.vpor ⟨3, 4, 5, true, false⟩) = true
    ∧ isVector (vWord 0x46 3 4 5 3) (.vpxor ⟨3, 4, 5, true, true⟩) = true ∧ isVector (vWord 0x47 3 4 0 2) (.vpnot 3 4 true) = true
    ∧ isVector (vWord 0x48 3 200 0 0) (.vptst 3 200) = true ∧ isVector (vWord 0x49 200 14 0 0) (.vptov 200 14) = true
    ∧ isJoined (jWord (4 * 2 ^ 48 + 2 ^ 47) 0x4A 3 5 6 0) (.vsel 3 5 6 4 true) = true
    ∧ isJoined (jWord (30 * 2 ^ 47 + 1 * 2 ^ 42 + 2 ^ 41) 0x1C 3 4 0 0) (.vbfx 3 4 30 1 true) = true
    ∧ isJoined (jWord (3 * 2 ^ 47 + 4 * 2 ^ 42) 0x1D 3 4 0 0) (.vbfi 3 4 3 4) = true := by decide +kernel

theorem decode_floats : [(0x60, Instr.vfadd), (0x61, .vfsub), (0x62, .vfmul), (0x63, .vfma), (0x64, .vfmin), (0x65, .vfmax)].all
      (fun e => isVector (vWord e.1 7 9 200 2) (e.2 ⟨7, 9, 200, 2⟩)) = true
    ∧ [(0x66, Instr.vfabs), (0x67, .vfneg), (0x68, .vfrcp), (0x69, .vfrsq), (0x6A, .vfsqrt), (0x6B, .vfexp2), (0x6C, .vflog2)].all
      (fun e => isVector (vWord e.1 7 9 0 0) (e.2 ⟨7, 9, 0⟩)) = true
    ∧ isJoined (jWord (8 * 2 ^ 48 + 6 * 2 ^ 44 + 2 ^ 39 + 2 ^ 38) 0x50 10 3 0 0) (.vcvt 10 3 ⟨8, 6, 0, true, true⟩) = true
    ∧ isJoined (jWord (6 * 2 ^ 44 + 2 * 2 ^ 40) 0x6D 10 3 0 0) (.vfcvt 10 3 ⟨0, 6, 2, false, false⟩) = true
    ∧ isJoined (jWord (2 * 2 ^ 48 + 30 * 2 ^ 42) 0x52 20 4 0 0) (.vpack 20 4 2 30) = true
    ∧ isJoined (jWord (2 * 2 ^ 48 + 30 * 2 ^ 42) 0x53 4 0 0 0) (.vunpk 4 0 2 30) = true := by decide +kernel

theorem decode_cross_lane : [(0x70, 6, Instr.vqxch), (0x71, 200, .vshfl), (0x72, 63, .vshflVi), (0x73, 63, .vshflVs), (0x74, 63, .vshflup), (0x75, 63, .vshfldn),
    (0x76, 63, .vshflx)].all (fun e => isVector (vWord e.1 3 4 e.2.1 0) (e.2.2 3 4 (BitVec.ofNat 8 e.2.1) none)
      && isJoined (jWord (5 * 2 ^ 48) e.1 3 4 e.2.1 0) (e.2.2 3 4 (BitVec.ofNat 8 e.2.1) (some 5))) = true
    ∧ isVector (vWord 0x77 (2 * 16 + 3) 4 0 2) (.vvote 2 3 4 true none) = true
    ∧ isJoined (jWord (2 * 2 ^ 48 + 4 * 2 ^ 44 + 2 ^ 43) 0x78 6 0 0 0) (.vballot 6 2 4 true) = true
    ∧ isJoined (jWord (8 * 2 ^ 48 + 12 * 2 ^ 44) 0x79 3 4 0 0) (.vwred 3 4 8 12 false) = true := by decide +kernel

/-- The size code stands at [3:2], the base at [9:4]; the joined form adds order, scope and offset. -/
theorem decode_loads : [(0x80, Instr.vld), (0x82, .vldu), (0x84, .vlds), (0x86, .vldx)].all
      (fun e => isVector (vWord e.1 6 8 (41 * 4 + 1) 1) (e.2 ⟨6, 8, 41, 1, 1⟩ none)
        && isJoined (jWord (1 * 2 ^ 50 + 3 * 2 ^ 47 + 0x1FFF * 2 ^ 34) e.1 6 8 (41 * 4 + 1) 1) (e.2 ⟨6, 8, 41, 1, 1⟩ (some ⟨1, 3, 0x1FFF⟩))) = true
    ∧ isVector (vWord 0x88 6 8 (41 * 4 + 2) 0) (.vldf ⟨6, 8, 41, 2, 0⟩ none) = true := by decide +kernel

theorem decode_stores_and_atomics : [(0x81, 0, Instr.vst), (0x83, 0, .vstu), (0x85, 2, .vsts),
    (0x87, 2, .vstx), (0x89, 0, .vste), (0x8B, 0, .vstn), (0x8C, 2, .vred), (0x90, 0, .vaadd), (0x91, 1, .vamin),
    (0x92, 1, .vamax), (0x93, 0, .vaand), (0x94, 0, .vaor), (0x95, 0, .vaxor), (0x96, 0, .vaxch), (0x98, 0, .vbadd), (0x99, 1, .vbmin),
    (0x9A, 1, .vbmax), (0x9B, 0, .vband), (0x9C, 0, .vbor), (0x9D, 0, .vbxor), (0x9E, 0, .vbxch)].all
      (fun e => isVector (vWord e.1 6 8 (41 * 4 + 2) e.2.1) (e.2.2 ⟨6, 8, 41, 2, BitVec.ofNat 2 e.2.1⟩ none)
        && isJoined (jWord (2 * 2 ^ 50 + 3 * 2 ^ 47 + 0x1FFF * 2 ^ 34) e.1 6 8 (41 * 4 + 2) e.2.1)
            (e.2.2 ⟨6, 8, 41, 2, BitVec.ofNat 2 e.2.1⟩ (some ⟨2, 3, 0x1FFF⟩))) = true := by decide +kernel

theorem decode_other_accesses : isVector (vWord 0x8D 0 8 (41 * 4) 2) (.vpfl ⟨0, 8, 41, 0, 2⟩ none) = true
    ∧ isJoined (jWord (4095 * 2 ^ 40 + 32 * 2 ^ 34) 0x8A 6 8 (41 * 4 + 2) 0) (.vldc ⟨6, 8, 41, 2, 0⟩ 4095 32) = true
    ∧ isJoined (jWord (4 * 2 ^ 46 + 2 * 2 ^ 44 + 2 ^ 42 + 3 * 2 ^ 39) 0x97 4 5 8 0) (.vacas 4 5 8 ⟨4, 2, 1, 3⟩) = true
    ∧ isJoined (jWord (4 * 2 ^ 46 + 2 ^ 44 + 2 ^ 43 + 2 * 2 ^ 39) 0x9F 4 5 8 0) (.vbcas 4 5 8 ⟨4, 1, 2, 2⟩) = true := by decide +kernel

theorem decode_matrix : isJoined (2 ^ 63 + 63 * 2 ^ 52 + 32 * 2 ^ 46 + 2 ^ 45 + 2 ^ 44 + 0xA0 * 2 ^ 26 + 1 * 2 ^ 24 + 2 * 2 ^ 21 + 3 * 2 ^ 18 + 4 * 2 ^ 15)
      (.vmma ⟨1, 2, 3, 4, 32, true, true⟩) = true
    ∧ isJoined (2 ^ 63 + 63 * 2 ^ 52 + 1 * 2 ^ 46 + 0xA1 * 2 ^ 26 + 3 * 2 ^ 24 + 7 * 2 ^ 21 + 6 * 2 ^ 18 + 5 * 2 ^ 15) (.vmss ⟨3, 7, 6, 5, 1, false, false⟩) = true
    ∧ isJoined (jWord (8 * 2 ^ 46 + 15 * 2 ^ 40) 0xA2 16 (1 * 64) 0 0) (.vaccrd ⟨16, 1, 8, 15⟩) = true
    ∧ isJoined (jWord (8 * 2 ^ 46 + 15 * 2 ^ 40) 0xA3 16 (2 * 64) 0 0) (.vaccwr ⟨16, 2, 8, 15⟩) = true
    ∧ isJoined (jWord 0 0xA4 0 (3 * 64) 0 0) (.vaccz 3) = true
    ∧ isJoined (jWord (8 * 2 ^ 46 + 2 ^ 45) 0xA5 40 (1 * 64) 9 0) (.vaccq 40 9 1 8 true false) = true
    ∧ isJoined (jWord 0 0xA6 (2 * 32) 20 21 0) (.vfmtld 2 20 21) = true := by decide +kernel

/-- SD at [51:46], CF at [45:42], P at [41:38] and Q at [37:34]. -/
theorem decode_engine : let e : EngOp := ⟨12, 15, 8, 9, 10⟩
    isJoined (jWord (12 * 2 ^ 46 + 15 * 2 ^ 42 + 2 ^ 41 + 2 ^ 39) 0xB0 8 9 10 0) (.vecpy e true false 2) = true
    ∧ isJoined (jWord (12 * 2 ^ 46 + 15 * 2 ^ 42 + 2 ^ 40 + 2 ^ 38) 0xB1 0 9 10 0) (.vefill { e with x := 0 } false 5) = true
    ∧ isJoined (jWord (12 * 2 ^ 46 + 15 * 2 ^ 42 + 3 * 2 ^ 38 + 6 * 2 ^ 34) 0xB2 8 9 10 0) (.vered e 3 6) = true
    ∧ isJoined (jWord (12 * 2 ^ 46 + 15 * 2 ^ 42 + 2 ^ 41 + 1 * 2 ^ 38 + 1 * 2 ^ 36) 0xB3 8 9 0 0) (.vepkt { e with z := 0 } true 5) = true
    ∧ isJoined (jWord (12 * 2 ^ 46 + 15 * 2 ^ 42) 0xB4 8 9 10 0) (.veblkGet e) = true
    ∧ isJoined (jWord (12 * 2 ^ 46 + 15 * 2 ^ 42 + 2 ^ 40) 0xB4 8 9 10 0) (.veblkPut e) = true
    ∧ isJoined (jWord (12 * 2 ^ 46 + 15 * 2 ^ 42 + 2 ^ 41) 0xB4 0 0 0 0) (.veblkFlush ⟨12, 15, 0, 0, 0⟩) = true := by decide +kernel

theorem decode_hart : decodeHart 0x00B5050B = .ok (.gxLaunch 10 10 11) ∧ decodeHart 0x0005150B = .ok (.gxReplay 10 10) := by decide +kernel

/-! ### Words that are no instruction, and terms that are ill formed -/

theorem refuse_guard_and_opcodes : isRefused 0x7800000000000000 .guardFifteen = true ∧ isRefused (sWord 0x3E 0 0 0) .illegalOpcode = true
    ∧ isRefused (vWord 0xFF 0 0 0 0) .illegalOpcode = true
    ∧ [0x35, 0x36, 0x37, 0x38, 0x39, 0x3A, 0x3B, 0x3C, 0x3D].all (fun o => isRefused (sWord o 0 0 0) .reserved) = true
    ∧ [0x0B, 0x1E, 0x2B, 0x3D, 0x4C, 0x57, 0x6E, 0x7A, 0x8E, 0xA7, 0xB5, 0xC0, 0xEF].all (fun o => isRefused (vWord o 0 0 0 0) .reserved) = true := by
  decide +kernel

theorem refuse_join : isRefused (jWord 0 0x01 0 0 0 0) .joinMismatch = true ∧ isRefused (vWord 0x50 10 3 0 0) .joinMismatch = true
    ∧ isRefused (jWord 0 0xA6 0 0 0 0 + 2 ^ 58) .scopeOnJoined = true := by decide +kernel

/-- Fields whose other values are reserved: each alone makes the word cause 3. -/
theorem refuse_reserved_fields : isRefused (vWord 0x05 1 2 3 2) .reserved = true ∧ isRefused (vWord 0x13 1 2 3 0) .reserved = true
    ∧ isRefused (vWord 0x54 1 2 33 0) .reserved = true ∧ isRefused (vWord 0x54 1 2 0 0) .reserved = true
    ∧ isRefused (vWord 0x56 1 0 8 0) .reserved = true ∧ isRefused (vWord 0x70 1 2 7 0) .reserved = true
    ∧ isRefused (vWord 0x72 1 2 64 0) .reserved = true ∧ isRefused (vWord 0x77 (4 * 16 + 3) 4 0 0) .reserved = true
    ∧ isRefused (vWord 0x80 6 8 (41 * 4 + 3) 2) .reserved = true ∧ isRefused (vWord 0x85 6 8 (41 * 4 + 2) 3) .reserved = true
    ∧ isRefused (vWord 0x88 6 8 (41 * 4 + 1) 0) .reserved = true ∧ isRefused (vWord 0x8C 6 8 (41 * 4 + 3) 3) .reserved = true
    ∧ isRefused (jWord (2 * 2 ^ 50) 0x80 6 8 (41 * 4 + 2) 0) .reserved = true ∧ isRefused (jWord (1 * 2 ^ 50) 0x81 6 8 (41 * 4 + 2) 0) .reserved = true
    ∧ isRefused (jWord 0 0x8A 6 8 (41 * 4 + 2) 0) .reserved = true ∧ isRefused (jWord (33 * 2 ^ 46) 0xA0 0 0 0 0) .reserved = true
    ∧ isRefused (jWord (3 * 2 ^ 40) 0xB4 8 9 10 0) .reserved = true ∧ isRefused (jWord (12 * 2 ^ 42) 0xB0 8 9 10 0) .reserved = true
    ∧ isRefused (jWord (8 * 2 ^ 48 + 7 * 2 ^ 44) 0x6D 10 3 0 0) .reserved = true := by decide +kernel

theorem refuse_scalar_fields : isRefused (sWord 0x1F 0 0 0) .reserved = true ∧ isRefused (sWord 0x1F (32 + 5 * 2 + 16) 0 0) .reserved = true
    ∧ isRefused (sWord 0x1E 56 0 0) .reserved = true ∧ isRefused (sWord 0x26 6 24 0) .reserved = true
    ∧ isRefused (sWord 0x2C 5 0 0) .reserved = true ∧ isRefused (sWord 0x2C 2 1 8) .reserved = true ∧ isRefused (sWord 0x2D 7 48 0) .reserved = true
    ∧ isRefused (sWord 0x31 20 8 48) .reserved = true ∧ isRefused (sWord 0x22 1 0 0) .reserved = true
    ∧ isRefused (sWord 0x25 0 0 0 - 2 ^ 63 + 3 * 2 ^ 59) .reserved = true := by decide +kernel

/-- Register groups that run past the file, odd pairs and predicate 15: cause 9. -/
theorem refuse_registers : isRefused (sWord 0x31 62 8 0) .noRegister = true ∧ isRefused (vWord 0x40 15 9 200 0) .noRegister = true
    ∧ isRefused (vWord 0x49 1 15 0 0) .noRegister = true ∧ isRefused (vWord 0x80 7 8 (41 * 4 + 3) 0) .noRegister = true
    ∧ isRefused (vWord 0x30 1 2 64 0) .noRegister = true ∧ isRefused (jWord 0 0x78 7 0 0 0) .noRegister = true
    ∧ isRefused (jWord (2 * 2 ^ 44) 0x97 6 8 12 0) .noRegister = true ∧ isRefused (jWord (1 * 2 ^ 40) 0xA2 255 0 0 0) .noRegister = true
    ∧ isRefused (jWord 0 0xA6 0 64 0 0) .noRegister = true ∧ isRefused (jWord (12 * 2 ^ 46 + 15 * 2 ^ 42) 0xB0 64 9 10 0) .noRegister = true := by
  decide +kernel

theorem ill_formed_terms : ¬ (Instr.snlook 62 8).WellFormed
    ∧ ¬ (Instr.vmin ⟨1, 2, 3, 2⟩).WellFormed ∧ ¬ (Instr.vcmp ⟨0, 15, 1, 2, 0⟩).WellFormed ∧ ¬ (Instr.sfenceRel 5).WellFormed
    ∧ ¬ (Instr.swaitc 6 0 false).WellFormed ∧ ¬ (Instr.vld ⟨7, 8, 41, 3, 0⟩ none).WellFormed ∧ ¬ (Instr.vaddVs ⟨1, 2, 64, 0⟩).WellFormed
    ∧ ¬ (Instr.vmma ⟨0, 0, 0, 0, 33, false, false⟩).WellFormed ∧ ¬ (Instr.smfence 0 12 false 0).WellFormed := by decide +kernel

/-! ### Single steps: the values of the manual's worked cases, or worked out by hand from the entry -/

/-- The state after an instruction of the small state with these registers. -/
def after (i : Instr) (f : WarpArch → WarpArch) : State :=
  match exec i (smallArch f) with
  | .next t => t
  | _ => State.reset

/-- Vector registers of lane 0, and of further lanes. -/
def lanes0 (es : List (Nat × W32)) (a : WarpArch) : WarpArch := a.setVs (es.map (fun e => (e.1, 0, e.2)))

theorem test_scalar_wraps :
    (after (.sadd 3 1 2) (fun a => (a.setS 1 0xFFFFFFFFFFFFFFFF).setS 2 2)).sreg 3 = 1
      ∧ (after (.smulh 3 1 2) (fun a => (a.setS 1 0xFFFFFFFFFFFFFFFE).setS 2 3)).sreg 3 = 0xFFFFFFFFFFFFFFFF
      ∧ (after (.ssub 1 1 2) (fun a => (a.setS 1 1).setS 2 2)).sreg 1 = 0xFFFFFFFFFFFFFFFF
      ∧ (after (.smul 1 1 1) (fun a => a.setS 1 0x100000003)).sreg 1 = 0x600000009 := by decide +kernel

theorem test_scalar_shifts :
    (after (.sshl 3 1 2) (fun a => (a.setS 1 1).setS 2 63)).sreg 3 = 0x8000000000000000
      ∧ (after (.sshl 3 1 2) (fun a => (a.setS 1 1).setS 2 64)).sreg 3 = 0
      ∧ (after (.sshr 3 1 2) (fun a => (a.setS 1 0x8000000000000000).setS 2 64)).sreg 3 = 0
      ∧ (after (.ssar 3 1 2) (fun a => (a.setS 1 0x8000000000000000).setS 2 64)).sreg 3 = 0xFFFFFFFFFFFFFFFF
      ∧ (after (.ssarSi 3 1 4) (fun a => a.setS 1 0x8000000000000000)).sreg 3 = 0xF800000000000000 := by decide +kernel

theorem test_scalar_compares :
    (after (.sslt 3 1 2) (fun a => (a.setS 1 0xFFFFFFFFFFFFFFFF).setS 2 0)).sreg 3 = 1
      ∧ (after (.ssltn 3 1 2) (fun a => (a.setS 1 0xFFFFFFFFFFFFFFFF).setS 2 0)).sreg 3 = 0
      ∧ (after (.smin 3 1 2) (fun a => (a.setS 1 0xFFFFFFFFFFFFFFFF).setS 2 0)).sreg 3 = 0xFFFFFFFFFFFFFFFF
      ∧ (after (.smaxn 3 1 2) (fun a => (a.setS 1 0xFFFFFFFFFFFFFFFF).setS 2 0)).sreg 3 = 0xFFFFFFFFFFFFFFFF
      ∧ (after (.ssltSi 3 1 0x3F) (fun a => a.setS 1 0xFFFFFFFFFFFFFFFE)).sreg 3 = 1 := by decide +kernel

/-- R82: the address 0x1_0143, from LI and LSH. -/
theorem test_constants : (after (.sli 5 16) id).sreg 5 = 16 ∧ (after (.slsh 5 0x143) (fun a => a.setS 5 16)).sreg 5 = 0x10143
    ∧ (after (.sli 5 0x800) id).sreg 5 = 0xFFFFFFFFFFFFF800 := by decide +kernel

/-- R80: 0x7FFFFFFF + 1 wraps, or is clamped and sets SAT. -/
theorem test_vector_fit :
    (after (.vadd ⟨3, 1, 2, 0⟩) (lanes0 [(1, 0x7FFFFFFF), (2, 1)])).vreg 3 0 = 0x80000000
      ∧ (after (.vadd ⟨3, 1, 2, 2⟩) (lanes0 [(1, 0x7FFFFFFF), (2, 1)])).vreg 3 0 = 0x7FFFFFFF
      ∧ (after (.vadd ⟨3, 1, 2, 2⟩) (lanes0 [(1, 0x7FFFFFFF), (2, 1)])).arch.nstat = 4
      ∧ (after (.vsub ⟨3, 1, 2, 3⟩) (lanes0 [(1, 1), (2, 2)])).vreg 3 0 = 0
      ∧ (after (.vmulh ⟨3, 1, 2, 0⟩) (lanes0 [(1, 0xFFFFFFFF), (2, 1)])).vreg 3 0 = 0xFFFFFFFF := by decide +kernel

/-- R89: with va = 256 and vb = 64, lane 5 receives 576. -/
theorem test_lea : (after (.vlea ⟨3, 1, 2, 0⟩) (fun a => a.setVs [(1, 5, 256), (2, 5, 64)])).vreg 3 5 = 576 := by decide +kernel

theorem test_bits :
    (after (.vsad ⟨3, 1, 2, 0⟩) (lanes0 [(3, 10), (1, 0x00FF0102), (2, 0x00010201)])).vreg 3 0 = 14
      ∧ (after (.vrot ⟨3, 1, 2, 0⟩) (lanes0 [(1, 0x80000001), (2, 33)])).vreg 3 0 = 3
      ∧ (after (.vclz 3 1) (lanes0 [(1, 0x00800000)])).vreg 3 0 = 8 ∧ (after (.vbrev 3 1) (lanes0 [(1, 1)])).vreg 3 0 = 0x80000000
      ∧ (after (.vbfx 3 1 4 3 false) (lanes0 [(1, 0xA5)])).vreg 3 0 = 0xFFFFFFFA
      ∧ (after (.vbfi 3 1 4 3) (lanes0 [(1, 0xB), (3, 0xFFFFFFFF)])).vreg 3 0 = 0xFFFFFFBF
      ∧ (after (.vsxt 3 1 8) (lanes0 [(1, 0x180)])).vreg 3 0 = 0xFFFFFF80 := by decide +kernel

theorem test_predicates :
    hasLane ((after (.vcmp ⟨2, 3, 1, 2, 0⟩) (lanes0 [(1, 0xFFFFFFFF), (2, 0)])).pred 3) 0 = true
      ∧ hasLane ((after (.vcmp ⟨2, 3, 1, 2, 1⟩) (lanes0 [(1, 0xFFFFFFFF), (2, 0)])).pred 3) 0 = false
      ∧ (after (.vcmp ⟨0, 0, 1, 1, 0⟩) id).pred 0 = (after (.vnop 0) id).pred 0
      ∧ (after (.vsel 3 1 2 4 true) (lanes0 [(1, 5), (2, 6)])).vreg 3 0 = 5 := by decide +kernel

/-- The bundle of R101: one rounding in FMA, two in FMUL and FADD. -/
theorem test_fma :
    (after (.vfma ⟨6, 4, 5, 0⟩) (lanes0 [(4, 0x3F800800), (5, 0x3F800800), (6, 0xBF801000)])).vreg 6 0 = 0x33800000
      ∧ (after (.vfmul ⟨7, 4, 5, 0⟩) (lanes0 [(4, 0x3F800800), (5, 0x3F800800)])).vreg 7 0 = 0x3F801000
      ∧ (after (.vfadd ⟨6, 6, 7, 0⟩) (lanes0 [(6, 0xBF801000), (7, 0x3F801000)])).vreg 6 0 = 0 := by decide +kernel

theorem test_float_specials :
    (after (.vfrcp ⟨3, 1, 0⟩) (lanes0 [(1, 0x80000000)])).vreg 3 0 = 0xFF800000
      ∧ (after (.vfrsq ⟨3, 1, 0⟩) (lanes0 [(1, 0xBF800000)])).vreg 3 0 = 0x7FC00000
      ∧ (after (.vfsqrt ⟨3, 1, 0⟩) (lanes0 [(1, 0x40800000)])).vreg 3 0 = 0x40000000
      ∧ (after (.vfexp2 ⟨3, 1, 0⟩) (lanes0 [(1, 0x40400000)])).vreg 3 0 = 0x41000000
      ∧ (after (.vflog2 ⟨3, 1, 0⟩) (lanes0 [(1, 0x41000000)])).vreg 3 0 = 0x40400000
      ∧ (after (.vfadd ⟨3, 1, 2, 0⟩) (lanes0 [(1, 0x7F800000), (2, 0xFF800000)])).arch.nstat = 1 := by decide +kernel

/-- R95: 300.7, −0.9, −129.0 and NaN to I8 with `.sat.rtz`. -/
theorem test_cvt :
    let t := after (.vcvt 10 3 ⟨8, 6, 0, true, true⟩) (fun a => a.setVs [(3, 0, 0x4396599A), (3, 1, 0xBF666666), (3, 2, 0xC3010000), (3, 3, 0x7FC00000)])
    t.vreg 10 0 = 0x7F ∧ t.vreg 10 1 = 0 ∧ t.vreg 10 2 = 0x80 ∧ t.vreg 10 3 = 0 ∧ t.arch.nstat = 5 := by decide +kernel

/-- R102: 27.0 and 480.0 to byte 2. -/
theorem test_fcvt :
    let t := after (.vfcvt 10 3 ⟨0, 6, 2, false, false⟩) (fun a => a.setVs [(3, 0, 0x41D80000), (3, 1, 0x43F00000), (10, 0, 0x11111111), (10, 1, 0x11111111)])
    t.vreg 10 0 = 0x115E1111 ∧ t.vreg 10 1 = 0x117E1111 ∧ t.arch.nstat = 2 := by decide +kernel

/-- R96: element 15 of a stream of F6, the two highest bits of v1 with v2's lowest. -/
theorem test_pack :
    (after (.vunpk 6 1 2 28) (lanes0 [(1, 0xA0000000), (2, 0x00000001)])).vreg 6 0 = 0x1A
      ∧ (after (.vpack 20 4 2 30) (lanes0 [(4, 0x3F), (20, 0), (21, 0xFFFFFFF0)])).vreg 20 0 = 0xC0000000 := by decide +kernel

/-- The worked quad exchange: lane 7 has exited and holds 70. -/
def quads (a : WarpArch) : WarpArch :=
  { a.setVs ((List.range 8).map (fun l => (2, l, BitVec.ofNat 32 (10 * l)))) with live := 127 }

/-- Lanes 0 to 6 issue, lane 7 helps. -/
def helped (i : Instr) : State :=
  let s := smallArch (fun a => { quads a with units := a.units.map (fun v => { v with lanes := 127 }) })
  match exec i { s with cur := { s.cur with lanes := 127, guard := 127, helpers := 128 } } with
  | .next t => t
  | _ => State.reset

theorem test_quad_exchange :
    (helped (.vqxch 3 2 0 none)).vreg 3 6 = 70 ∧ (helped (.vqxch 3 2 0 none)).vreg 3 7 = 60 ∧ (helped (.vqxch 3 2 0 none)).vreg 3 4 = 50
      ∧ (helped (.vqxch 3 2 6 none)).vreg 3 4 = 70 ∧ (helped (.vwred 9 2 0 0 false)).vreg 9 4 = 210
      ∧ (helped (.vwred 9 2 0 0 false)).vreg 9 7 = 0 ∧ hasLane ((helped (.vvote 1 5 0 false none)).pred 5) 6 = true
      ∧ hasLane ((helped (.vvote 1 5 0 false none)).pred 5) 7 = false := by decide +kernel

/-- R75: one rounding per segment. -/
theorem test_mma_sum :
    let m : MatOp := ⟨16, 0, false, ⟨0, 0, 1, 0, 1, false, false⟩, 0x400, 1, [(0, 126), (64, 126)], [], true,
      [0x38, 0x38, 0x38] ++ List.replicate 13 0 ++ [0x38] ++ List.replicate 15 0, List.replicate 16 0x38 ++ [0xB8] ++ List.replicate 15 0x38, 1⟩
    matrixElement m 0 0 0x4B800000 = (0x4B800001, 0) := by decide +kernel

/-- R76: a reserved T2 code adds nothing and sets TRES. -/
theorem test_mss_sum :
    let m : MatOp := ⟨16, 0, true, ⟨0, 0, 1, 0, 1, false, false⟩, 0x78, 1, [], [], true, [100, 128, 127, 5] ++ List.replicate 28 0, [0x2D] ++ List.replicate 7 0, 8⟩
    matrixElement m 0 0 0 = (228, 8) := by decide +kernel

/-- R54: the worked decodings of F8A and F8B, and F6 and F4. -/
theorem test_decodings : [(0x5B, 0x41B00000), (0x7E, 0x43E00000), (0x03, 0x3BC00000)].all
      (fun e => (roundFlagged fmtFP32 false (fmtF8A.decode e.1, 0)).1 == e.2) = true
    ∧ (roundFlagged fmtFP32 false (fmtF8B.decode 0xC1, 0)).1 = 0xC0200000 ∧ fmtF8B.decode 0x7C = .inf false
    ∧ (roundFlagged fmtFP32 false (fmtF6.decode 0b011010, 0)).1 = 0x41400000
    ∧ (roundFlagged fmtFP32 false (fmtF4.decode 0b1101, 0)).1 = 0xC0400000 := by decide +kernel

/-- R60: FP32 values rounded into F8A: 25.0, 27.0, 460.0, 480.0 and 10^6. -/
theorem test_roundings : [(0x41C80000, 0x5C, 0x5C, 0), (0x41D80000, 0x5E, 0x5D, 0), (0x43E60000, 0x7E, 0x7E, 0), (0x43F00000, 0x7E, 0x7E, 2),
    (0x49742400, 0x7E, 0x7E, 2)].all (fun e => roundFlagged fmtF8A false (fmtFP32.decode e.1, 0) == (e.2.1, e.2.2.2)
      && roundFlagged fmtF8A true (fmtFP32.decode e.1, 0) == (e.2.2.1, e.2.2.2)) = true := by decide +kernel

/-- The posted write waits while its home counts the sector's tokens. -/
def postedCounted : State := { posted with tok := { posted.tok with census := [⟨2 ^ 42, .wait50, [], 1000, 0, 0, false, false, 0⟩] } }

theorem witness_posted_write_waits_for_census :
    CensusRuns postedCounted (2 ^ 42) ∧ satisfied postedCounted (ownAgent postedCounted.sys 512) (2 ^ 42) true = true
      ∧ ¬ CensusRuns posted (2 ^ 42) := by
  refine ⟨⟨_, List.mem_singleton.mpr rfl, rfl, by decide⟩, by decide +kernel, ?_⟩
  rintro ⟨c, h, _⟩
  exact absurd h (by simp [posted])

/-- R213, R214: a write of another module joins the posted writes of its home without an acknowledgement. -/
theorem test_remote_write_arrives :
    (arriveWrite { small with tok := {} } ⟨2 ^ 42, [(0, [5])], none, 9, 2, 0⟩).tok.posted
      = [⟨0, ⟨2 ^ 42, [(0, [5])], none, 9, 2, 0⟩, none⟩] := by decide +kernel

/-- R318, R332: a recreation that found no owner poisons the sector and records type 0x03. -/
theorem test_recreation_without_owner :
    let s := finishRecreation { small with tok := {} } ⟨2 ^ 42, .recreate, [], 0, 2045, 0, false, false, 0⟩
    Sparse.get false s.tok.poison (2 ^ 42) = true
      ∧ (s.sys.box.map (fun e => (e.2.w1.toNat % 256, e.2.w1.toNat / 2 ^ 14 % 4))) = [(3, 1)] := by
  decide +kernel

/-- R184: in a full table, an entry that no longer divides its lanes gives way to its parent. -/
theorem test_full_split_table_makes_room :
    let e (p : Option Nat) : Split := { lanes := 3, waiting := 0, parent := p, serial := 1, addr := 0 }
    let a : WarpArch := { splits := (List.range 64).map (fun k => (k, e (if k = 0 then none else some (k - 1)))),
                          units := [{ key := some 63, lanes := 3 }] }
    (makeRoom {} a).splits = [] ∧ (makeRoom {} a).units.map (·.key) = [none] := by
  decide +kernel

end Sys2Proof.Tests
end

section
/-! What the issue of a bundle changes (R40): the merge that its convergence asks for, the first bundle's flags and the pipe move
units, stacks, split entries and block instances; no lane's data. -/

namespace Sys2Proof.Machine

/-! ### A warp's data, apart from its control state -/

/-- The architectural state without what a merge or a block's start moves: units, stacks, the split table, completion flags and
block instances. -/
def WarpArch.data (a : WarpArch) : WarpArch := { a with units := [], stack := [], splits := [], flags := 0, insts := [] }

/-- Any update of the control state keeps the data. -/
@[simp] theorem WarpArch.data_update (a : WarpArch) (units stack : List IUnit) (splits : Sparse Split) (flags : BitVec 12)
    (insts : List BlockInst) :
    ({ a with units := units, stack := stack, splits := splits, flags := flags, insts := insts } : WarpArch).data = a.data := rfl

/-- Warps of equal data hold equal registers, predicates, tiles, flags of NSTAT and live lanes. -/
theorem WarpArch.registers_of_data {a a' : WarpArch} (h : a.data = a'.data) :
    a.sregs = a'.sregs ∧ a.vregs = a'.vregs ∧ a.preds = a'.preds ∧ a.acc = a'.acc ∧ a.nstat = a'.nstat ∧ a.live = a'.live := by
  simp only [WarpArch.data, WarpArch.mk.injEq] at h
  simp only [h, and_self]

theorem popStack_data {a a' : WarpArch} {p : Nat} {v : IUnit} (h : popStack a p = some (v, a')) : a'.data = a.data := by
  unfold popStack at h
  split at h
  · cases h
  · obtain ⟨q, -, hq⟩ := Option.map_eq_some_iff.mp h
    cases hq
    rfl

/-- The primary slot's refill, then the secondary slot's. -/
@[simp] theorem refillPly_data (a : WarpArch) (p : Nat) : (refillPly a p).data = a.data := by
  unfold refillPly
  extract_lets a1
  have h1 : a1.data = a.data := by
    simp only [a1]
    split
    · rfl
    · split
      · rfl
      · split
        · next h => rw [WarpArch.data_update, popStack_data h]
        · rfl
  split
  · exact h1
  · split
    · next h => rw [WarpArch.data_update, popStack_data h, h1]
    · exact h1

theorem foldl_data {α : Type} {f : WarpArch → α → WarpArch} (hf : ∀ a e, (f a e).data = a.data) (es : List α) (a : WarpArch) :
    (es.foldl f a).data = a.data := by
  induction es generalizing a with
  | nil => rfl
  | cons e es ih => exact (ih (f a e)).trans (hf a e)

@[simp] theorem normalise_data (a : WarpArch) : (normalise a).data = a.data := by
  unfold normalise
  rw [foldl_data refillPly_data, WarpArch.data_update]

@[simp] theorem gather_data (a : WarpArch) (sel : IUnit → Bool) (proto : IUnit) : (gather a sel proto).data = a.data := by
  unfold gather
  simp only [normalise_data, WarpArch.data_update]

@[simp] theorem dissolve_data (blk : Block) (a : WarpArch) (gone : List Nat) (top : Option Nat) :
    (dissolve blk a gone top).data = a.data := rfl

@[simp] theorem shedKeys_data (f : Nat) (a : WarpArch) (u : Nat) : (shedKeys f a u).data = a.data := by
  induction f generalizing a with
  | zero => rfl
  | succ f ih =>
    simp only [shedKeys]
    split
    · rfl
    · split
      · rfl
      · split
        · exact ih _
        · rfl

@[simp] theorem modSplit_data (a : WarpArch) (e : Nat) (f : Split → Split) : (modSplit a e f).data = a.data := by
  unfold modSplit
  split <;> rfl

@[simp] theorem mergeSplit_data (f : Nat) (x : Warp) (e : Nat) : (mergeSplit f x e).arch.data = x.arch.data := by
  induction f generalizing x e with
  | zero => rfl
  | succ f ih =>
    simp only [mergeSplit]
    split
    · rfl
    · split
      · split
        · simp only [gather_data, WarpArch.data_update]
        · simp only [ih, modSplit_data, gather_data, WarpArch.data_update]
      · rfl

@[simp] theorem arriveRekeyed_data (blk : Block) (x : Warp) (top : Option Nat) : (arriveRekeyed blk x top).arch.data = x.arch.data := by
  unfold arriveRekeyed
  split
  · rfl
  · simp only [mergeSplit_data, modSplit_data, WarpArch.data_update]

/-- The whole warp merged, nothing merged, or the lanes of some sides merged. -/
@[simp] theorem converge_data (blk : Block) (x : Warp) (u : Nat) (c : Conv) (m : Lanes) :
    (converge blk x u c m).1.arch.data = x.arch.data := by
  unfold converge
  extract_lets v sel sides keys top above gone a k y z
  have hy : y.arch.data = x.arch.data := by simp only [y, a, shedKeys_data, gather_data, dissolve_data]
  split
  · rfl
  · split
    · rfl
    · split
      · exact hy
      · exact (arriveRekeyed_data _ _ _).trans hy

@[simp] theorem startInst_data (x : Warp) (u : Nat) : (startInst x u).arch.data = x.arch.data := rfl

/-! ### The issue of a bundle -/

/-- The warp in which bundle `b` of unit `u` executes for the lanes `m`: converged, its block's flags started, its unit at the bundle. -/
def issueWarp (s : State) (w u : Nat) (b : Bundle) (m : Lanes) : Warp :=
  let x := s.warp w
  let y := converge (s.block x.blk) x u (unitConv x.arch (x.unit u) b) m
  let x1 := if (y.1.unit y.2).pos.idx ≤ 1 ∧ (y.1.unit y.2).pos.inst = 0 then startInst y.1 y.2 else y.1
  (atBundle x1 y.2).setUnit y.2 (fun v => v.begin x1.nextId)

theorem issueWarp_data (s : State) (w u : Nat) (b : Bundle) (m : Lanes) : (issueWarp s w u b m).arch.data = (s.warp w).arch.data := by
  unfold issueWarp
  extract_lets x y x1
  have h1 : x1.arch.data = x.arch.data := by
    simp only [x1, y]
    split
    · rw [startInst_data, converge_data]
    · exact converge_data _ _ _ _ _
  simp only [atBundle, Warp.setUnit, WarpArch.data_update, h1, x]

theorem issueState_warps (s : State) (w u : Nat) (b : Bundle) (m : Lanes) :
    (issueState s w u b m).warps = (s.setWarp w (issueWarp s w u b m)).warps := rfl

theorem issueState_warp (s : State) (w u k : Nat) (b : Bundle) (m : Lanes) :
    (issueState s w u b m).warp k = if k = w then issueWarp s w u b m else s.warp k := by
  rw [← State.setWarp_warp, State.warp, issueState_warps, State.warp]

theorem issueState_arch (s : State) (w u : Nat) (b : Bundle) (m : Lanes) :
    (issueState s w u b m).arch = (issueWarp s w u b m).arch :=
  congrArg Warp.arch ((issueState_warp s w u w b m).trans (if_pos rfl))

theorem issueState_data (s : State) (w u : Nat) (b : Bundle) (m : Lanes) :
    (issueState s w u b m).arch.data = (s.warp w).arch.data := by
  rw [issueState_arch, issueWarp_data]

theorem issueState_guard (s : State) (w u : Nat) (b : Bundle) (m : Lanes) :
    (issueState s w u b m).cur.guard = guardLanes (issueState s w u b m).arch b m := by
  rw [issueState_arch]
  rfl

theorem issueState_helpers (s : State) (w u : Nat) (b : Bundle) (m : Lanes) :
    (issueState s w u b m).cur.helpers = helpersOf (issueState s w u b m).arch m := by
  rw [issueState_arch]
  rfl

/-! ### Guard and helpers as lane masks -/

theorem hasLane_and (m n : Lanes) (l : Nat) : hasLane (m &&& n) l = (hasLane m l && hasLane n l) := BitVec.getLsbD_and

/-- The guard passes in the active lanes whose predicate matches the sense (R23). -/
theorem hasLane_guardLanes (a : WarpArch) (b : Bundle) (m : Lanes) (l : Nat) :
    hasLane (guardLanes a b m) l = true ↔ hasLane m l = true ∧ hasLane (a.getP b.gpred.toNat) l = b.gsense := by
  rw [guardLanes, hasLane_and, Bool.and_eq_true]
  refine and_congr_right fun hm => ?_
  have hl : l < 64 := BitVec.lt_of_getLsbD hm
  cases b.gsense with
  | true => rfl
  | false => simp [hasLane, hl]

/-- p0 reads 1 in every lane (R19), so that a guard on it passes in every active lane. -/
theorem guardLanes_p0 (a : WarpArch) (b : Bundle) (m : Lanes) (hp : b.gpred = 0) (hs : b.gsense = true) : guardLanes a b m = m := by
  simp only [guardLanes, WarpArch.getP, hp, hs, if_true]
  exact BitVec.and_allOnes

/-- Helpers are not live (R103): live active lanes and helpers are disjoint. -/
theorem guardLanes_and_helpersOf (a : WarpArch) (b : Bundle) (m : Lanes) (h : m &&& ~~~a.live = 0) :
    guardLanes a b m &&& helpersOf a m = 0 := by
  unfold guardLanes helpersOf
  extract_lets p
  generalize (if b.gsense = true then p else ~~~p) = g
  calc m &&& g &&& (quadsOf m &&& ~~~a.live)
      = (m &&& ~~~a.live) &&& (g &&& quadsOf m) := by ac_rfl
    _ = 0 := by rw [h]; exact BitVec.zero_and

/-- Settles O55: forming the issue keeps the warp's data, so that the guard and the helpers, read in the formed state, are those of
the registers as they stood. -/
theorem issueFollowsGuard : Obligations.IssueFollowsGuard := by
  unfold Obligations.IssueFollowsGuard
  intro s w u b m t
  obtain ⟨hs, hv, hp, hacc, hn, hlive⟩ := WarpArch.registers_of_data (issueState_data s w u b m)
  have hguard : t.cur.guard = guardLanes t.arch b m := issueState_guard s w u b m
  have hhelp : t.cur.helpers = helpersOf t.arch m := issueState_helpers s w u b m
  refine ⟨rfl, rfl, rfl, rfl, ?guard, ?p0, hhelp, ?disjoint, hs, hv, hp, hacc, hn, hlive, rfl, rfl, ?others⟩
  case guard => exact fun l => hguard ▸ hasLane_guardLanes t.arch b m l
  case p0 => exact fun hpred hsense => hguard.trans (guardLanes_p0 _ b m hpred hsense)
  case disjoint => exact fun hm => by rw [hguard, hhelp, guardLanes_and_helpersOf _ b m hm]
  case others => exact fun k hk => (issueState_warp s w u k b m).trans (if_neg hk)

end Sys2Proof.Machine
end

section
/-! SUPPORT. Taking a trap, said as the statements say it, and changes that keep every warp, memory and scratchpad. -/

namespace Sys2Proof.Machine

open Sys2Proof.Claim

/-! ### Entries of a list -/

theorem getElem?_modAt {α : Type} (xs : List α) (k j : Nat) (f : α → α) :
    (modAt xs k f)[j]? = if j = k then xs[j]?.map f else xs[j]? := by
  induction xs generalizing k j with
  | nil => simp [modAt]
  | cons x xs ih => cases k <;> cases j <;> simp [modAt, ih]

theorem getElem?_setAt_self {α : Type} {xs : List α} {k : Nat} (y : α) (h : k < xs.length) : (setAt xs k y)[k]? = some y := by
  induction xs generalizing k with
  | nil => cases h
  | cons x xs ih =>
    cases k with
    | zero => rfl
    | succ k => exact ih (Nat.lt_of_succ_lt_succ h)

theorem indexOf_eq_none {α : Type} {p : α → Bool} {xs : List α} (h : ∀ x ∈ xs, p x = false) : indexOf p xs = none := by
  induction xs with
  | nil => rfl
  | cons x xs ih =>
    rw [indexOf, if_neg (by simp [h x]), ih fun y hy => h y (List.mem_cons_of_mem x hy)]; rfl

/-- The bits of flags joined one after another. -/
theorem getLsbD_foldl_or {α : Type} {w : Nat} (xs : List α) (f : α → BitVec w) (v : BitVec w) (k : Nat) :
    (xs.foldl (fun acc e => acc ||| f e) v).getLsbD k = true
      ↔ v.getLsbD k = true ∨ ∃ e, e ∈ xs ∧ (f e).getLsbD k = true := by
  induction xs generalizing v with
  | nil => simp
  | cons x xs ih => simp [ih, or_assoc]

theorem getLsbD_foldl_or_zero {α : Type} {w : Nat} (xs : List α) (f : α → BitVec w) (k : Nat) :
    (xs.foldl (fun acc e => acc ||| f e) 0).getLsbD k = true ↔ ∃ e, e ∈ xs ∧ (f e).getLsbD k = true := by
  rw [getLsbD_foldl_or, BitVec.ofNat_eq_ofNat, BitVec.getLsbD_zero]
  exact or_iff_right Bool.false_ne_true

/-! ### Taking a trap (R153, R154) -/

theorem wantLive_frame (s : State) (w : Nat) (h : Header) (lanes : Lanes) :
    wantLive s w h lanes = { s with cores := (wantLive s w h lanes).cores } := by
  unfold wantLive
  extract_lets
  split <;> rfl

theorem WarpArch.applyLive_frame (a : WarpArch) (h : Header) (lanes : Lanes) :
    a.applyLive h lanes = { a with dead := (a.applyLive h lanes).dead, vregs := (a.applyLive h lanes).vregs } := by
  unfold WarpArch.applyLive
  split <;> rfl

/-- The LIVE field of a header that a unit enters touches vector registers and the plies' LIVE alone. -/
theorem WarpArch.enterLive_frame (a : WarpArch) (h : Header) (lanes : Lanes) :
    (a.applyLive h lanes).noteLive h lanes
      = { a with dead := (a.applyLive h lanes).dead, vregs := (a.applyLive h lanes).vregs,
                 plyLive := ((a.applyLive h lanes).noteLive h lanes).plyLive } := by
  rw [noteLive, applyLive_frame]

/-- What the trap of a slot that can trap changes: its unit, the registers that the handler's LIVE field makes undefined, a
black-box record and the granules wanted. -/
theorem State.trap_eq {s : State} (t : TrapInfo) (h : CanTrap s) :
    ∃ entry f dead vregs ply cores box pending, s.cblk.handler = some entry
      ∧ s.trap t = { s.setCw { s.cw with arch := { s.arch with
                        dead := dead, vregs := vregs, plyLive := ply, units := modAt s.arch.units s.cur.u f } } with
                      cores := cores, cur := { s.cur with status := .trapped },
                      sys := { s.sys with box := box, boxHead := s.sys.boxHead + 1, pending := pending } }
      ∧ (f s.unit).trap = some (makeFrame s.unit { t with slotVec := s.cur.slotVec })
      ∧ (f s.unit).pos.hdr = entry ∧ (f s.unit).pos.idx = 0 ∧ (f s.unit).lanes = s.unit.lanes := by
  obtain ⟨hlevel, -, entry, head, hhandler, hhead⟩ := h
  have henter := takeTrap_enters (w := s.cur.w) (u := s.cur.u) (t := { t with slotVec := s.cur.slotVec }) hlevel hhandler hhead
  rw [wantLive_frame, WarpArch.enterLive_frame] at henter
  refine ⟨entry, _, _, _, _, _, _, _, hhandler, congrArg (State.setStatus · .trapped) henter, rfl, rfl, rfl, rfl⟩

/-- A slot that can trap takes any trap of the bundle at hand. -/
theorem State.trap_taken {s : State} (t : TrapInfo) (h : CanTrap s) (hpc : t.fpc = none) (hmask : t.fmask = none)
    (hskips : t.skips = false) :
    TrapTaken s (s.trap t) t.vec t.cause t.code s.unit.lanes t.faddr s.cur.slotVec := by
  obtain ⟨entry, f, dead, vregs, ply, cores, box, pending, hhandler, heq, htrap, hhdr, hidx, hlanes⟩ := s.trap_eq t h
  have hcw : (s.trap t).cw = { s.cw with arch := { s.arch with
      dead := dead, vregs := vregs, plyLive := ply, units := modAt s.arch.units s.cur.u f } } := by
    rw [heq]; exact s.setCw_cw _
  have harch : (s.trap t).arch = { s.arch with
      dead := dead, vregs := vregs, plyLive := ply, units := modAt s.arch.units s.cur.u f } := congrArg Warp.arch hcw
  have hunit : (s.trap t).unit = f s.unit := by
    have hself : (s.trap t).cur.u = s.cur.u := by rw [heq]
    obtain ⟨v, hv⟩ : ∃ v, s.cw.arch.units[s.cur.u]? = some v := ⟨_, List.getElem?_eq_getElem h.2.1⟩
    simp only [State.unit, Warp.unit, hcw, hself, getElem?_modAt, if_true, State.arch, hv, Option.map_some, Option.getD_some]
  have hothers : ∀ k, k ≠ s.cur.u → (s.trap t).cw.unit k = s.cw.unit k := fun k hk => by
    simp only [Warp.unit, hcw, getElem?_modAt, if_neg hk]; rfl
  have hframe := hunit ▸ htrap
  refine ⟨?status, ⟨_, hframe, ?frame⟩, ⟨entry, hhandler, hunit ▸ hhdr, hunit ▸ hidx⟩, hunit ▸ hlanes, hothers, ?_, ?_, ?_, ?_, ?_,
    ?kept⟩
  case status => rw [heq]
  case frame => simp only [makeFrame, hpc, hmask, hskips, Option.getD_none, Bool.or_false, and_self]
  case kept =>
    rw [heq]
    exact ⟨rfl, rfl, fun v hv => (State.setWarp_warp _ _ _ _).trans (if_neg hv), rfl⟩
  all_goals simp only [harch, hcw]

/-! ### Changes that keep warps, memory and scratchpads -/

/-- Every warp, memory at its homes, the harts, and every block's scratchpad and full/empty bits are as before. -/
structure StorageKept (s t : State) : Prop where
  warps : t.warps = s.warps
  mem : t.mem = s.mem
  harts : t.harts = s.harts
  sp : ∀ b, (t.block b).sp = (s.block b).sp
  full : ∀ b, (t.block b).full = (s.block b).full

theorem StorageKept.refl (s : State) : StorageKept s s := ⟨rfl, rfl, rfl, fun _ => rfl, fun _ => rfl⟩

theorem StorageKept.trans {s t u : State} (h : StorageKept s t) (k : StorageKept t u) : StorageKept s u :=
  ⟨k.warps.trans h.warps, k.mem.trans h.mem, k.harts.trans h.harts, fun b => (k.sp b).trans (h.sp b),
    fun b => (k.full b).trans (h.full b)⟩

theorem StorageKept.warp {s t : State} (h : StorageKept s t) (v : Nat) : t.warp v = s.warp v := by
  rw [State.warp, h.warps, State.warp]

theorem StorageKept.memoryKept {s t : State} (h : StorageKept s t) : MemoryKept s t :=
  ⟨fun a => by rw [homeByte, h.mem, homeByte], fun b => ⟨h.sp b, h.full b⟩⟩

theorem StorageKept.dataKept {s t : State} (h : StorageKept s t) : DataKept s t :=
  ⟨h.memoryKept, h.harts, fun v => by rw [h.warp]⟩

theorem StorageKept.setBlock (s : State) {b : Nat} {x : Block} (hsp : x.sp = (s.block b).sp) (hfull : x.full = (s.block b).full) :
    StorageKept s (s.setBlock b x) where
  warps := rfl
  mem := rfl
  harts := rfl
  sp c := by rw [State.setBlock_block]; split <;> simp only [*]
  full c := by rw [State.setBlock_block]; split <;> simp only [*]

theorem StorageKept.setCore (s : State) (c : Nat) (x : Core) : StorageKept s (s.setCore c x) :=
  ⟨rfl, rfl, rfl, fun _ => rfl, fun _ => rfl⟩

theorem memoryKept_trans {s t u : State} (h : MemoryKept s t) (k : MemoryKept t u) : MemoryKept s u :=
  ⟨fun a => (k.1 a).trans (h.1 a), fun b => ⟨(k.2 b).1.trans (h.2 b).1, (k.2 b).2.trans (h.2 b).2⟩⟩

theorem dataKept_trans {s t u : State} (h : DataKept s t) (k : DataKept t u) : DataKept s u :=
  ⟨memoryKept_trans h.1 k.1, k.2.1.trans h.2.1, fun v => (k.2.2 v).trans (h.2.2 v)⟩

theorem memoryKept_setWarp (s : State) (w : Nat) (x : Warp) : MemoryKept s (s.setWarp w x) :=
  ⟨fun _ => rfl, fun _ => ⟨rfl, rfl⟩⟩

/-- A warp set with the registers it had. -/
theorem dataKept_setWarp (s : State) {w : Nat} {x : Warp} (h : registersOf x = registersOf (s.warp w)) :
    DataKept s (s.setWarp w x) :=
  ⟨memoryKept_setWarp s w x, rfl, fun v => by rw [State.setWarp_warp]; split <;> simp only [*]⟩

end Sys2Proof.Machine
end

section
/-! Batches (R67, R168 to R170): closing, waiting, completing, and the chunk counters that their completion raises. -/

namespace Sys2Proof.Machine

open Sys2Proof.Claim

/-! ### Completion flags -/

theorem getLsbD_flagMask (k : Nat) {j : Nat} (hj : j < 12) : (BitVec.ofNat 12 (2 ^ k)).getLsbD j = (j == k) := by
  rw [BitVec.getLsbD_ofNat, Nat.testBit_two_pow, decide_eq_true hj, Bool.true_and, beq_eq_decide, decide_eq_decide]
  exact eq_comm

theorem getLsbD_setFlag (flags : BitVec 12) (k : BitVec 4) {j : Nat} (hj : j < 12) :
    (setFlag flags k).getLsbD j = (flags.getLsbD j || j == k.toNat) := by
  unfold setFlag
  split
  · rw [BitVec.getLsbD_or, getLsbD_flagMask _ hj]
  · have : (j == k.toNat) = false := beq_false_of_ne (by omega)
    rw [this, Bool.or_false]

theorem getLsbD_clearFlag (flags : BitVec 12) (k : BitVec 4) {j : Nat} (hj : j < 12) :
    (clearFlag flags k).getLsbD j = (flags.getLsbD j && j != k.toNat) := by
  unfold clearFlag
  split
  · rw [BitVec.getLsbD_and, BitVec.getLsbD_not, getLsbD_flagMask _ hj, decide_eq_true hj, Bool.true_and, bne]
  · have : (j == k.toNat) = false := beq_false_of_ne (by omega)
    rw [bne, this, Bool.not_false, Bool.and_true]

/-! ### MFENCE closes a batch (R168) -/

theorem endEligible_kept (s : State) (b : Nat) : StorageKept s (endEligible s b) := by
  unfold endEligible
  split
  · next k hk =>
    split
    · exact StorageKept.setBlock s (by simp [State.block, hk]) (by simp [State.block, hk])
    · exact .refl s
  · exact .refl s

theorem endEligible_cur (s : State) (b : Nat) : (endEligible s b).cur = s.cur := by
  unfold endEligible
  split
  · split <;> rfl
  · rfl

theorem openSample_kept (s : State) (w : Nat) : StorageKept s (openSample s w) := by
  unfold openSample
  extract_lets
  split
  · exact ⟨rfl, rfl, rfl, fun _ => rfl, fun _ => rfl⟩
  · exact StorageKept.setCore ..

theorem openSample_cur (s : State) (w : Nat) : (openSample s w).cur = s.cur := by
  unfold openSample
  extract_lets
  split <;> rfl

/-- The warp that MFENCE leaves: the open batch closed under the next number, and its flag cleared. -/
def Warp.closeBatch (x : Warp) (d : BitVec 6) (flag : BitVec 4) (ck : Bool) (ctr : BitVec 5) : Warp :=
  { x with
    arch := { x.arch.setS d.toNat (x.arch.batch + 1) with batch := x.arch.batch + 1, flags := clearFlag x.arch.flags flag }
    openBatch := []
    batches := x.batches ++ [{ no := x.arch.batch + 1, members := x.openBatch, flag := flag, ck := ck, ctr := ctr,
                               writes := if ck then openWrites x else [], id := x.nextId, done := false }]
    nextId := x.nextId + 1 }

/-- A batch with CK ends its block's rollback eligibility before it closes (R307). -/
def State.beforeClose (s : State) (ck : Bool) : State := if ck then endEligible s s.cw.blk else s

theorem State.beforeClose_kept (s : State) (ck : Bool) : StorageKept s (s.beforeClose ck) := by
  cases ck
  · exact .refl s
  · exact endEligible_kept ..

theorem State.beforeClose_cur (s : State) (ck : Bool) : (s.beforeClose ck).cur = s.cur := by
  cases ck
  · rfl
  · exact endEligible_cur ..

theorem State.beforeClose_cw (s : State) (ck : Bool) : (s.beforeClose ck).cw = s.cw := by
  rw [cw, beforeClose_cur, (s.beforeClose_kept ck).warp, cw]

/-- The module after an MFENCE that closes a batch. -/
def State.closeBatch (s : State) (d : BitVec 6) (flag : BitVec 4) (ck : Bool) (ctr : BitVec 5) : State :=
  openSample (((s.beforeClose ck).noteClear flag).setCw ((s.beforeClose ck).cw.closeBatch d flag ck ctr)) s.cur.w

/-- MFENCE with its guard satisfied and its counter in the set. -/
theorem execSmfence_closes {s : State} (d : BitVec 6) (flag : BitVec 4) {ck : Bool} {ctr : BitVec 5} (hon : s.scalarOn = true)
    (hctr : ck = true → s.cblk.ctrSet.getLsbD ctr.toNat = true) :
    exec (.smfence d flag ck ctr) s = .next (s.closeBatch d flag ck ctr) := by
  have hset : (ck && !s.cblk.ctrSet.getLsbD ctr.toNat) = false := by
    cases ck
    · rfl
    · rw [hctr rfl]; rfl
  show execSmfence d flag ck ctr s = _
  simp only [execSmfence, scalarDo, hon, hset, if_true, Bool.false_eq_true, if_false]
  rfl

theorem State.closeBatch_cur (s : State) (d : BitVec 6) (flag : BitVec 4) (ck : Bool) (ctr : BitVec 5) :
    (s.closeBatch d flag ck ctr).cur = { s.cur with cleared := setFlag s.cur.cleared flag } := by
  rw [closeBatch, openSample_cur, ← s.beforeClose_cur ck]; rfl

theorem State.closeBatch_warp (s : State) (d : BitVec 6) (flag : BitVec 4) (ck : Bool) (ctr : BitVec 5) (v : Nat) :
    (s.closeBatch d flag ck ctr).warp v = if v = s.cur.w then s.cw.closeBatch d flag ck ctr else s.warp v := by
  rw [closeBatch, (openSample_kept ..).warp, beforeClose_cw, ← (s.beforeClose_kept ck).warp, ← s.beforeClose_cur ck]
  exact State.setWarp_warp ..

theorem State.closeBatch_cw (s : State) (d : BitVec 6) (flag : BitVec 4) (ck : Bool) (ctr : BitVec 5) :
    (s.closeBatch d flag ck ctr).cw = s.cw.closeBatch d flag ck ctr := by
  rw [cw, closeBatch_cur, closeBatch_warp, if_pos rfl]

theorem State.closeBatch_memoryKept (s : State) (d : BitVec 6) (flag : BitVec 4) (ck : Bool) (ctr : BitVec 5) :
    MemoryKept s (s.closeBatch d flag ck ctr) :=
  memoryKept_trans (s.beforeClose_kept ck).memoryKept
    (memoryKept_trans (memoryKept_setWarp ((s.beforeClose ck).noteClear flag) _ _) (openSample_kept ..).memoryKept)

/-! ### MWAIT (R169) -/

/-- The batch that MWAIT waits for. -/
def awaited (s : State) (a : BitVec 6) : Nat := min (s.sreg a.toNat).toNat s.arch.batch.toNat

theorem execSmwait_eq (s : State) (a : BitVec 6) :
    exec (.smwait a) s = .next (
      if s.scalarOn = true ∧ s.unit.passed = false ∧ ¬ ∀ b, b ∈ s.cw.batches → b.done = true ∨ awaited s a < b.no.toNat
        then s.hold (.mwait (awaited s a)) else s) := by
  show execSmwait a s = _
  have hall : s.cw.batches.all (fun b => b.done || decide (awaited s a < b.no.toNat)) = true
      ↔ ∀ b, b ∈ s.cw.batches → b.done = true ∨ awaited s a < b.no.toNat := by
    simp only [List.all_eq_true, Bool.or_eq_true, decide_eq_true_eq]
  simp only [execSmwait, scalarDo, ← hall, ← show awaited s a = min (s.sreg a.toNat).toNat s.arch.batch.toNat from rfl]
  cases s.scalarOn
  · rfl
  · cases s.unit.passed
    · simp only [if_true, Bool.false_or, true_and, ite_not]
    · rfl

/-! ### A batch completes (R67, R168) -/

theorem batchReady_iff (s : State) (w : Nat) (x : Warp) (b : Batch) :
    batchReady s w x b = true ↔ (∀ e, e ∈ x.batches → e.no < b.no → e.done = true)
      ∧ (∀ i m, i ∈ b.members → m ∈ (s.block x.blk).mq → ¬ (m.warp = w ∧ m.id = i)) ∧ ∀ c, c ∈ openLoads x → b.id ≤ c.id := by
  simp only [batchReady, loadsReturned, Bool.and_eq_true, List.all_eq_true, Bool.or_eq_true, decide_eq_true_eq, and_assoc,
    ← BitVec.not_lt, ← imp_iff_not_or, Bool.not_eq_true', List.any_eq_false, beq_iff_eq]
  exact and_congr_right' (and_congr_left' ⟨fun h i m hi hm => h i hi m hm, fun h i hi m hm => h i m hi hm⟩)

/-- The warp of a batch that completes. -/
def Warp.finishBatch (x : Warp) (b : Batch) : Warp :=
  { x.updArch b.id (fun a => { a with
      nstat := a.nstat ||| (x.mflags.filter (fun e => b.members.contains e.1)).foldl (fun v e => v ||| e.2) 0
      flags := setFlag a.flags b.flag }) with
    mflags := x.mflags.filter (fun e => !b.members.contains e.1)
    batches := if b.ck then x.batches.map (fun e => if e.no == b.no then { e with done := true } else e)
      else x.batches.filter (fun e => e.no != b.no) }

theorem completeBatch_warp (s : State) (w : Nat) (b : Batch) (v : Nat) :
    (completeBatch s w b).warp v = if v = w then (s.warp w).finishBatch b else s.warp v := State.setWarp_warp ..

theorem completeBatch_memoryKept (s : State) (w : Nat) (b : Batch) : MemoryKept s (completeBatch s w b) :=
  memoryKept_setWarp s w ((s.warp w).finishBatch b)

theorem Warp.finishBatch_nstat (x : Warp) (b : Batch) (k : Nat) :
    (x.finishBatch b).arch.nstat.getLsbD k = true
      ↔ x.arch.nstat.getLsbD k = true ∨ ∃ e, e ∈ x.mflags ∧ e.1 ∈ b.members ∧ e.2.getLsbD k = true := by
  simp only [finishBatch, updArch, BitVec.getLsbD_or, Bool.or_eq_true, getLsbD_foldl_or_zero, List.mem_filter, List.contains_iff_mem,
    and_assoc]

/-- The batch of that number, where it stays, is complete. -/
theorem Warp.finishBatch_batches {x : Warp} {b e : Batch} (he : e ∈ (x.finishBatch b).batches) (hno : e.no = b.no) :
    b.ck = true ∧ e.done = true := by
  unfold finishBatch at he
  cases hck : b.ck
  · simp [hck, hno] at he
  · simp only [hck, if_true, List.mem_map] at he
    obtain ⟨o, -, rfl⟩ := he
    refine ⟨rfl, ?_⟩
    split at hno
    · next h => rw [if_pos h]
    · next h => exact absurd (beq_iff_eq.mpr hno) h

/-! ### Chunk counters (R170) -/

/-- A block's chunk counter set. -/
def State.setCounter (s : State) (blk : Nat) (ctr : BitVec 5) (c : ChunkCtr) : State :=
  s.setBlock blk { s.block blk with ctrs := Sparse.set {} (s.block blk).ctrs ctr.toNat c }

theorem State.counterOf_setCounter (s : State) (blk : Nat) (ctr : BitVec 5) (c : ChunkCtr) :
    counterOf (s.setCounter blk ctr c) blk ctr = c := by
  rw [counterOf, setCounter, setBlock_block_self, Sparse.get_set, if_pos rfl]

theorem StorageKept.setCounter (s : State) (blk : Nat) (ctr : BitVec 5) (c : ChunkCtr) :
    StorageKept s (s.setCounter blk ctr c) := StorageKept.setBlock s rfl rfl

theorem StorageKept.setCmds (s : State) (cmds : List Cmd) : StorageKept s { s with cmds := cmds } :=
  ⟨rfl, rfl, rfl, fun _ => rfl, fun _ => rfl⟩

theorem armNext_kept (s : State) (blk : Nat) (ctr : BitVec 5) : StorageKept s (armNext s blk ctr) := by
  unfold armNext
  extract_lets
  split
  · exact .refl s
  · split
    · exact .refl s
    · exact (StorageKept.setCmds s _).trans (StorageKept.setCounter ..)

theorem fireCounter_kept (n : Nat) (s : State) (blk : Nat) (ctr : BitVec 5) : StorageKept s (fireCounter n s blk ctr) := by
  induction n generalizing s with
  | zero => exact .refl s
  | succ n ih =>
    unfold fireCounter
    extract_lets
    split
    · exact armNext_kept ..
    · exact (armNext_kept s blk ctr).trans
        (((StorageKept.setCmds (armNext s blk ctr) _).trans (StorageKept.setCounter ..)).trans (ih _))

theorem bumpCounter_kept (s : State) (blk : Nat) (ctr : BitVec 5) : StorageKept s (bumpCounter s blk ctr) :=
  (StorageKept.setCounter ..).trans (fireCounter_kept ..)

/-- Nothing waits to arm the counter. -/
def NoneWaits (s : State) (blk : Nat) (ctr : BitVec 5) : Prop :=
  ∀ e, e ∈ s.cmds → onCounter blk ctr e = true → e.stage ≠ .waitArm

/-- An armed counter is not armed anew, nor is one for which nothing waits. -/
theorem armNext_stays {s : State} {blk : Nat} {ctr : BitVec 5} (h : (counterOf s blk ctr).armed = true ∨ NoneWaits s blk ctr) :
    armNext s blk ctr = s := by
  unfold armNext
  extract_lets b t
  split
  · rfl
  · next hoff =>
    have hnone : nextToArm s blk ctr = none := by
      refine indexOf_eq_none fun e he => ?_
      have := h.resolve_left hoff e he
      simp only [Bool.and_eq_false_iff, beq_eq_false_iff_ne]
      by_cases hon : onCounter blk ctr e = true
      · exact .inl (.inr (this hon))
      · exact .inl (.inl (.inl (by simpa using hon)))
    rw [hnone]

/-- The steps armed on a counter may start. -/
def firedCmds (blk : Nat) (ctr : BitVec 5) (cmds : List Cmd) : List Cmd :=
  cmds.map (fun e => if onCounter blk ctr e = true ∧ e.stage = .armed then { e with stage := .queued } else e)

/-- The counter fires: its steps may start, and its count drops by the target. -/
def State.fireOnce (s : State) (blk : Nat) (ctr : BitVec 5) : State :=
  ({ s with cmds := firedCmds blk ctr s.cmds } : State).setCounter blk ctr
    { counterOf s blk ctr with armed := false, count := (counterOf s blk ctr).count - (counterOf s blk ctr).target }

theorem fireCounter_succ {s : State} {blk : Nat} {ctr : BitVec 5} (n : Nat) (h : armNext s blk ctr = s) :
    fireCounter (n + 1) s blk ctr
      = if (counterOf s blk ctr).armed = false ∨ (counterOf s blk ctr).count.toNat < (counterOf s blk ctr).target.toNat then s
        else fireCounter n (s.fireOnce blk ctr) blk ctr := by
  simp only [fireCounter, h, State.fireOnce, firedCmds, Bool.and_eq_true, beq_iff_eq, Bool.or_eq_true, Bool.not_eq_true',
    decide_eq_true_eq]
  rfl

/-- A counter below its target, or one that is not armed and for which nothing waits, does not fire. -/
theorem fireCounter_stays {s : State} {blk : Nat} {ctr : BitVec 5} (n : Nat)
    (h : ((counterOf s blk ctr).armed = true ∧ (counterOf s blk ctr).count.toNat < (counterOf s blk ctr).target.toNat)
      ∨ ((counterOf s blk ctr).armed = false ∧ NoneWaits s blk ctr)) :
    fireCounter n s blk ctr = s := by
  cases n with
  | zero => rfl
  | succ n =>
    rw [fireCounter_succ n (armNext_stays (h.imp And.left And.right))]
    exact if_pos (h.symm.imp And.left And.right)

/-- A counter at its target fires once when nothing waits to arm it. -/
theorem fireCounter_fires {s : State} {blk : Nat} {ctr : BitVec 5} (n : Nat) (harmed : (counterOf s blk ctr).armed = true)
    (hcount : (counterOf s blk ctr).target.toNat ≤ (counterOf s blk ctr).count.toNat) (hnone : NoneWaits s blk ctr) :
    fireCounter (n + 1) s blk ctr = s.fireOnce blk ctr := by
  rw [fireCounter_succ n (armNext_stays (.inl harmed)), if_neg (by simp [harmed, hcount])]
  refine fireCounter_stays n (.inr ⟨congrArg ChunkCtr.armed (State.counterOf_setCounter ..), fun e he hon => ?_⟩)
  obtain ⟨o, ho, rfl⟩ := List.mem_map.mp he
  by_cases harm : onCounter blk ctr o = true ∧ o.stage = .armed
  · rw [if_pos harm]
    exact CmdStage.noConfusion
  · rw [if_neg harm] at hon ⊢
    exact hnone o ho hon

/-- A counter's count after a completion: one more, up to 65535. -/
def ChunkCtr.bump (c : ChunkCtr) : ChunkCtr := { c with count := if c.count = 65535 then 65535 else c.count + 1 }

theorem bumpCounter_eq (s : State) (blk : Nat) (ctr : BitVec 5) :
    bumpCounter s blk ctr = fireCounter (s.cmds.length + 1) (s.setCounter blk ctr (counterOf s blk ctr).bump) blk ctr := by
  have hcount : ∀ n : BitVec 16, (if n = 65535 then n else n + 1) = if n = 65535 then 65535 else n + 1 := fun n => by
    by_cases h : n = 65535 <;> simp only [h, if_true, if_false]
  rw [ChunkCtr.bump, ← hcount]
  rfl

theorem bumpCounter_stays {s : State} {blk : Nat} {ctr : BitVec 5}
    (h : ((counterOf s blk ctr).armed = true ∧ (counterOf s blk ctr).bump.count.toNat < (counterOf s blk ctr).target.toNat)
      ∨ ((counterOf s blk ctr).armed = false ∧ NoneWaits s blk ctr)) :
    bumpCounter s blk ctr = s.setCounter blk ctr (counterOf s blk ctr).bump := by
  rw [bumpCounter_eq, fireCounter_stays]
  rw [State.counterOf_setCounter]
  exact h

theorem bumpCounter_fires {s : State} {blk : Nat} {ctr : BitVec 5} (harmed : (counterOf s blk ctr).armed = true)
    (hcount : (counterOf s blk ctr).target.toNat ≤ (counterOf s blk ctr).bump.count.toNat) (hnone : NoneWaits s blk ctr) :
    bumpCounter s blk ctr = (s.setCounter blk ctr (counterOf s blk ctr).bump).fireOnce blk ctr := by
  rw [bumpCounter_eq]
  refine fireCounter_fires _ ?_ ?_ hnone
  all_goals rw [State.counterOf_setCounter]
  exacts [harmed, hcount]

/-- The warp without a batch. -/
def Warp.dropBatch (x : Warp) (b : Batch) : Warp := { x with batches := x.batches.filter (fun e => e.no != b.no) }

def State.dropBatch (s : State) (w : Nat) (b : Batch) : State := s.setWarp w ((s.warp w).dropBatch b)

theorem State.dropBatch_dataKept (s : State) (w : Nat) (b : Batch) : DataKept s (s.dropBatch w b) := dataKept_setWarp s rfl

/-- A complete batch whose writes are done leaves and raises its counter. -/
theorem execBatchComplete_counts {s : State} {b : Batch} (hb : (s.warp s.ev.w).batches[s.ev.k]? = some b) (hdone : b.done = true)
    (hwrites : ∀ c, c ∈ (s.warp s.ev.w).accs → c.id ∉ b.writes) :
    exec .batchComplete s
      = .next (bumpCounter (s.dropBatch s.ev.w b) (s.warp s.ev.w).blk b.ctr) := by
  show execBatchComplete s = _
  have hnone : (s.warp s.ev.w).accs.any (fun c => b.writes.contains c.id) = false := by
    simpa only [List.any_eq_false, List.contains_iff_mem] using hwrites
  simp only [execBatchComplete, hb, hdone, hnone, Bool.not_true, Bool.false_eq_true, if_false]
  rfl

/-- A batch whose members and predecessors have completed completes. -/
theorem execBatchComplete_finishes {s : State} {b : Batch} (hb : (s.warp s.ev.w).batches[s.ev.k]? = some b) (hdone : b.done = false)
    (hready : batchReady s s.ev.w (s.warp s.ev.w) b = true) : exec .batchComplete s = .next (completeBatch s s.ev.w b) := by
  show execBatchComplete s = _
  simp only [execBatchComplete, hb, hdone, hready, Bool.not_false, if_true]

/-- Settles O33: MFENCE and a completing batch each change one warp; a counter fires by the two laws of `fireCounter`. -/
theorem batches : Obligations.Batches := by
  unfold Obligations.Batches
  refine ⟨fun s d flag ck ctr => ⟨fun hoff => ?off, fun hon hctr => ?closes, fun hon hck hctr hslot htrap => ?traps⟩,
    fun s a => ⟨fun h => ?passes, fun hon hpassed hopen => ?waits⟩,
    fun s b => fun hb => ⟨fun hdone hbefore hmembers hloads => ?completes, fun hdone hwrites => ?counts⟩⟩
  case off => show execSmfence d flag ck ctr s = _; simp only [execSmfence, scalarDo, hoff, Bool.false_eq_true, if_false]
  case closes =>
    have hcur := s.closeBatch_cur d flag ck ctr
    have hcw := s.closeBatch_cw d flag ck ctr
    have harch : (s.closeBatch d flag ck ctr).arch = (s.cw.closeBatch d flag ck ctr).arch := congrArg Warp.arch hcw
    have hsreg : ∀ r, (s.closeBatch d flag ck ctr).sreg r = if r = d.toNat then s.arch.batch + 1 else s.sreg r := fun r => by
      rw [State.sreg, harch]; exact WarpArch.getS_setS ..
    refine ⟨_, _, execSmfence_closes d flag hon hctr, by rw [hcur], fun k hk => ?_, (hsreg _).trans (if_pos rfl), ?_,
      ⟨s.closeBatch_memoryKept .., fun r hr => (hsreg r).trans (if_neg hr), ?_⟩, ?_, congrArg Warp.batches hcw,
      rfl, rfl, rfl, rfl, rfl, rfl, fun k hk => ?_⟩
    · rw [hcur]; exact getLsbD_setFlag _ _ hk
    · rw [harch]; rfl
    · rw [harch]; exact ⟨rfl, rfl, rfl, rfl, fun v hv => by rw [s.closeBatch_warp, if_neg hv]⟩
    · rw [hcw]; rfl
    · rw [harch]; exact getLsbD_clearFlag _ _ hk
  case traps =>
    have hexec : exec (.smfence d flag ck ctr) s = .next (s.trap { vec := 1, cause := 9 }) := by
      show execSmfence d flag ck ctr s = _
      simp only [execSmfence, scalarDo, hon, hck, hctr, Bool.not_false, Bool.and_self, if_true]
    exact ⟨_, hexec, hslot ▸ s.trap_taken { vec := 1, cause := 9 } htrap rfl rfl rfl⟩
  case passes =>
    rw [execSmwait_eq, if_neg]
    rintro ⟨hon, hpassed, hopen⟩
    obtain hoff | hp | hsettled := h
    · exact Bool.false_ne_true (hoff.symm.trans hon)
    · exact Bool.false_ne_true (hpassed.symm.trans hp)
    · exact hopen hsettled
  case waits => rw [execSmwait_eq, if_pos ⟨hon, hpassed, hopen⟩]; rfl
  case completes =>
    have hexec := execBatchComplete_finishes hb hdone ((batchReady_iff ..).mpr ⟨hbefore, hmembers, hloads⟩)
    refine ⟨_, hexec, completeBatch_memoryKept .., fun v hv => (completeBatch_warp ..).trans (if_neg hv), ?_⟩
    rw [completeBatch_warp, if_pos rfl]
    exact ⟨Warp.finishBatch_nstat _ _, fun k hk => getLsbD_setFlag _ _ hk, fun e he => Warp.finishBatch_batches he, rfl, rfl⟩
  case counts =>
    intro c n
    have hkept := bumpCounter_kept (s.dropBatch s.ev.w b) (s.warp s.ev.w).blk b.ctr
    refine ⟨_, execBatchComplete_counts hb hdone hwrites, dataKept_trans (s.dropBatch_dataKept s.ev.w b) hkept.dataKept,
      fun e he => ?_, fun h => ?_, fun harmed hcount hnone => ?_⟩
    · rw [hkept.warp, State.dropBatch, State.setWarp_warp_self] at he
      exact bne_iff_ne.mp (List.mem_filter.mp he).2
    · rw [bumpCounter_stays (s := s.dropBatch s.ev.w b) h]
      exact ⟨State.counterOf_setCounter .., rfl⟩
    · rw [bumpCounter_fires (s := s.dropBatch s.ev.w b) harmed hcount hnone]
      refine ⟨(State.counterOf_setCounter ..).trans ?_, rfl⟩
      rw [State.counterOf_setCounter]; rfl

end Sys2Proof.Machine
end

section
/-! Conversions, packing and unpacking (R57, R59, R95, R96, R102): bit fields of a lane's value, the conversions of a lane one by
one, and results in one register or a pair. -/

namespace Sys2Proof.Machine

open Sys2Proof.Claim

/-! ### Bit fields -/

theorem testBit_bitsOf (w lo n k : Nat) : (bitsOf w lo n).testBit k = (decide (k < n) && w.testBit (lo + k)) := by
  rw [bitsOf, Nat.testBit_mod_two_pow, Nat.testBit_div_two_pow, Nat.add_comm]

theorem testBit_setBits (w lo n v k : Nat) :
    (setBits w lo n v).testBit k = if lo ≤ k ∧ k < lo + n then v.testBit (k - lo) else w.testBit k := by
  have hsplit : setBits w lo n v = 2 ^ lo * (2 ^ n * (w / 2 ^ (lo + n)) + v % 2 ^ n) + w % 2 ^ lo := by
    rw [setBits, Nat.pow_add]; ring
  rw [hsplit, Nat.testBit_two_pow_mul_add _ (Nat.mod_lt _ (Nat.two_pow_pos lo))]
  by_cases hlo : k < lo
  · rw [if_pos hlo, if_neg (by omega), Nat.testBit_mod_two_pow, decide_eq_true hlo, Bool.true_and]
  · rw [if_neg hlo, Nat.testBit_two_pow_mul_add _ (Nat.mod_lt _ (Nat.two_pow_pos n))]
    by_cases hn : k < lo + n
    · rw [if_pos (by omega), if_pos ⟨by omega, hn⟩, Nat.testBit_mod_two_pow, decide_eq_true (by omega), Bool.true_and]
    · rw [if_neg (by omega), if_neg (by omega), Nat.testBit_div_two_pow]
      congr 1; omega

theorem setBits_lt {w lo n m : Nat} (v : Nat) (hw : w < 2 ^ m) (hm : lo + n ≤ m) : setBits w lo n v < 2 ^ m := by
  refine Nat.lt_pow_two_of_testBit _ fun k hk => ?_
  rw [testBit_setBits, if_neg (by omega)]
  exact Nat.testBit_lt_two_pow (hw.trans_le (Nat.pow_le_pow_right two_pos hk))

/-- A field written reads the low bits of what was written. -/
theorem bitsOf_setBits_same (w lo n v : Nat) : bitsOf (setBits w lo n v) lo n = v % 2 ^ n := by
  refine Nat.eq_of_testBit_eq fun k => ?_
  rw [testBit_bitsOf, testBit_setBits, Nat.testBit_mod_two_pow]
  by_cases hk : k < n
  · rw [if_pos (by omega), Nat.add_sub_cancel_left]
  · simp only [hk, decide_false, Bool.false_and]

/-- A field written leaves a field that it does not meet. -/
theorem bitsOf_setBits_apart {lo n lo' n' : Nat} (w v : Nat) (h : lo' + n' ≤ lo ∨ lo + n ≤ lo') :
    bitsOf (setBits w lo n v) lo' n' = bitsOf w lo' n' := by
  refine Nat.eq_of_testBit_eq fun k => ?_
  rw [testBit_bitsOf, testBit_bitsOf, testBit_setBits]
  by_cases hk : k < n'
  · rw [if_neg (by omega)]
  · simp only [hk, decide_false, Bool.false_and]

/-! ### Results in a pair -/

theorem hasLane_lt {m : Lanes} {l : Nat} (h : hasLane m l = true) : l < 64 := BitVec.lt_of_getLsbD h

theorem State.mapLanes64_vreg (s : State) (d r l : Nat) (f : Nat → Nat × NumFlags) (hl : l < 64) :
    (s.mapLanes64 d f).vreg r l = if r = d + 1 ∧ hasLane s.written l = true then BitVec.ofNat 32 ((f l).1 / 2 ^ 32)
      else if r = d ∧ hasLane s.written l = true then BitVec.ofNat 32 (f l).1 else s.vreg r l := by
  have hmem := fun k hk => lanesOf_lt s.written k hk
  simp only [State.vreg, State.mapLanes64, State.setArch_arch, State.setArch_free, WarpArch.orNstat_getV, List.map_map]
  have hlo := WarpArch.getV_setVs_lanes s.arch s.free d r l _ (fun l => BitVec.ofNat 32 (f l).1) hmem hl
  have hhi := fun a => WarpArch.getV_setVs_lanes a s.free (d + 1) r l _ (fun l => BitVec.ofNat 32 ((f l).1 / 2 ^ 32)) hmem hl
  simp only [mem_lanesOf] at hlo hhi
  exact (hhi _).trans (congrArg _ hlo)

theorem State.mapLanes64_arch (s : State) (d : Nat) (f : Nat → Nat × NumFlags) :
    (s.mapLanes64 d f).arch = { s.arch with
      vregs := (s.mapLanes64 d f).arch.vregs
      nstat := s.arch.nstat ||| ((lanesOf s.written).foldl (fun acc l => acc ||| (f l).2) (0 : NumFlags)).setWidth 64 } := by
  simp only [State.mapLanes64, State.setArch_arch, WarpArch.orNstat, List.foldl_map]
  rw [← WarpArch.setVs_append, WarpArch.setVs_frame]

/-- The pair of a written lane holds the lane's result modulo 2^64. -/
theorem State.mapLanes64_vpair {s : State} {l : Nat} (d : Nat) (f : Nat → Nat × NumFlags) (hl : hasLane s.written l = true) :
    (s.mapLanes64 d f).vpair d l = (f l).1 % 2 ^ 64 := by
  rw [State.vpair, mapLanes64_vreg _ _ _ _ _ (hasLane_lt hl), mapLanes64_vreg _ _ _ _ _ (hasLane_lt hl),
    if_neg (by omega), if_pos ⟨rfl, hl⟩, if_pos ⟨rfl, hl⟩, BitVec.toNat_ofNat, BitVec.toNat_ofNat]
  omega

/-! ### Frames -/

theorem onlyArch_setArch (s : State) (a : WarpArch) : OnlyArch s (s.setArch a) :=
  ⟨rfl, fun v hv => (State.setWarp_warp ..).trans (if_neg hv), by rw [State.setArch_cw, State.setArch_arch]⟩

theorem and_or_self_left {w : Nat} (a b : BitVec w) : a &&& (a ||| b) = a := by
  ext i hi; simp; tauto

theorem State.mapLanes_onlyVector (s : State) (d : Nat) (f : Nat → Nat × NumFlags) : OnlyVector s (s.mapLanes d f) d 1 := by
  refine ⟨onlyArch_setArch .., ?_, ?_, fun r l hl hr => ?_⟩
  · rw [State.mapLanes_arch]
  · rw [State.mapLanes_arch]; exact and_or_self_left _ _
  · rw [State.mapLanes_vreg _ _ _ _ _ hl, if_neg fun h => hr ⟨by omega, by omega, h.2⟩]

theorem State.mapLanes64_onlyVector (s : State) (d : Nat) (f : Nat → Nat × NumFlags) : OnlyVector s (s.mapLanes64 d f) d 2 := by
  refine ⟨onlyArch_setArch .., ?_, ?_, fun r l hl hr => ?_⟩
  · rw [State.mapLanes64_arch]
  · rw [State.mapLanes64_arch]; exact and_or_self_left _ _
  · rw [State.mapLanes64_vreg _ _ _ _ _ hl, if_neg fun h => hr ⟨by omega, by omega, h.2⟩,
      if_neg fun h => hr ⟨by omega, by omega, h.2⟩]

/-- NSTAT gains the flags of the written lanes. -/
theorem getLsbD_nstat_joined (s : State) (f : Nat → Nat × NumFlags) (k : Nat) :
    (s.arch.nstat ||| ((lanesOf s.written).foldl (fun acc l => acc ||| (f l).2) (0 : NumFlags)).setWidth 64).getLsbD k = true
      ↔ s.arch.nstat.getLsbD k = true ∨ ∃ l, hasLane s.written l = true ∧ (f l).2.getLsbD k = true := by
  rw [BitVec.getLsbD_or, Bool.or_eq_true, BitVec.getLsbD_setWidth, Bool.and_eq_true, decide_eq_true_eq, getLsbD_foldl_or_zero]
  simp only [mem_lanesOf]
  refine or_congr_right ⟨And.right, fun h => ⟨?_, h⟩⟩
  obtain ⟨l, -, hk⟩ := h
  exact (BitVec.lt_of_getLsbD hk).trans (by decide)

theorem State.mapLanes_nstat (s : State) (d : Nat) (f : Nat → Nat × NumFlags) (k : Nat) :
    (s.mapLanes d f).arch.nstat.getLsbD k = true
      ↔ s.arch.nstat.getLsbD k = true ∨ ∃ l, hasLane s.written l = true ∧ (f l).2.getLsbD k = true := by
  rw [State.mapLanes_arch]; exact getLsbD_nstat_joined s f k

theorem State.mapLanes64_nstat (s : State) (d : Nat) (f : Nat → Nat × NumFlags) (k : Nat) :
    (s.mapLanes64 d f).arch.nstat.getLsbD k = true
      ↔ s.arch.nstat.getLsbD k = true ∨ ∃ l, hasLane s.written l = true ∧ (f l).2.getLsbD k = true := by
  rw [State.mapLanes64_arch]; exact getLsbD_nstat_joined s f k

end Sys2Proof.Machine
end

section
/-! CVT, FCVT, PACK and UNPK (R57, R59, R95, R96, R102), element by element. -/

namespace Sys2Proof.Machine

open Sys2Proof.Claim

/-! ### Types (R53, R59) -/

/-- A type's elements fit its register or pair. -/
theorem elements_fit : ∀ t : BitVec 4, elemsPerLane t * typeBits t ≤ if typeBits t = 64 then 64 else 32 := by decide

/-! ### One lane's conversions (R95, R102) -/

theorem elementIndex_inj {x : CvtX} {epl n i j : Nat} (h : elementIndex x epl n i = elementIndex x epl n j) : i = j := by
  unfold elementIndex at h
  split at h <;> omega

/-- The conversion that R95 pairs with index `j`. -/
def pairedConversion (x : CvtX) (v j : Nat) : Nat × NumFlags :=
  convertElement x.dt x.st x.sat x.rtz
    (laneElement x.st v (elementIndex x (elemsPerLane x.st) (min (elemsPerLane x.st) (elemsPerLane x.dt)) j))

/-- The destination element of index `j` (R95). -/
def pairedElement (x : CvtX) (j : Nat) : Nat :=
  elementIndex x (elemsPerLane x.dt) (min (elemsPerLane x.st) (elemsPerLane x.dt)) j

theorem convertLane_succ (x : CvtX) (v k j acc : Nat) (fl : NumFlags) :
    convertLane x v (k + 1) j acc fl
      = if pairedElement x j < elemsPerLane x.dt then
          convertLane x v k (j + 1) (setBits acc (typeBits x.dt * pairedElement x j) (typeBits x.dt) (pairedConversion x v j).1)
            (fl ||| (pairedConversion x v j).2)
        else convertLane x v k (j + 1) acc fl := rfl

theorem laneElement_setBits (t : BitVec 4) (acc v : Nat) {e i : Nat} (he : e < elemsPerLane t) :
    laneElement t (setBits acc (typeBits t * i) (typeBits t) v) e
      = if i = e then v % 2 ^ typeBits t else laneElement t acc e := by
  rw [laneElement, laneElement, if_pos he, if_pos he]
  by_cases h : i = e
  · rw [if_pos h, h, bitsOf_setBits_same]
  · rw [if_neg h, bitsOf_setBits_apart]
    rcases Nat.lt_or_gt_of_ne h with h | h
    · right; calc typeBits t * i + typeBits t = typeBits t * (i + 1) := rfl
        _ ≤ typeBits t * e := Nat.mul_le_mul_left _ h
    · left; exact Nat.mul_le_mul_left (typeBits t) h

/-- After the conversions of indices `j` to `j + k - 1`, an element of the destination holds the conversion paired with it, or its
old value. -/
theorem convertLane_element {x : CvtX} {e : Nat} (v k j acc : Nat) (fl : NumFlags) (he : e < elemsPerLane x.dt) :
    laneElement x.dt (convertLane x v k j acc fl).1 e
      = match (List.range' j k).find? (fun i => pairedElement x i == e) with
        | some i => (pairedConversion x v i).1 % 2 ^ typeBits x.dt
        | none => laneElement x.dt acc e := by
  induction k generalizing j acc fl with
  | zero => rfl
  | succ k ih =>
    rw [convertLane_succ, List.range'_succ]
    by_cases hj : pairedElement x j = e
    · rw [if_pos (hj ▸ he), ih, List.find?_cons_of_pos (by simpa using hj), List.find?_eq_none.mpr]
      · simp only [laneElement_setBits _ _ _ he, if_pos hj]
      · intro i hi hie
        have := elementIndex_inj ((eq_of_beq hie).trans hj.symm)
        simp only [List.mem_range'_1] at hi
        omega
    · rw [List.find?_cons_of_neg (by simpa using hj)]
      split
      · rw [ih]; simp only [laneElement_setBits _ _ _ he, if_neg hj]
      · exact ih ..

theorem convertLane_lt {x : CvtX} (v k j : Nat) {acc : Nat} (fl : NumFlags)
    (hacc : acc < 2 ^ (elemsPerLane x.dt * typeBits x.dt)) :
    (convertLane x v k j acc fl).1 < 2 ^ (elemsPerLane x.dt * typeBits x.dt) := by
  induction k generalizing j acc fl with
  | zero => exact hacc
  | succ k ih =>
    rw [convertLane_succ]
    split
    · next h =>
      refine ih _ _ (setBits_lt _ hacc ?_)
      calc typeBits x.dt * pairedElement x j + typeBits x.dt = (pairedElement x j + 1) * typeBits x.dt := by ring
        _ ≤ elemsPerLane x.dt * typeBits x.dt := Nat.mul_le_mul_right _ h
    · exact ih _ _ hacc

theorem exists_index_succ (P : Nat → Prop) (j k : Nat) :
    (∃ i, (j ≤ i ∧ i < j + (k + 1)) ∧ P i) ↔ P j ∨ ∃ i, (j + 1 ≤ i ∧ i < j + 1 + k) ∧ P i := by
  constructor
  · rintro ⟨i, hi, hP⟩
    obtain rfl | h := Nat.eq_or_lt_of_le hi.1
    · exact .inl hP
    · exact .inr ⟨i, ⟨h, by omega⟩, hP⟩
  · rintro (hP | ⟨i, hi, hP⟩)
    · exact ⟨j, ⟨by omega, by omega⟩, hP⟩
    · exact ⟨i, ⟨by omega, by omega⟩, hP⟩

theorem convertLane_flags (x : CvtX) (v k j acc : Nat) (fl : NumFlags) (n : Nat) :
    (convertLane x v k j acc fl).2.getLsbD n = true
      ↔ fl.getLsbD n = true
        ∨ ∃ i, (j ≤ i ∧ i < j + k) ∧ pairedElement x i < elemsPerLane x.dt ∧ (pairedConversion x v i).2.getLsbD n = true := by
  induction k generalizing j acc fl with
  | zero => exact (or_iff_left (fun ⟨i, hi, _⟩ => absurd hi (by omega))).symm
  | succ k ih =>
    rw [convertLane_succ, exists_index_succ]
    split
    · next h => rw [ih, BitVec.getLsbD_or, Bool.or_eq_true, or_assoc, and_iff_right h]
    · next h => rw [ih, or_iff_right (fun hj : _ ∧ _ => h hj.1)]

/-! ### CVT and FCVT -/

/-- A lane's result of CVT or FCVT. -/
def convertedLane (s : State) (d a : BitVec 8) (x : CvtX) (l : Nat) : Nat × NumFlags :=
  convertLane x (typeValue s x.st a.toNat l) (min (elemsPerLane x.st) (elemsPerLane x.dt)) 0
    (holdBits x.dt (typeValue s x.dt d.toNat l)) 0

theorem convertedLane_lt (s : State) (d a : BitVec 8) (x : CvtX) (l : Nat) :
    (convertedLane s d a x l).1 < 2 ^ (elemsPerLane x.dt * typeBits x.dt) :=
  convertLane_lt _ _ _ _ (Nat.mod_lt _ (Nat.two_pow_pos _))

theorem laneElement_holdBits {t : BitVec 4} {e : Nat} (v : Nat) (he : e < elemsPerLane t) :
    laneElement t (holdBits t v) e = laneElement t v e := by
  have hfits : typeBits t * e + typeBits t ≤ elemsPerLane t * typeBits t := by
    calc typeBits t * e + typeBits t = (e + 1) * typeBits t := by ring
      _ ≤ elemsPerLane t * typeBits t := Nat.mul_le_mul_right _ he
  rw [laneElement, laneElement, if_pos he, if_pos he, holdBits]
  refine Nat.eq_of_testBit_eq fun k => ?_
  rw [testBit_bitsOf, testBit_bitsOf, Nat.testBit_mod_two_pow]
  by_cases hk : k < typeBits t
  · rw [decide_eq_true (show typeBits t * e + k < _ by omega), Bool.true_and]
  · simp only [hk, decide_false, Bool.false_and]

theorem convertedLane_element {s : State} {d a : BitVec 8} {x : CvtX} {e : Nat} (l : Nat) (he : e < elemsPerLane x.dt) :
    laneElement x.dt (convertedLane s d a x l).1 e
      = convertedElement x (typeValue s x.st a.toNat l) (typeValue s x.dt d.toNat l) e := by
  rw [convertedLane, convertLane_element _ _ _ _ _ he, laneElement_holdBits _ he, convertedElement, List.range_eq_range']
  rfl

theorem convertedLane_flags (s : State) (d a : BitVec 8) (x : CvtX) (l k : Nat) :
    (convertedLane s d a x l).2.getLsbD k = true ↔ conversionFlag x (typeValue s x.st a.toNat l) k := by
  rw [convertedLane, convertLane_flags, BitVec.ofNat_eq_ofNat, BitVec.getLsbD_zero, or_iff_right Bool.false_ne_true]
  simp only [Nat.zero_le, true_and, Nat.zero_add]
  rfl

/-- Results in the registers of a type: the pair for a 64-bit type, else one. -/
def State.mapTyped (s : State) (t : BitVec 4) (d : Nat) (f : Nat → Nat × NumFlags) : State :=
  if typeBits t = 64 then s.mapLanes64 d f else s.mapLanes d f

theorem State.mapTyped_onlyVector (s : State) (t : BitVec 4) (d : Nat) (f : Nat → Nat × NumFlags) :
    OnlyVector s (s.mapTyped t d f) d (typeRegCount t) := by
  unfold mapTyped typeRegCount
  split
  · exact mapLanes64_onlyVector ..
  · exact mapLanes_onlyVector ..

theorem State.mapTyped_nstat (s : State) (t : BitVec 4) (d : Nat) (f : Nat → Nat × NumFlags) (k : Nat) :
    (s.mapTyped t d f).arch.nstat.getLsbD k = true
      ↔ s.arch.nstat.getLsbD k = true ∨ ∃ l, hasLane s.written l = true ∧ (f l).2.getLsbD k = true := by
  unfold mapTyped
  split
  · exact mapLanes64_nstat ..
  · exact mapLanes_nstat ..

/-- A written lane reads its result, where that fits the type's elements. -/
theorem State.mapTyped_value {s : State} {t : BitVec 4} {f : Nat → Nat × NumFlags} {l : Nat} (d : Nat)
    (hl : hasLane s.written l = true) (hf : (f l).1 < 2 ^ (elemsPerLane t * typeBits t)) :
    typeValue (s.mapTyped t d f) t d l = (f l).1 := by
  have hfit := hf.trans_le (Nat.pow_le_pow_right two_pos (elements_fit t))
  unfold typeValue mapTyped
  by_cases h : typeBits t = 64
  · rw [if_pos h] at hfit
    rw [if_pos h, if_pos h, mapLanes64_vpair d f hl, Nat.mod_eq_of_lt hfit]
  · rw [if_neg h] at hfit
    rw [if_neg h, if_neg h, mapLanes_vreg _ _ _ _ _ (hasLane_lt hl), if_pos ⟨rfl, hl⟩, BitVec.toNat_ofNat, Nat.mod_eq_of_lt hfit]

theorem convertOp_converted (s : State) (d a : BitVec 8) (x : CvtX) :
    ∃ t, convertOp s d a x = .next t ∧ Converted s t d a x := by
  refine ⟨s.mapTyped x.dt d.toNat (convertedLane s d a x), rfl, State.mapTyped_onlyVector .., fun l hl => ?_, fun k => ?_⟩
  · rw [State.mapTyped_value _ hl (convertedLane_lt ..)]
    exact ⟨fun e he => convertedLane_element l he, convertedLane_lt ..⟩
  · simp only [State.mapTyped_nstat, convertedLane_flags]

/-! ### PACK and UNPK -/

theorem decodeT2_mod (v : Nat) : decodeT2 v = decodeT2 (v % 4) := by simp only [decodeT2, Nat.mod_mod]

/-- The low bits of a number are those of its value modulo 4. -/
theorem testBit_mod_four {k : Nat} (v : Nat) (hk : k < 2) : v.testBit k = (v % 4).testBit k := by
  rw [show 4 = 2 ^ 2 from rfl, Nat.testBit_mod_two_pow, decide_eq_true hk, Bool.true_and]

/-- One T2 code as it is moved: the low bit stays, the high bit where the low one is set (R57). -/
theorem encodeT2_decodeT2 (v : Nat) :
    encodeT2 (decodeT2 v).1 < 4 ∧ (encodeT2 (decodeT2 v).1).testBit 0 = v.testBit 0
      ∧ (encodeT2 (decodeT2 v).1).testBit 1 = (v.testBit 1 && v.testBit 0) := by
  have hlt : v % 4 < 4 := Nat.mod_lt _ (by decide)
  rw [decodeT2_mod, testBit_mod_four v (k := 0) (by decide), testBit_mod_four v (k := 1) (by decide)]
  generalize v % 4 = c at hlt
  interval_cases c <;> decide

theorem decodeT2_flags (v : Nat) : (decodeT2 v).2 = if v.testBit 1 && !v.testBit 0 then nfTres else 0 := by
  have hlt : v % 4 < 4 := Nat.mod_lt _ (by decide)
  rw [decodeT2_mod, testBit_mod_four v (k := 0) (by decide), testBit_mod_four v (k := 1) (by decide)]
  generalize v % 4 = c at hlt
  interval_cases c <;> decide

theorem getLsbD_nfTres (k : Nat) : nfTres.getLsbD k = true ↔ k = 3 := by
  rw [nfTres, show (8 : NumFlags) = BitVec.ofNat 6 (2 ^ 3) from rfl, BitVec.getLsbD_ofNat, Nat.testBit_two_pow]
  simp only [Bool.and_eq_true, decide_eq_true_eq]
  omega

theorem movedBit_ternary (v : Nat → Bool) (k : Nat) : movedBit 7 v k = if k % 2 = 1 then v k && v (k - 1) else v k := by
  simp only [movedBit, true_and]

theorem testBit_cleanT2 (n v k : Nat) :
    (cleanT2 n v).1.testBit k = (decide (k < 2 * n) && movedBit 7 v.testBit k) := by
  induction n generalizing v k with
  | zero => simp [cleanT2]
  | succ n ih =>
    obtain ⟨hlt, h0, h1⟩ := encodeT2_decodeT2 v
    have hsum : (cleanT2 (n + 1) v).1 = 2 ^ 2 * (cleanT2 n (v / 4)).1 + encodeT2 (decodeT2 v).1 := Nat.add_comm _ _
    have hshift : ∀ j, (v / 4).testBit j = v.testBit (j + 2) := fun j => Nat.testBit_div_two_pow v j (n := 2)
    rw [hsum, Nat.testBit_two_pow_mul_add _ hlt, movedBit_ternary]
    match k with
    | 0 => simpa using h0
    | 1 => rw [decide_eq_true (by omega)]; simpa using h1
    | k + 2 =>
      have hk : decide (k + 2 < 2 * (n + 1)) = decide (k < 2 * n) := decide_eq_decide.mpr (by omega)
      rw [if_neg (by omega), ih, movedBit_ternary, Nat.add_sub_cancel, hk, Nat.add_mod_right, hshift, hshift]
      by_cases hodd : k % 2 = 1
      · rw [if_pos hodd, if_pos hodd, show k - 1 + 2 = k + 2 - 1 by omega]
      · rw [if_neg hodd, if_neg hodd]

theorem cleanT2_flags (n v k : Nat) :
    (cleanT2 n v).2.getLsbD k = true ↔ k = 3 ∧ ∃ j, j < n ∧ v.testBit (2 * j + 1) = true ∧ v.testBit (2 * j) = false := by
  induction n generalizing v with
  | zero => simp [cleanT2]
  | succ n ih =>
    have hor : (cleanT2 (n + 1) v).2 = (decodeT2 v).2 ||| (cleanT2 n (v / 4)).2 := rfl
    have hshift : ∀ j, (v / 4).testBit j = v.testBit (j + 2) := fun j => Nat.testBit_div_two_pow v j (n := 2)
    rw [hor, BitVec.getLsbD_or, Bool.or_eq_true, ih, decodeT2_flags]
    have hhead : ((if v.testBit 1 && !v.testBit 0 then nfTres else 0).getLsbD k = true)
        ↔ k = 3 ∧ v.testBit 1 = true ∧ v.testBit 0 = false := by
      cases v.testBit 1 <;> cases v.testBit 0 <;> simp [getLsbD_nfTres]
    rw [hhead, ← and_or_left, Nat.exists_lt_succ_left]
    simp only [hshift]
    rfl

/-! The elements that PACK and UNPK move. -/

theorem testBit_moveElements (t : BitVec 4) (v k : Nat) :
    (moveElements t v).1.testBit k = (decide (k < elemsPerLane t * typeBits t) && movedBit t v.testBit k) := by
  unfold moveElements
  by_cases h : t = 7
  · subst h
    exact testBit_cleanT2 16 v k
  · have hcode : t.toNat ≠ 7 := fun hc => h (BitVec.eq_of_toNat_eq hc)
    rw [if_neg hcode, holdBits, Nat.testBit_mod_two_pow, movedBit, if_neg (fun hc => h hc.1)]

theorem moveElements_flags (t : BitVec 4) (v k : Nat) :
    (moveElements t v).2.getLsbD k = true ↔ k = 3 ∧ reservedCode t v.testBit := by
  unfold moveElements
  by_cases h : t = 7
  · subst h
    exact (cleanT2_flags 16 v k).trans (and_congr_right' (and_iff_right rfl).symm)
  · have hcode : t.toNat ≠ 7 := fun hc => h (BitVec.eq_of_toNat_eq hc)
    rw [if_neg hcode, BitVec.ofNat_eq_ofNat, BitVec.getLsbD_zero]
    exact iff_of_false Bool.false_ne_true (fun hc => h hc.2.1)

/-- Moved bits and reserved codes depend on the element bits alone. -/
theorem movedBit_congr {t : BitVec 4} {v v' : Nat → Bool} {k n : Nat} (hk : k < n) (h : ∀ i, i < n → v i = v' i) :
    movedBit t v k = movedBit t v' k := by
  rw [movedBit, movedBit, h k hk, h (k - 1) (by omega)]

theorem reservedCode_congr {t : BitVec 4} {v v' : Nat → Bool} (h : ∀ i, i < elemsPerLane t * typeBits t → v i = v' i) :
    reservedCode t v ↔ reservedCode t v' := by
  refine and_congr_right fun ht => exists_congr fun j => and_congr_right fun hj => ?_
  subst ht
  rw [h (2 * j + 1) (show _ < 32 by omega), h (2 * j) (show _ < 32 by omega)]

/-- PACK (R96). -/
theorem execVpack_packs (d a : BitVec 8) (ty : BitVec 4) (off : BitVec 6) (s : State) :
    let v (l k : Nat) : Bool := (s.vreg a.toNat l).getLsbD k
    ∃ t, exec (.vpack d a ty off) s = .next t ∧ OnlyVector s t d.toNat 2 ∧ TresJoined s t ty v
      ∧ ∀ l k, hasLane s.written l = true → k < 64 →
          (t.vpair d.toNat l).testBit k
            = (if off.toNat ≤ k ∧ k < off.toNat + elemsPerLane ty * typeBits ty then movedBit ty (v l) (k - off.toNat)
              else (s.vpair d.toNat l).testBit k) := by
  intro v
  have hv : ∀ l, (s.vreg a.toNat l).toNat.testBit = v l := fun l => funext fun k => BitVec.testBit_toNat _
  refine ⟨_, rfl, State.mapLanes64_onlyVector .., fun k => ?_, fun l k hl hk => ?_⟩
  · simp only [State.mapLanes64_nstat, moveElements_flags, hv, and_left_comm, exists_and_left]
  · rw [State.mapLanes64_vpair _ _ hl]
    simp only [Nat.testBit_mod_two_pow, decide_eq_true hk, Bool.true_and, testBit_setBits, testBit_moveElements, hv]
    by_cases hin : off.toNat ≤ k ∧ k < off.toNat + elemsPerLane ty * typeBits ty
    · rw [if_pos hin, if_pos hin, decide_eq_true (by omega), Bool.true_and]
    · rw [if_neg hin, if_neg hin]

/-- UNPK (R96). -/
theorem execVunpk_unpacks (d a : BitVec 8) (ty : BitVec 4) (off : BitVec 6) (s : State) :
    let v (l k : Nat) : Bool := (s.vpair a.toNat l).testBit (off.toNat + k)
    ∃ t, exec (.vunpk d a ty off) s = .next t ∧ OnlyVector s t d.toNat 1 ∧ TresJoined s t ty v
      ∧ ∀ l k, hasLane s.written l = true → k < 32 →
          (t.vreg d.toNat l).getLsbD k = (decide (k < elemsPerLane ty * typeBits ty) && movedBit ty (v l) k) := by
  intro v
  have hv : ∀ l i, i < elemsPerLane ty * typeBits ty →
      (bitsOf (s.vpair a.toNat l) off.toNat (elemsPerLane ty * typeBits ty)).testBit i = v l i := fun l i hi => by
    rw [testBit_bitsOf, decide_eq_true hi, Bool.true_and]
  refine ⟨_, rfl, State.mapLanes_onlyVector .., fun k => ?_, fun l k hl hk => ?_⟩
  · simp only [State.mapLanes_nstat, moveElements_flags, reservedCode_congr (hv _), and_left_comm, exists_and_left]
  · rw [State.mapLanes_vreg _ _ _ _ _ (hasLane_lt hl), if_pos ⟨rfl, hl⟩, BitVec.getLsbD_ofNat, decide_eq_true hk, Bool.true_and,
      testBit_moveElements]
    by_cases hin : k < elemsPerLane ty * typeBits ty
    · rw [movedBit_congr hin (hv l)]
    · simp only [hin, decide_false, Bool.false_and]

/-- Settles O6: conversions element by element, packing and unpacking bit by bit. -/
theorem conversionAndPackResults : Obligations.ConversionAndPackResults := by
  unfold Obligations.ConversionAndPackResults
  exact ⟨fun d a x s _ => convertOp_converted s d a x, fun d a x s _ => convertOp_converted s d a x,
    fun d a ty off s _ => execVpack_packs d a ty off s, fun d a ty off s _ => execVunpk_unpacks d a ty off s⟩

end Sys2Proof.Machine
end

section
/-! The sums of the matrix instructions (R58, R75, R76): the model's recursions over segments and elements compute the sums that
the statements say. -/

namespace Sys2Proof.Machine

open Sys2Proof.Claim

/-! ### Little-endian numbers -/

theorem leValue_lt (bs : List Byte) : leValue bs < 2 ^ (8 * bs.length) := by
  induction bs with
  | nil => exact Nat.one_pos
  | cons b bs ih =>
    have hpow : 2 ^ (8 * (b :: bs).length) = 256 * 2 ^ (8 * bs.length) := by
      rw [List.length_cons, Nat.mul_add, Nat.pow_add]; omega
    have := b.isLt
    rw [leValue, hpow]
    omega

theorem leValue_append (xs ys : List Byte) : leValue (xs ++ ys) = leValue xs + 2 ^ (8 * xs.length) * leValue ys := by
  induction xs with
  | nil => simp [leValue]
  | cons x xs ih =>
    rw [List.cons_append, leValue, leValue, ih, List.length_cons, Nat.mul_add 8, Nat.pow_add]
    ring

theorem leValue_take_lt (bs : List Byte) (n : Nat) : leValue (bs.take n) < 2 ^ (8 * n) :=
  (leValue_lt _).trans_le (Nat.pow_le_pow_right two_pos (Nat.mul_le_mul_left 8 (List.length_take_le n bs)))

theorem leValue_take (bs : List Byte) (n : Nat) : leValue (bs.take n) = leValue bs % 2 ^ (8 * n) := by
  rcases Nat.le_total n bs.length with h | h
  · have hlen : (bs.take n).length = n := List.length_take_of_le h
    conv => rhs; rw [← List.take_append_drop n bs, leValue_append, hlen]
    rw [Nat.add_mul_mod_self_left, Nat.mod_eq_of_lt (leValue_take_lt bs n)]
  · rw [List.take_of_length_le h, Nat.mod_eq_of_lt ((leValue_lt bs).trans_le (Nat.pow_le_pow_right two_pos (by omega)))]

theorem leValue_drop (bs : List Byte) (n : Nat) : leValue (bs.drop n) = leValue bs / 2 ^ (8 * n) := by
  rcases Nat.le_total n bs.length with h | h
  · have hlen : (bs.take n).length = n := List.length_take_of_le h
    conv => rhs; rw [← List.take_append_drop n bs, leValue_append, hlen]
    rw [Nat.add_mul_div_left _ _ (Nat.two_pow_pos _), Nat.div_eq_of_lt (leValue_take_lt bs n), Nat.zero_add]
  · rw [List.drop_of_length_le h, Nat.div_eq_of_lt ((leValue_lt bs).trans_le (Nat.pow_le_pow_right two_pos (by omega)))]
    rfl

/-! ### Fields and elements (R58, R70, R158) -/

theorem bitsOf_toNat {n : Nat} (w : BitVec n) (lo len : Nat) : bitsOf w.toNat lo len = (w.extractLsb' lo len).toNat := by
  rw [BitVec.extractLsb'_toNat, Nat.shiftRight_eq_div_pow, bitsOf]

theorem bitsOf_getLsbD {n : Nat} (w : BitVec n) (k : Nat) : bitsOf w.toNat k 1 = 0 ↔ w.getLsbD k = false := by
  rw [bitsOf, ← BitVec.testBit_toNat, Nat.testBit_eq_decide_div_mod_eq, decide_eq_false_iff_not, Nat.pow_one]
  omega

/-- The format block, field by field (R70). -/
theorem readFmt_eq (w : BitVec 128) :
    readFmt w = { afmt := w.extractLsb' 0 4, bfmt := w.extractLsb' 4 4, ablk := kblock w 8, bblk := kblock w 9,
                  ascl := fmtField w 10 2, bscl := fmtField w 12 2, abase := fmtField w 16 21, bbase := fmtField w 40 21,
                  astr := fmtField w 64 16, bstr := fmtField w 80 16, kb0 := fmtField w 96 8 } := by
  have hblk : ∀ k, (if bitsOf w.toNat k 1 = 0 then 16 else 32) = kblock w k := fun k => by
    simp only [kblock, bitsOf_getLsbD]
    cases w.getLsbD k <;> rfl
  simp only [readFmt, hblk]
  simp only [bitsOf_toNat, BitVec.ofNat_toNat, BitVec.setWidth_eq, fmtField]

/-- An element of a packed row, whichever way it is cut out. -/
theorem operandElement_eq (bytes : List Byte) (t : BitVec 4) (row k : Nat) :
    operandElement bytes t row k = packedElement bytes t row k := by
  have hbytes : 8 * (32 * typeBits t / 8) = 32 * typeBits t := by omega
  have hfits : typeBits t * (k % 32) + typeBits t ≤ 32 * typeBits t := by
    calc typeBits t * (k % 32) + typeBits t = typeBits t * (k % 32 + 1) := rfl
      _ ≤ typeBits t * 32 := Nat.mul_le_mul_left _ (Nat.mod_lt _ (by decide))
      _ = 32 * typeBits t := Nat.mul_comm ..
  rw [operandElement, packedElement, leValue_take, leValue_drop, hbytes]
  refine Nat.eq_of_testBit_eq fun i => ?_
  simp only [Nat.testBit_mod_two_pow, Nat.testBit_div_two_pow, chunkBytes]
  by_cases hi : i < typeBits t
  · rw [decide_eq_true (show i + typeBits t * (k % 32) < 32 * typeBits t by omega), Bool.true_and, Nat.add_assoc,
      Nat.add_comm (typeBits t * (k % 32))]
  · simp only [hi, decide_false, Bool.false_and]

/-! ### Integer sums (R76) -/

theorem toInt_ofNat (n : Nat) : (BitVec.ofNat 32 n).toInt = signed 32 n := by
  rw [BitVec.toInt_eq_toNat_cond, BitVec.toNat_ofNat, signed]
  split <;> split <;> omega

theorem ofNat_wrap (x : Int) : BitVec.ofNat 32 (wrap 32 x) = BitVec.ofInt 32 x := by
  refine BitVec.eq_of_toNat_eq ?_
  rw [BitVec.toNat_ofNat, BitVec.toNat_ofInt, wrap]
  exact Nat.mod_eq_of_lt (by omega)

/-- One product joins the model's sum as R76 says. -/
theorem intStep_ofNat (m : MatOp) (i j k acc : Nat) (fl : NumFlags) :
    intStep m i j (BitVec.ofNat 32 acc, fl) k
      = (let a := intElement (m.fmt.extractLsb' 0 4) (operandElement m.aBytes (m.fmt.extractLsb' 0 4) i k)
         let b := intElement (m.fmt.extractLsb' 4 4) (operandElement m.bBytes (m.fmt.extractLsb' 4 4) j k)
         let y : Int := signed 32 acc + a.1 * b.1
         (BitVec.ofNat 32 (wrap 32 y),
           fl ||| a.2 ||| b.2 ||| flagIf (decide (y < intLo true 32) || decide (intHi true 32 < y)) nfIovf)) := by
  have hlo : intLo true 32 = -2147483648 := rfl
  have hhi : intHi true 32 = 2147483647 := rfl
  simp only [intStep, operandElement_eq, toInt_ofNat, ofNat_wrap, flagIf, hlo, hhi, Bool.or_eq_true, decide_eq_true_eq]

theorem accumulateInt_eq (m : MatOp) (i j n k acc : Nat) (fl : NumFlags) :
    (BitVec.ofNat 32 (accumulateInt m (readFmt m.fmt) i j n k acc fl).1, (accumulateInt m (readFmt m.fmt) i j n k acc fl).2)
      = (List.range' k n).foldl (intStep m i j) (BitVec.ofNat 32 acc, fl) := by
  induction n generalizing k acc fl with
  | zero => rfl
  | succ n ih =>
    rw [List.range'_succ, List.foldl_cons, intStep_ofNat, accumulateInt, ih, readFmt_eq]

/-! ### Float sums (R75) -/

/-- An FP32 encoding is its low 32 bits. -/
theorem fmtFP32_decode_mod (w : Nat) : fmtFP32.decode (w % 2 ^ 32) = fmtFP32.decode w := by
  have hsign : bitOf (w % 2 ^ 32) 31 = bitOf w 31 := by rw [bitOf, bitOf, show w % 2 ^ 32 / 2 ^ 31 % 2 = w / 2 ^ 31 % 2 by omega]
  have hexp : bitsOf (w % 2 ^ 32) 23 8 = bitsOf w 23 8 := by rw [bitsOf, bitsOf]; omega
  have hmant : bitsOf (w % 2 ^ 32) 0 23 = bitsOf w 0 23 := by rw [bitsOf, bitsOf]; omega
  simp only [FloatFmt.decode, fmtFP32, Nat.reduceAdd, hsign, hexp, hmant]
  rfl

theorem accumulate_eq (m : MatOp) (i j n g acc : Nat) (fl : NumFlags) :
    let r := accumulate m (readFmt m.fmt) i j (min (kblock m.fmt 8) (kblock m.fmt 9)) n g acc fl
    (BitVec.ofNat 32 r.1, r.2) = (List.range' g n).foldl (floatStep m i j) (BitVec.ofNat 32 acc, fl) := by
  induction n generalizing g acc fl with
  | zero => rfl
  | succ n ih =>
    rw [List.range'_succ, List.foldl_cons, accumulate]
    refine (ih ..).trans (congrArg (List.foldl _ · _) ?_)
    simp only [floatStep, BitVec.toNat_ofNat, fmtFP32_decode_mod, operandElement_eq, readFmt_eq, List.map_map]
    rfl

/-- The model's element is the element of R75 or R76. -/
theorem matrixElement_eq (m : MatOp) (i j : Nat) (old : W32) :
    (BitVec.ofNat 32 (matrixElement m i j old.toNat).1, (matrixElement m i j old.toNat).2) = tileElement m i j old := by
  have hstart : BitVec.ofNat 32 (if m.op.za then 0 else old.toNat) = if m.op.za then 0 else old := by
    split
    · rfl
    · rw [BitVec.ofNat_toNat, BitVec.setWidth_eq]
  have hcond : (m.mss && (readFmt m.fmt).ascl == 0 && (readFmt m.fmt).bscl == 0) = true
      ↔ m.mss = true ∧ fmtField m.fmt 10 2 = 0 ∧ fmtField m.fmt 12 2 = 0 := by
    rw [readFmt_eq]
    simp only [Bool.and_eq_true, beq_iff_eq, and_assoc]
  have hseg : min (readFmt m.fmt).ablk (readFmt m.fmt).bblk = min (kblock m.fmt 8) (kblock m.fmt 9) := by rw [readFmt_eq]
  simp only [matrixElement, tileElement, hcond, hseg, ← hstart, List.range_eq_range']
  split
  · exact accumulateInt_eq ..
  · exact accumulate_eq ..

end Sys2Proof.Machine
end

section
/-! Matrix instructions (R157, R160 to R162): tiles, arrays and FIFOs, and the issue, start and completion of an instruction. -/

namespace Sys2Proof.Machine

open Sys2Proof.Claim

/-! ### Tiles -/

/-- A run of elements of one tile written. -/
def WarpArch.setAccs (a : WarpArch) (t : Nat) (es : List (Nat × Nat × W32)) : WarpArch :=
  es.foldl (fun (a : WarpArch) e => a.setAcc t e.1 e.2.1 e.2.2) a

theorem WarpArch.setAccs_frame (a : WarpArch) (t : Nat) (es : List (Nat × Nat × W32)) :
    a.setAccs t es = { a with acc := (a.setAccs t es).acc } := by
  induction es generalizing a with
  | nil => rfl
  | cons e es ih =>
    have h1 : a.setAccs t (e :: es) = (a.setAcc t e.1 e.2.1 e.2.2).setAccs t es := rfl
    rw [h1, ih]
    rfl

/-- An element read after a run of writes, each element's value its own. -/
theorem WarpArch.getAcc_setAccs {es : List (Nat × Nat × W32)} {g : Nat → Nat → W32}
    (hes : ∀ e, e ∈ es → e.1 < 64 ∧ e.2.1 < 64 ∧ e.2.2 = g e.1 e.2.1) (a : WarpArch) (t u : Nat) {r c : Nat} (hr : r < 64)
    (hc : c < 64) :
    (a.setAccs t es).getAcc u r c = if u = t ∧ (r, c) ∈ es.map (fun e => (e.1, e.2.1)) then g r c else a.getAcc u r c := by
  induction es generalizing a with
  | nil => simp [setAccs]
  | cons e es ih =>
    obtain ⟨hrow, hcol, hval⟩ := hes e (by simp)
    have h1 : a.setAccs t (e :: es) = (a.setAcc t e.1 e.2.1 e.2.2).setAccs t es := rfl
    have hkey : 4096 * u + 64 * r + c = 4096 * t + 64 * e.1 + e.2.1 ↔ u = t ∧ (r, c) = (e.1, e.2.1) := by
      rw [Prod.mk.injEq]; omega
    rw [h1, ih (fun e he => hes e (List.mem_cons_of_mem _ he)), getAcc_setAcc]
    simp only [hkey, List.map_cons, List.mem_cons]
    by_cases hlater : u = t ∧ (r, c) ∈ es.map (fun e => (e.1, e.2.1))
    · rw [if_pos hlater, if_pos ⟨hlater.1, .inr hlater.2⟩]
    · rw [if_neg hlater]
      by_cases hnow : u = t ∧ (r, c) = (e.1, e.2.1)
      · obtain ⟨hr', hc'⟩ := Prod.mk.inj hnow.2
        rw [if_pos hnow, if_pos ⟨hnow.1, .inl hnow.2⟩, hval, hr', hc']
      · rw [if_neg hnow, if_neg (fun h => h.2.elim (fun h' => hnow ⟨h.1, h'⟩) (fun h' => hlater ⟨h.1, h'⟩))]

/-- The elements that a matrix instruction writes. -/
theorem mem_matrixResult (m : MatOp) (tile : Nat → Nat → W32) (e : Nat × Nat × W32) :
    e ∈ (matrixResult m tile).1
      ↔ hasLane m.rows e.1 = true ∧ e.2.1 < 64 ∧ e.2.2 = (tileElement m e.1 e.2.1 (tile e.1 e.2.1)).1 := by
  obtain ⟨i, j, v⟩ := e
  simp only [matrixResult, List.mem_map, List.mem_flatMap, mem_lanesOf, List.mem_range, ← matrixElement_eq]
  constructor
  · rintro ⟨_, ⟨i', hi, j', hj, rfl⟩, heq⟩
    simp only [Prod.mk.injEq] at heq
    obtain ⟨rfl, rfl, rfl⟩ := heq
    exact ⟨hi, hj, rfl⟩
  · rintro ⟨hi, hj, rfl⟩
    exact ⟨_, ⟨i, hi, j, hj, rfl⟩, rfl⟩

/-- The flags that a matrix instruction raises. -/
theorem matrixResult_flags (m : MatOp) (tile : Nat → Nat → W32) (k : Nat) :
    (matrixResult m tile).2.getLsbD k = true ↔ ∃ i j, i < 64 ∧ j < 64 ∧ hasLane m.rows i = true
      ∧ (tileElement m i j (tile i j)).2.getLsbD k = true := by
  simp only [matrixResult, getLsbD_foldl_or_zero, List.mem_flatMap, List.mem_map, mem_lanesOf, List.mem_range, ← matrixElement_eq]
  constructor
  · rintro ⟨_, ⟨i, hi, j, hj, rfl⟩, hk⟩
    exact ⟨i, j, hasLane_lt hi, hj, hi, hk⟩
  · rintro ⟨i, j, -, hj, hi, hk⟩
    exact ⟨_, ⟨i, hi, j, hj, rfl⟩, hk⟩

/-- The tile after the rows of W are written. -/
theorem WarpArch.getAcc_matrixResult (a : WarpArch) (m : MatOp) (t u : Nat) (tile : Nat → Nat → W32) {i j : Nat} (hi : i < 64)
    (hj : j < 64) :
    (a.setAccs t (matrixResult m tile).1).getAcc u i j
      = if u = t ∧ hasLane m.rows i = true then (tileElement m i j (tile i j)).1 else a.getAcc u i j := by
  have hmem : (i, j) ∈ (matrixResult m tile).1.map (fun e => (e.1, e.2.1)) ↔ hasLane m.rows i = true := by
    rw [List.mem_map]
    constructor
    · rintro ⟨e, he, heq⟩
      obtain ⟨rfl, rfl⟩ := Prod.mk.inj heq
      exact ((mem_matrixResult ..).mp he).1
    · exact fun h => ⟨(i, j, (tileElement m i j (tile i j)).1), (mem_matrixResult ..).mpr ⟨h, hj, rfl⟩, rfl⟩
  have hes : ∀ e, e ∈ (matrixResult m tile).1 → e.1 < 64 ∧ e.2.1 < 64 ∧ e.2.2 = (tileElement m e.1 e.2.1 (tile e.1 e.2.1)).1 :=
    fun e he => ((mem_matrixResult ..).mp he).imp_left hasLane_lt
  rw [getAcc_setAccs (g := fun i j => (tileElement m i j (tile i j)).1) hes a t u hi hj]
  simp only [hmem]

/-! ### Arrays and block instances -/

theorem arrayAt_setArrays (k : Core) (mask : BitVec 4) (busy : Option (Nat × Nat)) {n : Nat} (hn : n < 4) :
    arrayAt (setArrays k mask busy) n = if mask.getLsbD n then { arrayAt k n with busy := busy } else arrayAt k n := by
  rw [arrayAt, setArrays, List.getElem?_map, List.getElem?_range hn]
  rfl

/-- Block instances that settle set flags of their warp. -/
theorem settleInsts_warp (s : State) (w : Nat) (kept : BitVec 12) :
    ∃ flags insts, ∀ v, (settleInsts s w kept).warp v
      = if v = w then { s.warp w with arch := { (s.warp w).arch with flags := flags, insts := insts } } else s.warp v := by
  unfold settleInsts
  extract_lets x isOver done flags
  split
  · refine ⟨x.arch.flags, x.arch.insts, fun v => ?_⟩
    split
    · next h => rw [h]
    · rfl
  · exact ⟨_, _, fun v => State.setWarp_warp ..⟩

theorem settleInsts_frame (s : State) (w : Nat) (kept : BitVec 12) :
    settleInsts s w kept = { s with warps := (settleInsts s w kept).warps } := by
  unfold settleInsts
  extract_lets
  split <;> rfl

theorem settleInsts_memoryKept (s : State) (w : Nat) (kept : BitVec 12) : MemoryKept s (settleInsts s w kept) := by
  rw [settleInsts_frame]
  exact ⟨fun _ => rfl, fun _ => ⟨rfl, rfl⟩⟩

theorem auditNote_kept (s : State) (m : MatOp) (tile : Nat → Nat → W32) (els : List (Nat × Nat × W32)) :
    StorageKept s (auditNote s m tile els) := ⟨rfl, rfl, rfl, fun _ => rfl, fun _ => rfl⟩

/-! ### Completion (R161) -/

/-- What a matrix instruction computes from its warp's tile. -/
def Warp.matrixResult (x : Warp) (m : MatOp) : List (Nat × Nat × W32) × NumFlags :=
  Machine.matrixResult m (fun i j => x.arch.getAcc m.op.acc.toNat i j)

/-- A warp whose matrix instruction has completed. -/
def Warp.finishMatrix (x : Warp) (m : MatOp) : Warp :=
  { x.updArch m.id (fun a => a.setAccs m.op.acc.toNat (x.matrixResult m).1) with
    mflags := x.mflags ++ [(m.id, (x.matrixResult m).2.setWidth 64)] }

/-- The module after the completion of the `k`-th instruction of a block, but for its warp's block instances. -/
def State.finishMatrix (s : State) (blk k : Nat) (m : MatOp) : State :=
  let b := s.block blk
  let s2 := (s.setBlock blk { b with mq := dropAt b.mq k }).setWarp m.warp ((s.warp m.warp).finishMatrix m)
  auditNote (s2.setCore b.core (setArrays (s.core b.core) m.arrays none)) m
    (fun i j => (s.warp m.warp).arch.getAcc m.op.acc.toNat i j) ((s.warp m.warp).matrixResult m).1

theorem execMmaComplete_eq {s : State} {m : MatOp} (hm : (s.block s.ev.k).mq[s.ev.id]? = some m) (hstarted : m.started = true) :
    exec .mmaComplete s = .next (settleInsts (s.finishMatrix s.ev.k s.ev.id m) m.warp) := by
  show execMmaComplete s = _
  simp only [execMmaComplete, hm, hstarted, Bool.not_true, Bool.false_eq_true, if_false]
  rfl

theorem State.finishMatrix_memoryKept (s : State) (blk k : Nat) (m : MatOp) : MemoryKept s (s.finishMatrix blk k m) :=
  memoryKept_trans (StorageKept.setBlock s (b := blk) (x := { s.block blk with mq := dropAt (s.block blk).mq k }) rfl rfl).memoryKept
    (memoryKept_trans (memoryKept_setWarp _ m.warp ((s.warp m.warp).finishMatrix m))
      ((StorageKept.setCore ..).trans (auditNote_kept ..)).memoryKept)

/-- Every register but the tiles stays when a warp's matrix instruction completes. -/
theorem Warp.finishMatrix_arch (x : Warp) (m : MatOp) :
    (x.finishMatrix m).arch = { x.arch with acc := (x.finishMatrix m).arch.acc } := WarpArch.setAccs_frame ..

theorem Warp.finishMatrix_getAcc (x : Warp) (m : MatOp) (n : Nat) {i j : Nat} (hi : i < 64) (hj : j < 64) :
    (x.finishMatrix m).arch.getAcc n i j
      = if n = m.op.acc.toNat ∧ hasLane m.rows i = true then (tileElement m i j (x.arch.getAcc m.op.acc.toNat i j)).1
        else x.arch.getAcc n i j := WarpArch.getAcc_matrixResult x.arch m _ n _ hi hj

/-- The completion writes the sums, frees the arrays and leaves every other register and warp. -/
theorem matrixComplete : MatrixComplete := by
  intro s m b x hm hstarted
  refine ⟨_, (x.matrixResult m).2.setWidth 64, execMmaComplete_eq hm hstarted, ?_⟩
  obtain ⟨flags, insts, hsettled⟩ := settleInsts_warp (s.finishMatrix s.ev.k s.ev.id m) m.warp 0
  have hfinish : ∀ v, (s.finishMatrix s.ev.k s.ev.id m).warp v = if v = m.warp then x.finishMatrix m else s.warp v :=
    fun v => State.setWarp_warp ..
  have hwarp := hsettled m.warp
  rw [if_pos rfl, hfinish, if_pos rfl] at hwarp
  have hothers : ∀ v, v ≠ m.warp → (settleInsts (s.finishMatrix s.ev.k s.ev.id m) m.warp).warp v = s.warp v := fun v hv => by
    rw [hsettled, if_neg hv, hfinish, if_neg hv]
  rw [hwarp]
  refine ⟨?mq, fun i j hi hj => ?tile, fun n i j hn hi hj => ?kept, rfl, fun k => ?flags, fun n hn => ?arrays, ?memory, hothers,
    ?registers⟩
  case registers => rw [x.finishMatrix_arch m]; exact ⟨rfl, rfl, rfl, rfl⟩
  case tile => exact (x.finishMatrix_getAcc m _ hi hj).trans (if_congr (and_iff_right rfl) rfl rfl)
  case kept => exact (x.finishMatrix_getAcc m n hi hj).trans (if_neg fun h => hn h.1)
  case flags =>
    rw [BitVec.getLsbD_setWidth, Bool.and_eq_true, decide_eq_true_eq]
    refine (and_iff_right_of_imp fun h => ?_).trans (matrixResult_flags ..)
    exact (BitVec.lt_of_getLsbD h).trans (by decide)
  case memory => exact memoryKept_trans (s.finishMatrix_memoryKept s.ev.k s.ev.id m) (settleInsts_memoryKept ..)
  all_goals rw [settleInsts_frame]
  case mq => exact congrArg Block.mq (State.setBlock_block_self s s.ev.k _)
  case arrays =>
    have hcore : (s.finishMatrix s.ev.k s.ev.id m).core b.core = setArrays (s.core b.core) m.arrays none :=
      (State.setCore_core ..).trans (if_pos rfl)
    refine (congrArg (fun c => (arrayAt c n).busy) hcore).trans ?_
    rw [arrayAt_setArrays _ _ _ hn]
    split <;> rfl

end Sys2Proof.Machine
end

section
/-! The start of a matrix instruction (R161, R162): when the model lets it start, the arrays it takes and the operands it removes. -/

namespace Sys2Proof.Machine

open Sys2Proof.Claim

/-! ### When it may start -/

theorem operandBytes_eq (m : MatOp) :
    operandBytes m = (operandSize (m.fmt.extractLsb' 0 4) m.op.kc.toNat, operandSize (m.fmt.extractLsb' 4 4) m.op.kc.toNat) := by
  rw [operandBytes, readFmt_eq]
  rfl

theorem operandsReady_iff (b : Block) (m : MatOp) :
    operandsReady b m = true ↔
      if m.op.fa = m.op.fb then
        operandSize (m.fmt.extractLsb' 0 4) m.op.kc.toNat + operandSize (m.fmt.extractLsb' 4 4) m.op.kc.toNat
          ≤ (fifoBytes b m.op.fa).length
      else operandSize (m.fmt.extractLsb' 0 4) m.op.kc.toNat ≤ (fifoBytes b m.op.fa).length
        ∧ operandSize (m.fmt.extractLsb' 4 4) m.op.kc.toNat ≤ (fifoBytes b m.op.fb).length := by
  simp only [operandsReady, operandBytes_eq, BitVec.toNat_inj]
  split <;> simp only [Bool.and_eq_true, decide_eq_true_eq] <;> rfl

theorem mem_take_iff_getElem? {α : Type} (xs : List α) (k : Nat) (e : α) :
    e ∈ xs.take k ↔ ∃ j, j < k ∧ xs[j]? = some e := by
  simp only [List.mem_iff_getElem?, List.getElem?_take, ite_eq_iff, reduceCtorEq, and_false, or_false]

theorem earlierAllow_iff (mq : List MatOp) (k : Nat) (m : MatOp) :
    earlierAllow (mq.take k) m = true ↔ ∀ j e, j < k → mq[j]? = some e →
      (e.started = true ∨ (e.op.fa ≠ m.op.fa ∧ e.op.fa ≠ m.op.fb ∧ e.op.fb ≠ m.op.fa ∧ e.op.fb ≠ m.op.fb))
        ∧ ¬ (e.warp = m.warp ∧ e.op.acc = m.op.acc) := by
  have hone : ∀ e : MatOp, ((e.started || !([e.op.fa, e.op.fb].any (fun k => k == m.op.fa || k == m.op.fb)))
        && !(e.warp == m.warp && e.op.acc == m.op.acc)) = true
      ↔ (e.started = true ∨ (e.op.fa ≠ m.op.fa ∧ e.op.fa ≠ m.op.fb ∧ e.op.fb ≠ m.op.fa ∧ e.op.fb ≠ m.op.fb))
        ∧ ¬ (e.warp = m.warp ∧ e.op.acc = m.op.acc) := fun e => by
    simp [and_assoc, imp_iff_not_or]
  simp only [earlierAllow, List.all_eq_true, mem_take_iff_getElem?, hone]
  exact ⟨fun h j e hj he => h e ⟨j, hj, he⟩, fun h e ⟨j, hj, he⟩ => h j e hj he⟩

theorem tileAwaited_iff (x : Warp) (m : MatOp) :
    tileAwaited x m = false
      ↔ ∀ v, v ∈ x.arch.units ∨ v ∈ x.arch.stack → v.hold = .tile m.op.acc.toNat → m.id < v.firstId := by
  simp only [tileAwaited, List.any_eq_false, List.mem_append, Bool.and_eq_true, beq_iff_eq, decide_eq_true_eq, not_and, Nat.not_le]

/-- A matrix instruction that may start passes every test of the model. -/
theorem mayStart_tests {s : State} {b : Block} {k : Nat} {m : MatOp} (hstatus : b.status = .resident) (h : MayStart s b k m) :
    (m.started || b.status != .resident || !operandsReady b m || !earlierAllow (b.mq.take k) m || tileAwaited (s.warp m.warp) m
      || !loadsReturned (s.warp m.warp) m.id) = false := by
  obtain ⟨hstarted, hready, hearlier, htile, hloads⟩ := h
  rw [hstarted, hstatus, (operandsReady_iff b m).mpr hready, (earlierAllow_iff ..).mpr hearlier, (tileAwaited_iff ..).mpr htile,
    loadsReturned, List.all_eq_true.mpr fun c hc => decide_eq_true (hloads c hc)]
  rfl

/-! ### The arrays it takes (R162) -/

/-- The multiplier arrays for which a test holds, lowest first. -/
def multipliers (p : Nat → Bool) : List Nat := ([0, 1, 2] : List Nat).filter p

theorem multipliers_eq (p : Nat → Bool) :
    multipliers p = (if p 0 then [0] else []) ++ (if p 1 then [1] else []) ++ (if p 2 then [2] else []) := by
  cases h0 : p 0 <;> cases h1 : p 1 <;> cases h2 : p 2 <;> simp [multipliers, h0, h1, h2]

theorem multipliers_first {p : Nat → Bool} {n : Nat} (hn : n < 3) (hp : p n = true) (hbelow : ∀ j, j < n → p j = false) :
    ∃ rest, multipliers p = n :: rest := by
  interval_cases n <;> simp [multipliers_eq, hp, hbelow]

theorem multipliers_two {p : Nat → Bool} {n j : Nat} (hn : p n = true) (hbelow : ∀ i, i < n → p i = false) (hnj : n < j)
    (hj : j < 3) (hpj : p j = true) (hbetween : ∀ i, n < i → i < j → p i = false) :
    ∃ rest, multipliers p = n :: j :: rest := by
  interval_cases j <;> interval_cases n <;> simp [multipliers_eq, hn, hpj, hbelow, hbetween]

/-- An array that is free and in service, as the model tests it. -/
def freeArray (k : Core) (n : Nat) : Bool := (arrayAt k n).busy.isNone && inService (arrayAt k n)

def cleanArray (k : Core) (n : Nat) : Bool := freeArray k n && (arrayAt k n).fenced == 0

theorem freeArray_iff (k : Core) (n : Nat) : freeArray k n = true ↔ FreeArray k n := by
  simp only [freeArray, FreeArray, inService, Bool.and_eq_true, Option.isNone_iff_eq_none, decide_eq_true_eq]

theorem cleanArray_iff (k : Core) (n : Nat) : cleanArray k n = true ↔ CleanArray k n := by
  simp only [cleanArray, CleanArray, freeArray_iff, Bool.and_eq_true, beq_iff_eq]

theorem chooseArrays_mss {k : Core} {m : MatOp} (hmss : m.mss = true) (hfree : FreeArray k 3) : chooseArrays k m = some 8 := by
  have h3 := (freeArray_iff k 3).mpr hfree
  simp only [chooseArrays, hmss, if_true]
  exact if_pos h3

theorem chooseArrays_multiplier {k : Core} {m : MatOp} (hmss : m.mss = false) :
    chooseArrays k m = match m.op.fuse, multipliers (cleanArray k) with
      | true, a :: b :: _ => some (BitVec.ofNat 4 (2 ^ a + 2 ^ b))
      | _, a :: _ => some (BitVec.ofNat 4 (2 ^ a))
      | _, [] => ((([0, 1, 2] : List Nat).find? (freeArray k))).map (fun a => BitVec.ofNat 4 (2 ^ a)) := by
  simp only [chooseArrays, hmss, Bool.false_eq_true, if_false]
  rfl

/-- A free multiplier array takes the instruction. -/
theorem chooseArrays_some {k : Core} {m : MatOp} (hfree : if m.mss then FreeArray k 3 else ∃ n, n < 3 ∧ FreeArray k n) :
    ∃ mask, chooseArrays k m = some mask := by
  cases hmss : m.mss
  · rw [hmss, if_neg Bool.false_ne_true] at hfree
    obtain ⟨n, hn, hfree⟩ := hfree
    have hfind : (([0, 1, 2] : List Nat).find? (freeArray k)).isSome = true :=
      List.find?_isSome.mpr ⟨n, by interval_cases n <;> decide, (freeArray_iff k n).mpr hfree⟩
    rw [chooseArrays_multiplier hmss]
    split
    · exact ⟨_, rfl⟩
    · exact ⟨_, rfl⟩
    · obtain ⟨a, ha⟩ := Option.isSome_iff_exists.mp hfind
      exact ⟨_, by rw [ha]; rfl⟩
  · rw [hmss, if_pos rfl] at hfree
    exact ⟨8, chooseArrays_mss hmss hfree⟩

/-- The lowest clean array takes it, or the two lowest with FUSE. -/
theorem chooseArrays_clean {k : Core} {m : MatOp} {n : Nat} {mask : BitVec 4} (hmss : m.mss = false)
    (hmask : chooseArrays k m = some mask) (hn : n < 3) (hclean : CleanArray k n) (hbelow : ∀ j, j < n → ¬ CleanArray k j) :
    (m.op.fuse = false → mask = BitVec.ofNat 4 (2 ^ n))
      ∧ ∀ j, m.op.fuse = true → n < j → j < 3 → CleanArray k j → (∀ i, n < i → i < j → ¬ CleanArray k i) →
          mask = BitVec.ofNat 4 (2 ^ n + 2 ^ j) := by
  have hfirst : cleanArray k n = true := (cleanArray_iff k n).mpr hclean
  have hnot : ∀ i, ¬ CleanArray k i → cleanArray k i = false := fun i hi => by
    rw [← cleanArray_iff] at hi; exact Bool.eq_false_iff.mpr hi
  rw [chooseArrays_multiplier hmss] at hmask
  constructor
  · intro hfuse
    obtain ⟨rest, hrest⟩ := multipliers_first hn hfirst fun j hj => hnot j (hbelow j hj)
    rw [hfuse, hrest] at hmask
    exact (Option.some.inj hmask).symm
  · intro j hfuse hnj hj hcleanj hbetween
    obtain ⟨rest, hrest⟩ := multipliers_two hfirst (fun i hi => hnot i (hbelow i hi)) hnj hj ((cleanArray_iff k j).mpr hcleanj)
      fun i hi hij => hnot i (hbetween i hi hij)
    rw [hfuse, hrest] at hmask
    exact (Option.some.inj hmask).symm

/-! ### The operands leave the FIFOs (R161) -/

/-- The FIFO of B's operand, once A's operand has left. -/
def secondFifo (b : Block) (m : MatOp) : List Byte :=
  if m.op.fb = m.op.fa then (fifoBytes b m.op.fa).drop (operandSize (m.fmt.extractLsb' 0 4) m.op.kc.toNat) else fifoBytes b m.op.fb

theorem takeOperands_bBytes (b : Block) (m : MatOp) :
    (takeOperands b m).2.bBytes = (secondFifo b m).take (operandSize (m.fmt.extractLsb' 4 4) m.op.kc.toNat) := by
  simp only [takeOperands, operandBytes_eq, secondFifo, Sparse.get_set, BitVec.toNat_inj]
  rfl

theorem fifoBytes_takeOperands (b : Block) (m : MatOp) (f : BitVec 3) :
    fifoBytes (takeOperands b m).1 f
      = if f = m.op.fb then (secondFifo b m).drop (operandSize (m.fmt.extractLsb' 4 4) m.op.kc.toNat)
        else if f = m.op.fa then (fifoBytes b m.op.fa).drop (operandSize (m.fmt.extractLsb' 0 4) m.op.kc.toNat)
        else fifoBytes b f := by
  simp only [fifoBytes, takeOperands, operandBytes_eq, secondFifo, Sparse.get_set, BitVec.toNat_inj]
  rfl

/-! ### The start -/

/-- The module after the start of the `k`-th instruction of a block on some arrays. -/
def State.startMatrix (s : State) (blk k : Nat) (m : MatOp) (mask : BitVec 4) : State :=
  let b := s.block blk
  let r := takeOperands b m
  (s.setBlock blk { r.1 with mq := setAt b.mq k { r.2 with arrays := mask } }).setCore b.core
    (setArrays (s.core b.core) mask (some (m.warp, m.id)))

theorem execMmaStart_eq {s : State} {m : MatOp} {mask : BitVec 4} (hm : (s.block s.ev.k).mq[s.ev.id]? = some m)
    (hstatus : (s.block s.ev.k).status = .resident) (hmay : MayStart s (s.block s.ev.k) s.ev.id m)
    (hmask : chooseArrays (s.core (s.block s.ev.k).core) m = some mask) :
    exec .mmaStart s = .next (s.startMatrix s.ev.k s.ev.id m mask) := by
  show execMmaStart s = _
  simp only [execMmaStart, hm, mayStart_tests hstatus hmay, hmask, Bool.false_eq_true, if_false]
  rfl

/-- The start takes the operands from their FIFOs, A's first, and the arrays of R162. -/
theorem matrixStart : MatrixStart := by
  intro s m b k na nb hm hstatus hmay hlen hfree
  obtain ⟨mask, hmask⟩ := chooseArrays_some hfree
  have hkept : StorageKept s (s.startMatrix s.ev.k s.ev.id m mask) :=
    (StorageKept.setBlock s (x := { (takeOperands b m).1 with
      mq := setAt b.mq s.ev.id { (takeOperands b m).2 with arrays := mask } }) rfl rfl).trans (StorageKept.setCore ..)
  have hblock : (s.startMatrix s.ev.k s.ev.id m mask).block s.ev.k = { (takeOperands b m).1 with
      mq := setAt b.mq s.ev.id { (takeOperands b m).2 with arrays := mask } } := State.setBlock_block_self s s.ev.k _
  have hcore : (s.startMatrix s.ev.k s.ev.id m mask).core b.core = setArrays k mask (some (m.warp, m.id)) :=
    (State.setCore_core ..).trans (if_pos rfl)
  have hfifo : ∀ f, fifoBytes ((s.startMatrix s.ev.k s.ev.id m mask).block s.ev.k) f = fifoBytes (takeOperands b m).1 f :=
    fun f => by rw [hblock]; rfl
  have hidx : s.ev.id < b.mq.length := (List.getElem?_eq_some_iff.mp hm).1
  refine ⟨_, { (takeOperands b m).2 with arrays := mask }, execMmaStart_eq hm hstatus hmay hmask, ?entry, rfl, rfl, rfl, rfl, rfl, rfl,
    ?aBytes, fun hne => ?apart, fun heq => ?same, fun f hfa hfb => ?others, fun hmss => ?mss, fun n hmss hn hclean hbelow => ?clean,
    fun n hn => ?arrays, hkept.dataKept, rfl⟩
  case entry => rw [hblock]; exact getElem?_setAt_self _ hidx
  case aBytes => exact congrArg (List.take · _) (congrArg Prod.fst (operandBytes_eq m))
  case apart =>
    have hsecond : secondFifo b m = fifoBytes b m.op.fb := if_neg (Ne.symm hne)
    rw [hfifo, hfifo, fifoBytes_takeOperands, fifoBytes_takeOperands, if_neg hne, if_pos rfl, if_pos rfl, takeOperands_bBytes, hsecond]
    exact ⟨rfl, rfl, rfl⟩
  case same =>
    have hsecond : secondFifo b m = (fifoBytes b m.op.fa).drop na := if_pos heq.symm
    rw [hfifo, fifoBytes_takeOperands, if_pos heq, takeOperands_bBytes, hsecond, List.drop_drop]
    exact ⟨rfl, rfl⟩
  case others => rw [hfifo, fifoBytes_takeOperands, if_neg hfb, if_neg hfa]
  case mss =>
    rw [hmss, if_pos rfl] at hfree
    exact (Option.some.inj ((chooseArrays_mss hmss hfree).symm.trans hmask)).symm
  case clean => exact chooseArrays_clean hmss hmask hn hclean hbelow
  case arrays =>
    rw [hcore, arrayAt_setArrays _ _ _ hn]
    split <;> rfl

end Sys2Proof.Machine
end

section
/-! The issue of a matrix instruction (R72, R74, R157, R160, R161): the checks of its format, its rows, and the snapshot. -/

namespace Sys2Proof.Machine

open Sys2Proof.Claim

/-! ### The format trap (R74, R160) -/

theorem typesFit_iff (mss : Bool) (a b : BitVec 4) : typesFit mss a b = true ↔ typePair mss a.toNat b.toNat := by
  unfold typesFit typePair
  cases mss
  · simp only [Bool.false_eq_true, if_false, Bool.or_eq_true, Bool.and_eq_true, decide_eq_true_eq, beq_iff_eq]
    omega
  · simp only [if_true, Bool.and_eq_true, beq_iff_eq]

/-- The scale bytes of an operand, each with its address. -/
theorem mem_scaleKeys (scl base stride kb0 n : Nat) (e : Nat × Nat) :
    e ∈ scaleKeys scl base stride kb0 n
      ↔ scl ≠ 0 ∧ ∃ kb row, kb < n ∧ row < 64 ∧ e = (64 * kb + row, base + row * stride + kb0 + kb) := by
  unfold scaleKeys
  by_cases h : scl = 0
  · simp [h]
  · simp only [h, if_false, List.mem_flatMap, List.mem_map, List.mem_range, scaleAddr, ne_eq, not_false_eq_true, true_and]
    constructor
    · rintro ⟨kb, hkb, row, hrow, rfl⟩
      exact ⟨kb, row, hkb, hrow, rfl⟩
    · rintro ⟨kb, row, hkb, hrow, rfl⟩
      exact ⟨kb, hkb, row, hrow, rfl⟩

theorem scaleKeys_inside (w : BitVec 128) (scl base stride blk kc alloc : Nat) :
    (scaleKeys scl base stride (fmtField w 96 8) (blocksOf kc blk)).any (fun e => decide (alloc ≤ e.2)) = false
      ↔ scalesIn w scl base stride blk kc alloc := by
  simp only [List.any_eq_false, decide_eq_true_eq, Nat.not_le, mem_scaleKeys, scalesIn, blocksOf]
  constructor
  · intro h hscl row kb hrow hkb
    exact h _ ⟨hscl, kb, row, hkb, hrow, rfl⟩
  · rintro h _ ⟨hscl, kb, row, hkb, hrow, rfl⟩
    exact h hscl row kb hrow hkb

/-- What the model tests for each cause of the format trap. -/
def formatTest (w : BitVec 128) (mss : Bool) (kc alloc : Nat) : Nat → Bool
  | 1 => typesFit mss (w.extractLsb' 0 4) (w.extractLsb' 4 4)
  | 2 => !decide (fmtField w 10 2 = 3 ∨ fmtField w 12 2 = 3)
  | 3 => !decide (32 * kc % max (kblock w 8) (kblock w 9) ≠ 0)
  | 4 => !(scaleKeys (fmtField w 10 2) (fmtField w 16 21) (fmtField w 64 16) (fmtField w 96 8) (blocksOf kc (kblock w 8))
            ++ scaleKeys (fmtField w 12 2) (fmtField w 40 21) (fmtField w 80 16) (fmtField w 96 8) (blocksOf kc (kblock w 9))).any
              (fun e => decide (alloc ≤ e.2))
  | _ => !decide (65536 < kc * chunkBytes (w.extractLsb' 0 4) ∨ 65536 < kc * chunkBytes (w.extractLsb' 4 4))

theorem formatTest_iff (w : BitVec 128) (mss : Bool) (kc alloc : Nat) {c : Nat} (h1 : 1 ≤ c) (h5 : c ≤ 5) :
    formatTest w mss kc alloc c = true ↔ fmtCheck w mss kc alloc c := by
  interval_cases c
  · exact typesFit_iff ..
  · simp only [formatTest, fmtCheck, Bool.not_eq_true', decide_eq_false_iff_not, not_or, ne_eq]
  · simp only [formatTest, fmtCheck, Bool.not_eq_true', decide_eq_false_iff_not, ne_eq, not_not]
  · simp only [formatTest, fmtCheck, Bool.not_eq_true', List.any_append, Bool.or_eq_false_iff, scaleKeys_inside]
  · simp only [formatTest, fmtCheck, Bool.not_eq_true', decide_eq_false_iff_not, not_or, Nat.not_lt]
    rfl

theorem find?_cons_ite {p : Nat → Bool} {c : Nat} {cs : List Nat} {cond : Prop} [Decidable cond] (h : cond ↔ p c = true) :
    (c :: cs).find? p = if cond then some c else cs.find? p := by
  rw [List.find?_cons]
  by_cases hc : cond
  · rw [if_pos hc, h.mp hc]
  · rw [if_neg hc, Bool.eq_false_iff.mpr (mt h.mpr hc)]

/-- The lowest failing test names the cause. -/
theorem formatCause_eq (w : BitVec 128) (mss : Bool) (kc alloc : Nat) :
    formatCause (readFmt w) mss kc alloc = ([1, 2, 3, 4, 5] : List Nat).find? (fun c => !formatTest w mss kc alloc c) := by
  have hnot : ∀ {cond : Prop} [Decidable cond], cond ↔ (!!decide cond) = true := by simp
  rw [readFmt_eq, formatCause, find?_cons_ite Iff.rfl, find?_cons_ite hnot, find?_cons_ite hnot,
    find?_cons_ite (iff_of_eq (congrArg (· = true) (Bool.not_not _).symm)), find?_cons_ite hnot]
  rfl

theorem formatCause_lowest {w : BitVec 128} {mss : Bool} {kc alloc c : Nat} (h1 : 1 ≤ c) (h5 : c ≤ 5)
    (hfails : ¬ fmtCheck w mss kc alloc c) (hbelow : ∀ d, 1 ≤ d → d < c → fmtCheck w mss kc alloc d) :
    formatCause (readFmt w) mss kc alloc = some c := by
  have hc : formatTest w mss kc alloc c = false := by rw [← formatTest_iff _ _ _ _ h1 h5] at hfails; simpa using hfails
  have hd : ∀ d, 1 ≤ d → d < c → formatTest w mss kc alloc d = true := fun d h hlt =>
    (formatTest_iff _ _ _ _ h (by omega)).mpr (hbelow d h hlt)
  rw [formatCause_eq]
  interval_cases c <;> simp [List.find?, hc, hd]

theorem formatCause_none {w : BitVec 128} {mss : Bool} {kc alloc : Nat}
    (h : ∀ c, 1 ≤ c → c ≤ 5 → fmtCheck w mss kc alloc c) : formatCause (readFmt w) mss kc alloc = none := by
  rw [formatCause_eq, List.find?_eq_none]
  intro c hc
  obtain ⟨h1, h5⟩ : 1 ≤ c ∧ c ≤ 5 := by simp at hc; omega
  rw [(formatTest_iff w mss kc alloc h1 h5).mpr (h c h1 h5)]
  exact Bool.false_ne_true

/-! ### Rows (R161) -/

theorem hasLane_quadMask (q l : Nat) : hasLane (quadMask q) l = (decide (l < 64) && decide (l / 4 = q)) := by
  rw [hasLane, quadMask, BitVec.getLsbD_ofNat, show 15 * 2 ^ (4 * q) = (2 ^ 4 - 1) * 2 ^ (4 * q) from rfl,
    Nat.testBit_mul_two_pow, Nat.testBit_two_pow_sub_one, ← Bool.decide_and]
  congr 1
  exact decide_eq_decide.mpr (by omega)

theorem eq_zero_iff_no_lane (m : Lanes) : m = 0 ↔ ∀ l, ¬ hasLane m l = true := by
  simp only [BitVec.ofNat_eq_ofNat, BitVec.zero_iff_eq_false, hasLane, Bool.not_eq_true]

theorem quadMask_meets (m : Lanes) (q : Nat) : (m &&& quadMask q != 0) = true ↔ ∃ k, k / 4 = q ∧ hasLane m k = true := by
  have hand : ∀ k, hasLane (m &&& quadMask q) k = true ↔ k / 4 = q ∧ hasLane m k = true := fun k => by
    have hlt : hasLane m k = true → k < 64 := hasLane_lt
    rw [hasLane, BitVec.getLsbD_and, Bool.and_eq_true, ← hasLane, ← hasLane, hasLane_quadMask, Bool.and_eq_true, decide_eq_true_eq,
      decide_eq_true_eq]
    tauto
  rw [bne_iff_ne, ne_eq, eq_zero_iff_no_lane, not_forall_not]
  exact exists_congr hand

/-- The quads that hold a lane of the mask. -/
theorem hasLane_quadsOf (m : Lanes) (l : Nat) :
    hasLane (quadsOf m) l = true ↔ l < 64 ∧ ∃ k, k / 4 = l / 4 ∧ hasLane m k = true := by
  rw [hasLane, quadsOf, getLsbD_foldl_or_zero]
  simp only [List.mem_filter, List.mem_range, quadMask_meets]
  simp only [← hasLane.eq_def, hasLane_quadMask, Bool.and_eq_true, decide_eq_true_eq]
  constructor
  · rintro ⟨q, ⟨-, k, hk, hm⟩, hl, rfl⟩
    exact ⟨hl, k, hk, hm⟩
  · rintro ⟨hl, k, hk, hm⟩
    exact ⟨l / 4, ⟨by omega, k, hk, hm⟩, hl, rfl⟩

theorem hasLane_matrixRows (s : State) {l : Nat} (hl : l < 64) : hasLane (matrixRows s) l = true ↔ matrixRow s l := by
  rw [matrixRows, matrixRow, hasLane, BitVec.getLsbD_or, BitVec.getLsbD_and, Bool.or_eq_true, Bool.and_eq_true]
  exact or_congr_right (and_congr_right' ((hasLane_quadsOf ..).trans (and_iff_right hl)))

theorem matrixRows_eq_zero (s : State) : matrixRows s = 0 ↔ ∀ l, l < 64 → ¬ matrixRow s l := by
  rw [eq_zero_iff_no_lane]
  exact ⟨fun h l hl hrow => h l ((hasLane_matrixRows s hl).mpr hrow),
    fun h l hlane => h l (hasLane_lt hlane) ((hasLane_matrixRows s (hasLane_lt hlane)).mp hlane)⟩

/-! ### The snapshot (R72) -/

/-- The snapshot waits for what it may read. -/
theorem snapshotWaits_eq_false (s : State) :
    snapshotWaits s = false ↔ ∀ c, c ∈ s.cw.accs → c.lanes &&& s.unit.lanes ≠ 0 → c.stage ≠ .waiting ∨ isPosted c.kind = true
      ∨ isRemote s.cw c = true ∨ (c.bank ≠ some s.cw.blk ∧ isPureStore c.kind = true) := by
  have hone : ∀ c : Access, ¬ (c.stage == .waiting && !isPosted c.kind && !isRemote s.cw c
        && (c.bank == some s.cw.blk || !isPureStore c.kind)) = true
      ↔ c.stage ≠ .waiting ∨ isPosted c.kind = true ∨ isRemote s.cw c = true
        ∨ (c.bank ≠ some s.cw.blk ∧ isPureStore c.kind = true) := fun c => by
    simp only [Bool.and_eq_true, Bool.or_eq_true, Bool.not_eq_true', beq_iff_eq, not_and_or, not_or, Bool.not_eq_false, or_assoc, ne_eq]
  simp only [snapshotWaits, unitAccesses, List.any_eq_false, List.mem_filter, hone, bne_iff_ne, and_imp]

theorem get_scaleSnapshot {s : State} {blk key addr : Nat} {keys : List (Nat × Nat)} (hmem : (key, addr) ∈ keys)
    (huniq : ∀ a, (key, a) ∈ keys → a = addr) :
    Sparse.get 0 (scaleSnapshot s blk keys) key = spByte s blk addr := by
  have hfold : ∀ (ks : List (Nat × Nat)) (m : Sparse Byte), (∀ a, (key, a) ∈ ks → a = addr) →
      Sparse.get 0 (ks.foldl (fun m e => Sparse.set 0 m e.1 ((spRead s blk e.2 1).headD 0)) m) key
        = if key ∈ ks.map (·.1) then spByte s blk addr else Sparse.get 0 m key := by
    intro ks
    induction ks with
    | nil => simp
    | cons e ks ih =>
      intro m h
      rw [List.foldl_cons, ih _ fun a ha => h a (List.mem_cons_of_mem _ ha), Sparse.get_set]
      by_cases hlater : key ∈ ks.map (·.1)
      · simp only [hlater, if_true, List.map_cons, List.mem_cons, or_true]
      · by_cases hnow : key = e.1
        · have : e.2 = addr := h e.2 (by simp [hnow])
          rw [if_neg hlater, if_pos hnow, if_pos (by simp [hnow]), this]
          rfl
        · simp [hlater, hnow]
  exact (hfold keys [] huniq).trans (if_pos (List.mem_map.mpr ⟨_, hmem, rfl⟩))

/-- The snapshot of an operand's scale byte. -/
theorem get_scaleSnapshot_scaleKeys {scl n row kb : Nat} (s : State) (blk base stride kb0 : Nat) (hscl : scl ≠ 0) (hrow : row < 64)
    (hkb : kb < n) :
    Sparse.get 0 (scaleSnapshot s blk (scaleKeys scl base stride kb0 n)) (64 * kb + row)
      = spByte s blk (base + row * stride + kb0 + kb) := by
  refine get_scaleSnapshot ((mem_scaleKeys ..).mpr ⟨hscl, kb, row, hkb, hrow, rfl⟩) fun a ha => ?_
  obtain ⟨-, kb', row', -, hrow', heq⟩ := (mem_scaleKeys ..).mp ha
  obtain ⟨hkey, rfl⟩ := Prod.mk.inj heq
  obtain ⟨rfl, rfl⟩ : kb' = kb ∧ row' = row := by omega
  rfl

/-! ### The issue -/

/-- The instruction that MMA or MSS puts in its block's queue. -/
def State.matrixOp (s : State) (mss : Bool) (o : MmOp) : MatOp :=
  let w := Sparse.get 0 s.arch.fmt o.fmt.toNat
  let f := readFmt w
  { warp := s.cur.w, id := s.cw.nextId, mss := mss, op := o, fmt := w, rows := matrixRows s
    scaleA := scaleSnapshot s s.cw.blk (scaleKeys f.ascl f.abase f.astr f.kb0 (blocksOf o.kc.toNat f.ablk))
    scaleB := scaleSnapshot s s.cw.blk (scaleKeys f.bscl f.bbase f.bstr f.kb0 (blocksOf o.kc.toNat f.bblk))
    started := false, aBytes := [], bBytes := [], arrays := 0 }

theorem State.matrixOp_snapshot (s : State) (mss : Bool) (o : MmOp) :
    snapshotOf s (Sparse.get 0 s.arch.fmt o.fmt.toNat) o.kc.toNat (s.matrixOp mss o) := by
  intro row kb hrow
  rw [matrixOp, readFmt_eq]
  exact ⟨fun hscl hkb => get_scaleSnapshot_scaleKeys s _ _ _ _ hscl hrow hkb,
    fun hscl hkb => get_scaleSnapshot_scaleKeys s _ _ _ _ hscl hrow hkb⟩

/-- The warp that an issued matrix instruction leaves. -/
def Warp.openMatrix (x : Warp) (u : Nat) : Warp :=
  { x with arch := countOp x.arch u x.nextId, nextId := x.nextId + 1, openBatch := x.openBatch ++ [x.nextId] }

/-- The module after the issue of a matrix instruction with rows. -/
def State.issueMatrix (s : State) (mss : Bool) (o : MmOp) : State :=
  joinSample ((s.setBlock s.cw.blk { s.cblk with mq := s.cblk.mq ++ [s.matrixOp mss o] }).setCw (s.cw.openMatrix s.cur.u))
    s.cur.w s.cw.nextId (auditBytes (s.matrixOp mss o))

/-- What the auditor notes of an instruction that joins its batch. -/
theorem joinSample_frame (s : State) (w id bytes : Nat) :
    joinSample s w id bytes = { s with audit := (joinSample s w id bytes).audit, sys := (joinSample s w id bytes).sys } := by
  unfold joinSample
  extract_lets
  split
  · rfl
  · split <;> rfl

theorem joinSample_kept (s : State) (w id bytes : Nat) : StorageKept s (joinSample s w id bytes) := by
  rw [joinSample_frame]
  exact ⟨rfl, rfl, rfl, fun _ => rfl, fun _ => rfl⟩

theorem exec_matrix (mss : Bool) (o : MmOp) (s : State) :
    exec (if mss then .vmss o else .vmma o) s = .next (matrixIssue s mss o) := by
  cases mss <;> rfl

theorem matrixIssue_fifo {s : State} {o : MmOp} (mss : Bool)
    (h : ¬ (s.cblk.fifoSet.getLsbD o.fa.toNat = true ∧ s.cblk.fifoSet.getLsbD o.fb.toNat = true)) :
    matrixIssue s mss o = s.trap { vec := 1, cause := 9 } := by
  have hfails : (!s.cblk.fifoSet.getLsbD o.fa.toNat || !s.cblk.fifoSet.getLsbD o.fb.toNat) = true := by
    rw [← Bool.not_and, Bool.not_eq_true', Bool.eq_false_iff, ne_eq, Bool.and_eq_true]
    exact h
  exact if_pos hfails

theorem matrixIssue_format {s : State} {o : MmOp} {mss : Bool} {c : Nat}
    (h : s.cblk.fifoSet.getLsbD o.fa.toNat = true ∧ s.cblk.fifoSet.getLsbD o.fb.toNat = true)
    (hc : formatCause (readFmt (Sparse.get 0 s.arch.fmt o.fmt.toNat)) mss o.kc.toNat s.cblk.spAlloc = some c) :
    matrixIssue s mss o = s.trap { vec := 3, cause := c } := by
  simp only [matrixIssue, h.1, h.2, hc, Bool.not_true, Bool.or_self, Bool.false_eq_true, if_false]

theorem matrixIssue_passes {s : State} {o : MmOp} {mss : Bool}
    (h : s.cblk.fifoSet.getLsbD o.fa.toNat = true ∧ s.cblk.fifoSet.getLsbD o.fb.toNat = true)
    (hc : formatCause (readFmt (Sparse.get 0 s.arch.fmt o.fmt.toNat)) mss o.kc.toNat s.cblk.spAlloc = none) :
    matrixIssue s mss o = if matrixRows s = 0 then s
      else if (fmtField (Sparse.get 0 s.arch.fmt o.fmt.toNat) 10 2 ≠ 0 ∨ fmtField (Sparse.get 0 s.arch.fmt o.fmt.toNat) 12 2 ≠ 0)
        ∧ snapshotWaits s = true then s.hold .walk
      else s.issueMatrix mss o := by
  have hscl : ∀ w, (readFmt w).ascl = fmtField w 10 2 ∧ (readFmt w).bscl = fmtField w 12 2 := fun w => by
    rw [readFmt_eq]; exact ⟨rfl, rfl⟩
  rw [← (hscl _).1, ← (hscl _).2]
  simp only [matrixIssue, h.1, h.2, hc, Bool.not_true, Bool.or_self, Bool.false_eq_true, if_false]
  rfl

/-- What the issue changes: its block's queue, its warp's counters, and the auditor's notes. -/
theorem State.issueMatrix_effect (s : State) (mss : Bool) (o : MmOp) :
    (s.issueMatrix mss o).cur = s.cur ∧ (s.issueMatrix mss o).cw = s.cw.openMatrix s.cur.u
      ∧ (s.issueMatrix mss o).cblk.mq = s.cblk.mq ++ [s.matrixOp mss o]
      ∧ (∀ v, v ≠ s.cur.w → (s.issueMatrix mss o).warp v = s.warp v) ∧ DataKept s (s.issueMatrix mss o) := by
  have hcur : (s.issueMatrix mss o).cur = s.cur := by rw [issueMatrix, joinSample_frame]; rfl
  have hwarp : ∀ v, (s.issueMatrix mss o).warp v = if v = s.cur.w then s.cw.openMatrix s.cur.u else s.warp v := fun v => by
    rw [issueMatrix, (joinSample_kept ..).warp]; exact State.setWarp_warp ..
  have hcw : (s.issueMatrix mss o).cw = s.cw.openMatrix s.cur.u := by rw [State.cw, hcur, hwarp, if_pos rfl]
  have hblock : ∀ b, (s.issueMatrix mss o).block b
      = (s.setBlock s.cw.blk { s.cblk with mq := s.cblk.mq ++ [s.matrixOp mss o] }).block b := fun b => by
    rw [issueMatrix, joinSample_frame]; rfl
  refine ⟨hcur, hcw, ?queue, fun v hv => (hwarp v).trans (if_neg hv), ?data⟩
  case queue =>
    rw [State.cblk, hcw, hblock]
    exact congrArg Block.mq (State.setBlock_block_self ..)
  case data =>
    have hqueue : StorageKept s (s.setBlock s.cw.blk { s.cblk with mq := s.cblk.mq ++ [s.matrixOp mss o] }) :=
      StorageKept.setBlock s rfl rfl
    exact dataKept_trans hqueue.dataKept
      (dataKept_trans (dataKept_setWarp _ (w := s.cur.w) (x := s.cw.openMatrix s.cur.u) rfl) (joinSample_kept ..).dataKept)

/-- The issue traps by the lowest failing check, does nothing without rows, and else queues the instruction. -/
theorem matrixIssue_claim : MatrixIssue := by
  intro s o mss i w kc fifosOk
  have hexec : exec i s = .next (matrixIssue s mss o) := exec_matrix mss o s
  refine ⟨fun hfifo hslot htrap => ?fifo, fun c h1 h5 hfifo hfails hbelow hslot htrap => ?format,
    fun hfifo hchecks => ⟨fun hnone => ?none, fun hrows hready => ?issued⟩⟩
  case fifo =>
    refine ⟨_, hexec, ?_⟩
    rw [matrixIssue_fifo mss hfifo, ← hslot]
    exact s.trap_taken { vec := 1, cause := 9 } htrap rfl rfl rfl
  case format =>
    refine ⟨_, hexec, ?_⟩
    rw [matrixIssue_format hfifo (formatCause_lowest h1 h5 hfails hbelow), ← hslot]
    exact s.trap_taken { vec := 3, cause := c } htrap rfl rfl rfl
  case none => rw [hexec, matrixIssue_passes hfifo (formatCause_none hchecks), if_pos ((matrixRows_eq_zero s).mpr hnone)]
  case issued =>
    have hsome : matrixRows s ≠ 0 := by
      obtain ⟨l, hl, hrow⟩ := hrows
      exact fun h => (matrixRows_eq_zero s).mp h l hl hrow
    have hgo : ¬ ((fmtField w 10 2 ≠ 0 ∨ fmtField w 12 2 ≠ 0) ∧ snapshotWaits s = true) := by
      rintro ⟨hscl, hwaits⟩
      obtain ⟨ha, hb⟩ | hperformed := hready
      · exact hscl.elim (· ha) (· hb)
      · exact Bool.false_ne_true (((snapshotWaits_eq_false s).mpr hperformed).symm.trans hwaits)
    obtain ⟨hcur, hcw, hqueue, hothers, hdata⟩ := s.issueMatrix_effect mss o
    refine ⟨s.issueMatrix mss o, s.matrixOp mss o, ?_, hcur, hqueue, rfl, rfl, rfl, rfl, rfl,
      fun l hl => hasLane_matrixRows s hl, s.matrixOp_snapshot mss o, ?_, rfl, hdata, hothers⟩
    · rw [hexec, matrixIssue_passes hfifo (formatCause_none hchecks), if_neg hsome, if_neg hgo]
    · rw [hcw]; rfl

/-- Settles O31: the issue by its checks, the start by what leaves the FIFOs, the completion by the sums of R75 and R76. -/
theorem matrix : Obligations.Matrix := by
  unfold Obligations.Matrix
  exact ⟨matrixIssue_claim, matrixStart, matrixComplete⟩

end Sys2Proof.Machine
end

section
/-! Domains of a cross-lane issue (R103, R104): each lane that the issue writes lies in one domain, its group. -/

namespace Sys2Proof.Machine

open Sys2Proof.Claim

/-! ### Lanes of a mask -/

/-- Masks with the same lanes are equal. -/
theorem lanes_ext {m n : Lanes} (h : ∀ l, hasLane m l = hasLane n l) : m = n :=
  BitVec.eq_of_getLsbD_eq fun l _ => h l

theorem hasLane_or (m n : Lanes) (l : Nat) : hasLane (m ||| n) l = (hasLane m l || hasLane n l) := BitVec.getLsbD_or

theorem hasLane_plyRangeMask (p n l : Nat) :
    hasLane (plyRangeMask p n) l = (decide (l < 64) && decide (8 * p ≤ l ∧ l < 8 * p + 8 * n)) := by
  rw [hasLane, plyRangeMask, BitVec.getLsbD_ofNat, Nat.testBit_mul_two_pow, Nat.testBit_two_pow_sub_one]
  congr 1
  rw [← Bool.decide_and, decide_eq_decide]
  omega

/-! ### The lanes of an issue (R103, R108) -/

theorem active_of_guard {s : State} (h : ProperIssue s) {l : Nat} (hl : hasLane s.cur.guard l = true) :
    hasLane s.cur.lanes l = true := by
  rw [← h.1, hasLane_and, Bool.and_eq_true] at hl
  exact hl.2

/-- A written lane has an active lane in its quad: itself, or one that made it a helper (R103). -/
theorem active_in_quad {s : State} (h : ProperIssue s) {l : Nat} (hl : hasLane s.written l = true) :
    ∃ k, k / 4 = l / 4 ∧ hasLane s.cur.lanes k = true := by
  rw [State.written, hasLane_or, Bool.or_eq_true] at hl
  obtain hguard | hhelper := hl
  · exact ⟨l, rfl, active_of_guard h hguard⟩
  · obtain ⟨-, hhelpers, -⟩ := h
    rw [hhelpers, helpersOf, hasLane_and, Bool.and_eq_true] at hhelper
    exact ((hasLane_quadsOf _ _).mp hhelper.1).2

theorem hasLane_written_of_guard {s : State} {l : Nat} (hl : hasLane s.cur.guard l = true) : hasLane s.written l = true := by
  rw [State.written, hasLane_or, hl, Bool.true_or]

/-! ### Domains (R104) -/

/-- A width as a count of plies is that of the statements, with `gang` for 0. -/
theorem widthOf_eq (w : Option (BitVec 4)) :
    widthOf w = if (w.getD 0).toNat = 0 then none else some (w.getD 0).toNat := by
  cases w with
  | none => rfl
  | some k =>
    simp only [widthOf, Option.getD_some]
    exact if_congr (BitVec.toNat_eq (y := 0)) rfl rfl

/-- A domain is the group of each of its lanes. -/
structure Domain.IsGroup (s : State) (w : Option (BitVec 4)) (dom : Domain) (l : Nat) : Prop where
  first : dom.first = (Claim.groupOf s w l).1
  count : dom.count = (Claim.groupOf s w l).2.1
  lanes : ∀ j, hasLane dom.lanes j = (Claim.groupOf s w l).2.2 j

/-- The plies of group `g` as a domain, for groups of `n` plies. -/
def plyGroup (s : State) (n g : Nat) : Domain :=
  ⟨8 * g * n, 8 * min n (s.cw.nply - g * n), plyRangeMask (g * n) (min n (s.cw.nply - g * n))⟩

theorem domains_gang {s : State} {w : Option (BitVec 4)} (hw : (w.getD 0).toNat = 0) :
    domains s w = [⟨0, 8 * s.cw.nply, s.cur.lanes ||| s.cur.helpers⟩] := by
  simp only [domains, widthOf_eq, if_pos hw]

theorem groupOf_gang {s : State} {w : Option (BitVec 4)} (hw : (w.getD 0).toNat = 0) (l : Nat) :
    Claim.groupOf s w l = (0, 8 * s.cw.nply, fun j => hasLane (s.cur.lanes ||| s.cur.helpers) j) := by
  simp only [Claim.groupOf, if_pos hw]

/-- The domains of a width are the ply groups that hold an active lane. -/
theorem mem_domains_plies {s : State} {w : Option (BitVec 4)} (hw : (w.getD 0).toNat ≠ 0) (dom : Domain) :
    dom ∈ domains s w ↔ ∃ g, (g < 8 ∧ g * min (w.getD 0).toNat s.cw.nply < s.cw.nply)
      ∧ (plyGroup s (min (w.getD 0).toNat s.cw.nply) g).lanes &&& s.cur.lanes ≠ 0
      ∧ plyGroup s (min (w.getD 0).toNat s.cw.nply) g = dom := by
  simp only [domains, widthOf_eq, if_neg hw, List.mem_filterMap, List.mem_filter, List.mem_range, decide_eq_true_eq, plyGroup,
    Option.ite_none_left_eq_some, Option.some.injEq, ne_eq]

theorem hasLane_plyGroup {s : State} (h : ProperIssue s) (n g l : Nat) :
    hasLane (plyGroup s n g).lanes l
      = decide (8 * (g * n) ≤ l ∧ l < 8 * (g * n) + 8 * min n (s.cw.nply - g * n)) := by
  obtain ⟨-, -, -, hplies, -⟩ := h
  rw [plyGroup, hasLane_plyRangeMask, ← Bool.decide_and, decide_eq_decide]
  omega

/-- A lane of a declared ply lies in the ply group of its number, and in no other. -/
theorem hasLane_plyGroup_iff {s : State} (h : ProperIssue s) {n : Nat} (hn : 0 < n) (g l : Nat) :
    hasLane (plyGroup s n g).lanes l = true ↔ l < 8 * s.cw.nply ∧ g = l / 8 / n := by
  rw [hasLane_plyGroup h, decide_eq_true_eq, eq_comm, Nat.div_eq_iff hn]
  have hmul : (g + 1) * n = g * n + n := Nat.succ_mul g n
  omega

theorem domain_isGroup {s : State} (h : ProperIssue s) {w : Option (BitVec 4)} {dom : Domain} (hdom : dom ∈ domains s w) {l : Nat}
    (hl : hasLane dom.lanes l = true) : dom.IsGroup s w l := by
  by_cases hw : (w.getD 0).toNat = 0
  · rw [domains_gang hw, List.mem_singleton] at hdom
    subst hdom
    constructor <;> simp only [groupOf_gang hw, implies_true]
  · obtain ⟨g, -, -, rfl⟩ := (mem_domains_plies hw dom).mp hdom
    have hn : 0 < min (w.getD 0).toNat s.cw.nply := by obtain ⟨-, -, hpos, -⟩ := h; omega
    obtain ⟨-, rfl⟩ := (hasLane_plyGroup_iff h hn g l).mp hl
    constructor
    · simp only [plyGroup, Claim.groupOf, if_neg hw, Nat.mul_assoc]
    · simp only [plyGroup, Claim.groupOf, if_neg hw]
    · intro j
      simp only [hasLane_plyGroup h, Claim.groupOf, if_neg hw]

/-- Every lane that the issue writes lies in a domain. -/
theorem exists_domain {s : State} (h : ProperIssue s) (w : Option (BitVec 4)) {l : Nat} (hl : hasLane s.written l = true) :
    ∃ dom ∈ domains s w, hasLane dom.lanes l = true := by
  by_cases hw : (w.getD 0).toNat = 0
  · refine ⟨_, by rw [domains_gang hw]; exact List.mem_singleton_self _, ?_⟩
    rw [State.written, hasLane_or, Bool.or_eq_true] at hl
    rw [hasLane_or, Bool.or_eq_true]
    exact hl.imp_left (active_of_guard h)
  · obtain ⟨k, hquad, hk⟩ := active_in_quad h hl
    have hlt : k < 8 * s.cw.nply := by obtain ⟨-, -, -, -, hlanes⟩ := h; exact hlanes k hk
    have hn : 0 < min (w.getD 0).toNat s.cw.nply := by omega
    have hply : k / 8 = l / 8 := by omega
    have h64 := hasLane_lt hl
    refine ⟨_, (mem_domains_plies hw _).mpr ⟨l / 8 / min (w.getD 0).toNat s.cw.nply, ⟨?_, ?_⟩, fun hzero => ?_, rfl⟩,
      (hasLane_plyGroup_iff h hn _ l).mpr ⟨by omega, rfl⟩⟩
    · exact (Nat.div_le_self _ _).trans_lt (by omega)
    · exact (Nat.div_mul_le_self _ _).trans_lt (by omega)
    · have hboth := (eq_zero_iff_no_lane _).mp hzero k
      rw [hasLane_and, hk, Bool.and_true] at hboth
      exact hboth ((hasLane_plyGroup_iff h hn _ k).mpr ⟨hlt, by rw [hply]⟩)

theorem domainOf_isGroup {s : State} (h : ProperIssue s) (w : Option (BitVec 4)) {l : Nat} (hl : hasLane s.written l = true) :
    (domainOf (domains s w) l).IsGroup s w l := by
  obtain ⟨dom, hdom, hlane⟩ := exists_domain h w hl
  obtain ⟨found, hfound⟩ := Option.isSome_iff_exists.mp
    (List.find?_isSome (p := fun d => hasLane d.lanes l).mpr ⟨dom, hdom, hlane⟩)
  have hin := List.find?_some hfound
  rw [domainOf, hfound]
  exact domain_isGroup h (List.mem_of_find?_eq_some hfound) hin

/-- A lane of a group stands at or above the group's first lane, and below its end. -/
theorem groupOf_bounds {s : State} (h : ProperIssue s) (w : Option (BitVec 4)) {l : Nat} (hl : hasLane s.written l = true) :
    (Claim.groupOf s w l).1 ≤ l ∧ l < (Claim.groupOf s w l).1 + (Claim.groupOf s w l).2.1 := by
  obtain ⟨k, hquad, hk⟩ := active_in_quad h hl
  have hlt : l < 8 * s.cw.nply := by obtain ⟨-, -, -, -, hlanes⟩ := h; have := hlanes k hk; omega
  by_cases hw : (w.getD 0).toNat = 0
  · rw [groupOf_gang hw]
    exact ⟨Nat.zero_le l, by simpa only [Nat.zero_add] using hlt⟩
  · have hn : 0 < min (w.getD 0).toNat s.cw.nply := by omega
    have hgroup := (hasLane_plyGroup_iff h hn _ l).mpr ⟨hlt, rfl⟩
    rw [hasLane_plyGroup h, decide_eq_true_eq] at hgroup
    simpa only [Claim.groupOf, if_neg hw] using hgroup

end Sys2Proof.Machine
end

section
/-! QXCH and the shuffles (R106, R107): a copy from the source lane that the group gives. -/

namespace Sys2Proof.Machine

open Sys2Proof.Claim

/-- One result a lane, as the statements say it. -/
theorem State.mapLanes_writesLanes {s : State} {f : Nat → Nat × NumFlags} {g : Nat → W32 × NumFlags} (d : Nat)
    (hfg : ∀ l, hasLane s.written l = true → (BitVec.ofNat 32 (f l).1, (f l).2) = g l) : WritesLanes s (s.mapLanes d f) d g := by
  refine ⟨s.mapLanes_onlyVector d f, fun l hl => ?_, fun k => (s.mapLanes_nstat d f k).trans (or_congr_right ?_)⟩
  · rw [State.mapLanes_vreg _ _ _ _ _ (hasLane_lt hl), if_pos ⟨rfl, hl⟩, ← hfg l hl]
  · exact exists_congr fun l => and_congr_right fun hl => by rw [← hfg l hl]

/-- A copy whose source lane follows from the group's first lane, its count and the lane's number. -/
theorem laneCopy_writesLanes {s : State} (h : ProperIssue s) (d a : BitVec 8) (w : Option (BitVec 4))
    {src : Domain → Nat → Option Nat} {lane : Nat → Nat → Nat → Option Nat}
    (hsrc : ∀ dom l, dom.first ≤ l → l < dom.first + dom.count → src dom l = lane dom.first dom.count l) :
    ∃ t, laneCopy s d a w src = .next t ∧ WritesLanes s t d.toNat (fun l =>
      let g := Claim.groupOf s w l
      (s.vreg a.toNat (readLane g.2.2 (lane g.1 g.2.1 l) l), 0)) := by
  refine ⟨_, rfl, State.mapLanes_writesLanes _ fun l hl => ?_⟩
  have hgroup := domainOf_isGroup h w hl
  generalize domainOf (domains s w) l = dom at hgroup
  obtain ⟨hlo, hhi⟩ := groupOf_bounds h w hl
  rw [← hgroup.first] at hlo hhi
  rw [← hgroup.count] at hhi
  have hlane := hsrc dom l hlo hhi
  rw [hgroup.first, hgroup.count] at hlane
  simp only [hlane, hgroup.lanes, BitVec.ofNat_toNat, BitVec.setWidth_eq]
  cases lane (Claim.groupOf s w l).1 (Claim.groupOf s w l).2.1 l <;> rfl

/-- The quad's other lane of QXCH (R107), by parity or by half. -/
theorem quadNeighbour (l : Nat) :
    l / 2 * 2 + (1 - l % 2) = (if l % 2 = 0 then l + 1 else l - 1)
      ∧ l / 4 * 4 + (l % 4 + 2) % 4 = if l % 4 < 2 then l + 2 else l - 2 := by
  constructor <;> split <;> omega

/-- Every exchange and shuffle is one lane copy, from the source lane of R107 counted in the reading lane's domain. -/
theorem exec_eq_laneCopy {i : Instr} {d a : BitVec 8} {w : Option (BitVec 4)} {lane : State → Nat → Nat → Nat → Option Nat}
    (hi : sourceLane i = some (d, a, w, lane)) (s : State) :
    ∃ src, exec i s = laneCopy s d a w src
      ∧ ∀ dom l, dom.first ≤ l → l < dom.first + dom.count → src dom l = lane s dom.first dom.count l := by
  simp only [sourceLane] at hi
  split at hi
  case h_8 => cases hi
  all_goals
    simp only [Option.some.injEq, Prod.mk.injEq] at hi
    obtain ⟨rfl, rfl, rfl, rfl⟩ := hi
  case h_1 d a b w =>
    refine ⟨_, show execVqxch d a b w s = _ from rfl, fun dom l _ _ => ?_⟩
    generalize b.toNat = n
    obtain _ | _ | _ | n := n
    · exact congrArg some (quadNeighbour l).1
    · exact congrArg some (quadNeighbour l).2
    · rfl
    · rfl
  case h_2 d a b w => exact ⟨_, show execVshfl d a b w s = _ from rfl, fun _ _ _ _ => rfl⟩
  case h_3 d a b w => exact ⟨_, show execVshflVi d a b w s = _ from rfl, fun _ _ _ _ => rfl⟩
  case h_4 d a b w => exact ⟨_, show execVshflVs d a b w s = _ from rfl, fun _ _ _ _ => rfl⟩
  case h_5 d a b w =>
    refine ⟨_, show execVshflup d a b w s = _ from rfl, fun _ _ _ _ => ?_⟩
    simp only [← Nat.not_le, ite_not]
  case h_6 d a b w =>
    refine ⟨_, show execVshfldn d a b w s = _ from rfl, fun dom l hlo _ => ?_⟩
    rw [groupLane, show dom.first + (l - dom.first + b.toNat) = l + b.toNat by omega]
    exact if_congr (by omega) rfl rfl
  case h_7 d a b w => exact ⟨_, show execVshflx d a b w s = _ from rfl, fun _ _ _ _ => rfl⟩

/-- Settles O7, by the source lanes of `exec_eq_laneCopy`. -/
theorem crossLaneCopies : Obligations.CrossLaneCopies := by
  unfold Obligations.CrossLaneCopies
  intro i d a w lane s hwf hi hproper
  obtain ⟨src, hexec, hsrc⟩ := exec_eq_laneCopy hi s
  rw [hexec]
  exact laneCopy_writesLanes hproper d a w hsrc

end Sys2Proof.Machine
end

section
/-! Runs of writes, one domain after another: what the registers hold after them. -/

namespace Sys2Proof.Machine

open Sys2Proof.Claim

/-! ### Lists -/

/-- What a fold leaves in a place that some of its steps write, all of them with the same value. -/
theorem foldl_read {σ α β : Type} (read : σ → β) {f : σ → α → σ} {as : List α} {hit : α → Prop} [DecidablePred hit]
    {v : β} (h : ∀ a ∈ as, ∀ x, read (f x a) = if hit a then v else read x) (x : σ) :
    read (as.foldl f x) = if ∃ a ∈ as, hit a then v else read x := by
  induction as generalizing x with
  | nil => simp
  | cons a as ih =>
    rw [List.foldl_cons, ih (fun b hb => h b (List.mem_cons_of_mem a hb)), h a List.mem_cons_self]
    by_cases ha : hit a <;> simp [ha]

/-- The lanes of a mask, as the statements list them. -/
theorem bitPositions_eq_filter (n k w : Nat) :
    bitPositions n k w = (List.range' k n).filter (fun l => w.testBit (l - k)) := by
  induction n generalizing k w with
  | zero => rfl
  | succ n ih =>
    have htail : (List.range' (k + 1) n).filter (fun l => w.testBit (l - k))
        = (List.range' (k + 1) n).filter (fun l => (w / 2).testBit (l - (k + 1))) := by
      refine List.filter_congr fun l hl => ?_
      have hle := (List.mem_range'_1.mp hl).1
      rw [← Nat.testBit_succ, show (l - (k + 1)).succ = l - k by omega]
    rw [bitPositions, ih, List.range'_succ, List.filter_cons, htail, Nat.sub_self, Nat.testBit_zero]
    simp only [beq_iff_eq, decide_eq_true_eq]

theorem lanesOf_eq_filter (m : Lanes) : lanesOf m = (List.range 64).filter (hasLane m) := by
  rw [lanesOf, bitPositions_eq_filter, List.range_eq_range']
  exact List.filter_congr fun l _ => BitVec.testBit_toNat m

/-! ### Register files -/

/-- A lane of a register that a run of writes does not name is kept. -/
theorem WarpArch.getV_setVs_other {ws : List (Nat × Nat × W32)} {k j : Nat} (hj : j < 64) (hlane : ∀ e ∈ ws, e.2.1 < 64)
    (hother : ∀ v, (k, j, v) ∉ ws) (a : WarpArch) (free : Nat) : (a.setVs ws).getV free k j = a.getV free k j := by
  induction ws generalizing a with
  | nil => rfl
  | cons e ws ih =>
    obtain ⟨r, l, x⟩ := e
    rw [setVs, ih (fun e he => hlane e (List.mem_cons_of_mem _ he)) (fun v hv => hother v (List.mem_cons_of_mem _ hv)),
      getV_setV_lane _ _ _ _ _ _ _ (hlane _ List.mem_cons_self) hj, if_neg]
    rintro ⟨rfl, rfl⟩
    exact hother x List.mem_cons_self

/-- A lane of a register to which a run of writes gives one value reads it. -/
theorem WarpArch.getV_setVs_of_mem {ws : List (Nat × Nat × W32)} {k j : Nat} {v : W32} (hj : j < 64) (hlane : ∀ e ∈ ws, e.2.1 < 64)
    (hmem : (k, j, v) ∈ ws) (hval : ∀ x, (k, j, x) ∈ ws → x = v) (a : WarpArch) (free : Nat) :
    (a.setVs ws).getV free k j = v := by
  induction ws generalizing a with
  | nil => cases hmem
  | cons e ws ih =>
    obtain ⟨r, l, x⟩ := e
    have hlanes : ∀ e ∈ ws, e.2.1 < 64 := fun e he => hlane e (List.mem_cons_of_mem _ he)
    rw [setVs]
    by_cases hin : (k, j, v) ∈ ws
    · exact ih hlanes hin (fun y hy => hval y (List.mem_cons_of_mem _ hy)) _
    · have hother : ∀ y, (k, j, y) ∉ ws := fun y hy => hin (hval y (List.mem_cons_of_mem _ hy) ▸ hy)
      obtain ⟨rfl, rfl, rfl⟩ : k = r ∧ j = l ∧ v = x := by simpa using (List.mem_cons.mp hmem).resolve_right hin
      rw [getV_setVs_other hj hlanes hother, getV_setV_lane _ _ _ _ _ _ _ hj hj, if_pos ⟨rfl, rfl⟩]

/-- Runs of writes one after another are one run. -/
theorem WarpArch.foldl_setVs {α : Type} (writes : α → List (Nat × Nat × W32)) (as : List α) (a : WarpArch) :
    as.foldl (fun x e => x.setVs (writes e)) a = a.setVs (as.flatMap writes) := by
  induction as generalizing a with
  | nil => rfl
  | cons e as ih => rw [List.foldl_cons, ih, List.flatMap_cons, setVs_append]

/-! ### The issuing warp, changed in steps -/

theorem onlyArch_refl (s : State) : OnlyArch s s := ⟨rfl, fun _ _ => rfl, rfl⟩

theorem cur_of_onlyArch {s t : State} (h : OnlyArch s t) : t.cur = s.cur := by
  obtain ⟨heq, -, -⟩ := h
  rw [heq]

theorem onlyArch_trans {s t u : State} (hst : OnlyArch s t) (htu : OnlyArch t u) : OnlyArch s u := by
  have hcur := cur_of_onlyArch hst
  obtain ⟨hs, hswarp, hscw⟩ := hst
  obtain ⟨ht, htwarp, htcw⟩ := htu
  rw [hcur] at htwarp
  refine ⟨by rw [ht, hs], fun v hv => (htwarp v hv).trans (hswarp v hv), by rw [htcw, hscw]⟩

/-- Steps that change the issuing warp's registers change nothing else. -/
theorem foldl_setArch {α : Type} (f : WarpArch → α → WarpArch) (as : List α) (s : State) :
    OnlyArch s (as.foldl (fun t e => t.setArch (f t.arch e)) s)
      ∧ (as.foldl (fun t e => t.setArch (f t.arch e)) s).arch = as.foldl f s.arch := by
  induction as generalizing s with
  | nil => exact ⟨onlyArch_refl s, rfl⟩
  | cons e as ih =>
    obtain ⟨honly, harch⟩ := ih (s.setArch (f s.arch e))
    exact ⟨onlyArch_trans (onlyArch_setArch s _) honly, by rw [List.foldl_cons, harch, State.setArch_arch]; rfl⟩

/-- What is read of a vector register of a state in which the issuing warp's registers alone differ. -/
theorem vreg_of_onlyArch {s t : State} (h : OnlyArch s t) (r l : Nat) : t.vreg r l = t.arch.getV s.free r l := by
  obtain ⟨heq, -, -⟩ := h
  rw [State.vreg, show t.free = s.free by rw [heq]]

end Sys2Proof.Machine
end

section
/-! VOTE and BALLOT (R108 to R110): each domain answers for its own participants. -/

namespace Sys2Proof.Machine

open Sys2Proof.Claim

/-! ### Participants (R108) -/

theorem hasLane_participants (s : State) (dom : Domain) (l : Nat) :
    hasLane (participants s dom) l = (hasLane dom.lanes l && hasLane s.cur.guard l) := hasLane_and ..

/-- The participants of a lane's domain are those of its group. -/
theorem Domain.IsGroup.participants_eq {s : State} {w : Option (BitVec 4)} {dom : Domain} {l : Nat} (h : dom.IsGroup s w l)
    (j : Nat) : hasLane (participants s dom) j = participant s w l j := by
  rw [hasLane_participants, h.lanes, participant]

theorem Domain.IsGroup.lanesOf_participants {s : State} {w : Option (BitVec 4)} {dom : Domain} {l : Nat} (h : dom.IsGroup s w l) :
    lanesOf (participants s dom) = participantList s w l := by
  rw [lanesOf_eq_filter, participantList]
  exact List.filter_congr fun j _ => h.participants_eq j

/-- A participant's domain is its group. -/
theorem isGroup_of_participant {s : State} (h : ProperIssue s) {w : Option (BitVec 4)} {dom : Domain} (hdom : dom ∈ domains s w)
    {l : Nat} (hl : hasLane (participants s dom) l = true) : dom.IsGroup s w l := by
  rw [hasLane_participants, Bool.and_eq_true] at hl
  exact domain_isGroup h hdom hl.1

/-- A lane takes part in a domain of the issue exactly where the guard passes. -/
theorem exists_participant_iff {s : State} (h : ProperIssue s) (w : Option (BitVec 4)) (l : Nat) :
    (∃ dom ∈ domains s w, hasLane (participants s dom) l = true) ↔ hasLane s.cur.guard l = true := by
  constructor
  · rintro ⟨dom, -, hl⟩
    rw [hasLane_participants, Bool.and_eq_true] at hl
    exact hl.2
  · intro hl
    obtain ⟨dom, hdom, hlane⟩ := exists_domain h w (hasLane_written_of_guard hl)
    exact ⟨dom, hdom, by rw [hasLane_participants, hlane, hl]; rfl⟩

/-! ### The source predicate -/

theorem hasLane_voteSource (s : State) (p : BitVec 4) (inv : Bool) (m : Lanes) (j : Nat) :
    hasLane (voteSource s p inv m) j = (hasLane m j && ballotBit s p inv j) := by
  rw [voteSource, hasLane_and]
  by_cases hm : hasLane m j = true
  · have hj := hasLane_lt hm
    cases inv <;> simp [ballotBit, hasLane, hj]
  · simp only [hm, Bool.false_and]

theorem voteSource_all (s : State) (p : BitVec 4) (inv : Bool) (m : Lanes) :
    (voteSource s p inv m == m) = ((lanesOf m).map (ballotBit s p inv)).all id := by
  rw [Bool.eq_iff_iff, beq_iff_eq, List.all_map, List.all_eq_true]
  simp only [mem_lanesOf, Function.comp_apply, id_eq]
  constructor
  · intro h j hj
    rw [← h, hasLane_voteSource, Bool.and_eq_true] at hj
    exact hj.2
  · intro h
    refine lanes_ext fun j => ?_
    rw [hasLane_voteSource]
    by_cases hj : hasLane m j = true
    · rw [h j hj, Bool.and_true]
    · simp only [hj, Bool.false_and]

theorem voteSource_none (s : State) (p : BitVec 4) (inv : Bool) (m : Lanes) :
    (voteSource s p inv m == 0) = ((lanesOf m).map (ballotBit s p inv)).all (!·) := by
  rw [Bool.eq_iff_iff, beq_iff_eq, List.all_map, List.all_eq_true, eq_zero_iff_no_lane]
  simp only [hasLane_voteSource, mem_lanesOf, Function.comp_apply, Bool.and_eq_true, not_and, Bool.not_eq_true, Bool.not_eq_true']

theorem voteSource_any (s : State) (p : BitVec 4) (inv : Bool) (m : Lanes) :
    (voteSource s p inv m != 0) = ((lanesOf m).map (ballotBit s p inv)).any id := by
  rw [bne, voteSource_none, List.not_all_eq_any_not]
  simp only [Bool.not_not]
  rfl

/-! ### VOTE (R109) -/

/-- The vote of participants `m`, of which `yes` have the source set. -/
def voteHolds (cond : BitVec 4) (m yes : Lanes) : Bool :=
  match cond.toNat with
  | 0 => yes != 0
  | 1 => yes == m
  | 2 => yes == 0 || yes == m
  | _ => yes == 0

theorem voteHolds_eq (s : State) (cond p : BitVec 4) (inv : Bool) (m : Lanes) :
    voteHolds cond m (voteSource s p inv m) = voteValue cond ((lanesOf m).map (ballotBit s p inv)) := by
  unfold voteHolds voteValue
  obtain _ | _ | _ | n := cond.toNat
  · exact voteSource_any s p inv m
  · exact voteSource_all s p inv m
  · exact (Bool.or_comm ..).trans (congrArg₂ _ (voteSource_all s p inv m) (voteSource_none s p inv m))
  · exact voteSource_none s p inv m

/-- The predicate as one domain leaves it. -/
def voteStep (s : State) (cond pd p : BitVec 4) (inv : Bool) (a : WarpArch) (dom : Domain) : WarpArch :=
  let m := participants s dom
  a.setP pd.toNat m (if voteHolds cond m (voteSource s p inv m) then m else 0)

theorem exec_vvote (cond pd p : BitVec 4) (inv : Bool) (w : Option (BitVec 4)) (s : State) :
    exec (.vvote cond pd p inv w) s
      = .next ((domains s w).foldl (fun t dom => t.setArch (voteStep s cond pd p inv t.arch dom)) s) := by
  show execVvote cond pd p inv w s = _
  rfl

theorem votes_frame (s : State) (cond pd p : BitVec 4) (inv : Bool) (ds : List Domain) (a : WarpArch) :
    ds.foldl (voteStep s cond pd p inv) a = { a with preds := (ds.foldl (voteStep s cond pd p inv) a).preds } := by
  induction ds generalizing a with
  | nil => rfl
  | cons dom ds ih => rw [List.foldl_cons, ih, voteStep, WarpArch.setP_frame]

theorem hasLane_voteStep {s : State} {cond pd p : BitVec 4} {inv : Bool} {w : Option (BitVec 4)} {l : Nat} {dom : Domain}
    (hdom : hasLane (participants s dom) l = true → dom.IsGroup s w l) (a : WarpArch) (k : Nat) :
    hasLane ((voteStep s cond pd p inv a dom).getP k) l
      = if k = pd.toNat ∧ pd.toNat ≠ 0 ∧ hasLane (participants s dom) l = true then
          voteValue cond ((participantList s w l).map (ballotBit s p inv))
        else hasLane (a.getP k) l := by
  rw [voteStep, WarpArch.hasLane_getP_setP, voteHolds_eq]
  refine ite_congr rfl (fun ⟨_, _, hl⟩ => ?_) fun _ => rfl
  rw [(hdom hl).lanesOf_participants]
  cases voteValue cond ((participantList s w l).map (ballotBit s p inv))
  · exact BitVec.getLsbD_zero
  · exact hl

/-- A predicate after the votes of every domain. -/
theorem hasLane_votes {s : State} (h : ProperIssue s) (cond pd p : BitVec 4) (inv : Bool) (w : Option (BitVec 4)) (k l : Nat) :
    hasLane (((domains s w).foldl (voteStep s cond pd p inv) s.arch).getP k) l
      = if k = pd.toNat ∧ pd ≠ 0 ∧ hasLane s.cur.guard l = true then
          voteValue cond ((participantList s w l).map (ballotBit s p inv))
        else hasLane (s.pred k) l := by
  rw [foldl_read (fun a : WarpArch => hasLane (a.getP k) l)
    fun dom hdom a => hasLane_voteStep (isGroup_of_participant h hdom) a k]
  refine if_congr ?_ rfl rfl
  rw [← exists_participant_iff h w l, ne_eq, ne_eq, ← BitVec.toNat_inj (y := 0)]
  exact ⟨fun ⟨dom, hdom, hk, hpd, hl⟩ => ⟨hk, hpd, dom, hdom, hl⟩,
    fun ⟨hk, hpd, dom, hdom, hl⟩ => ⟨dom, hdom, hk, hpd, hl⟩⟩

theorem vote_claim {s : State} (h : ProperIssue s) (cond pd p : BitVec 4) (inv : Bool) (w : Option (BitVec 4)) :
    ∃ t, exec (.vvote cond pd p inv w) s = .next t ∧ OnlyArch s t ∧ t.arch = { s.arch with preds := t.arch.preds }
      ∧ (∀ k, k ≠ pd.toNat → t.pred k = s.pred k)
      ∧ ∀ l, hasLane (t.pred pd.toNat) l
          = (if hasLane s.cur.guard l = true ∧ pd ≠ 0 then
              voteValue cond ((participantList s w l).map (ballotBit s p inv))
            else hasLane (s.pred pd.toNat) l) := by
  obtain ⟨honly, harch⟩ := foldl_setArch (voteStep s cond pd p inv) (domains s w) s
  refine ⟨_, exec_vvote .., honly, ?_, fun k hk => lanes_ext fun l => ?_, fun l => ?_⟩
  · rw [harch, ← votes_frame]
  · rw [State.pred, harch, hasLane_votes h, if_neg fun hhit => hk hhit.1]
  · rw [State.pred, harch, hasLane_votes h]
    exact if_congr ((and_iff_right rfl).trans and_comm) rfl rfl

/-! ### BALLOT (R110) -/

/-- The writes that one domain's ballot makes: its mask, in the pair of each participant. -/
def ballotWrites (s : State) (d : BitVec 8) (p : BitVec 4) (inv : Bool) (dom : Domain) : List (Nat × Nat × W32) :=
  let m := participants s dom
  let yes := (voteSource s p inv m).toNat
  (lanesOf m).flatMap (fun l => [(d.toNat, l, BitVec.ofNat 32 yes), (d.toNat + 1, l, BitVec.ofNat 32 (yes / 2 ^ 32))])

theorem exec_vballot (d : BitVec 8) (w p : BitVec 4) (inv : Bool) (s : State) :
    exec (.vballot d w p inv) s
      = .next ((domains s (some w)).foldl (fun t dom => t.setArch (t.arch.setVs (ballotWrites s d p inv dom))) s) := by
  show execVballot d w p inv s = _
  rfl

/-- The mask that a lane receives: the participants of its group with the source set. -/
def ballotMask (s : State) (w p : BitVec 4) (inv : Bool) (l : Nat) : Lanes :=
  maskOf ((participantList s (some w) l).filter (ballotBit s p inv))

theorem hasLane_ballotMask (s : State) (w p : BitVec 4) (inv : Bool) (l j : Nat) :
    hasLane (ballotMask s w p inv l) j = (participant s (some w) l j && ballotBit s p inv j) := by
  rw [ballotMask, hasLane_maskOf, Bool.eq_iff_iff]
  simp only [Bool.and_eq_true, decide_eq_true_eq, List.mem_filter, participantList, List.mem_range]
  refine ⟨fun ⟨_, ⟨_, hj⟩, hbit⟩ => ⟨hj, hbit⟩, fun ⟨hj, hbit⟩ => ?_⟩
  have h64 : j < 64 := hasLane_lt (Bool.and_eq_true _ _ ▸ hj).2
  exact ⟨h64, ⟨h64, hj⟩, hbit⟩

theorem Domain.IsGroup.ballot_eq {s : State} {w : BitVec 4} {dom : Domain} {l : Nat} (h : dom.IsGroup s (some w) l) (p : BitVec 4)
    (inv : Bool) : voteSource s p inv (participants s dom) = ballotMask s w p inv l :=
  lanes_ext fun j => by rw [hasLane_voteSource, h.participants_eq, hasLane_ballotMask]

/-- What the ballot leaves of a lane in register `r` of the pair at `d`: the mask's low half, then its high half (R59). -/
def ballotWord (s : State) (d : BitVec 8) (w p : BitVec 4) (inv : Bool) (r l : Nat) : W32 :=
  BitVec.ofNat 32 ((ballotMask s w p inv l).toNat / 2 ^ (32 * (r - d.toNat)))

theorem ballotWord_low (s : State) (d : BitVec 8) (w p : BitVec 4) (inv : Bool) (l : Nat) :
    ballotWord s d w p inv d.toNat l = BitVec.ofNat 32 (ballotMask s w p inv l).toNat := by
  rw [ballotWord, Nat.sub_self, Nat.mul_zero, Nat.pow_zero, Nat.div_one]

theorem ballotWord_high (s : State) (d : BitVec 8) (w p : BitVec 4) (inv : Bool) (l : Nat) :
    ballotWord s d w p inv (d.toNat + 1) l = BitVec.ofNat 32 ((ballotMask s w p inv l).toNat / 2 ^ 32) := by
  rw [ballotWord, Nat.add_sub_cancel_left]

theorem mem_ballotWrites_dom {s : State} {w : BitVec 4} {dom : Domain} (p : BitVec 4) (inv : Bool)
    (hdom : ∀ l, hasLane (participants s dom) l = true → dom.IsGroup s (some w) l) (d : BitVec 8) (r l : Nat) (v : W32) :
    (r, l, v) ∈ ballotWrites s d p inv dom
      ↔ hasLane (participants s dom) l = true ∧ (r = d.toNat ∨ r = d.toNat + 1) ∧ v = ballotWord s d w p inv r l := by
  simp only [ballotWrites, List.mem_flatMap, mem_lanesOf, List.mem_cons, Prod.mk.injEq, List.not_mem_nil, or_false]
  constructor
  · rintro ⟨k, hk, ⟨rfl, rfl, rfl⟩ | ⟨rfl, rfl, rfl⟩⟩
    · exact ⟨hk, .inl rfl, by rw [(hdom l hk).ballot_eq, ballotWord_low]⟩
    · exact ⟨hk, .inr rfl, by rw [(hdom l hk).ballot_eq, ballotWord_high]⟩
  · rintro ⟨hl, rfl | rfl, rfl⟩
    · exact ⟨l, hl, .inl ⟨rfl, rfl, by rw [(hdom l hl).ballot_eq, ballotWord_low]⟩⟩
    · exact ⟨l, hl, .inr ⟨rfl, rfl, by rw [(hdom l hl).ballot_eq, ballotWord_high]⟩⟩

theorem mem_ballotWrites {s : State} (h : ProperIssue s) (d : BitVec 8) (w p : BitVec 4) (inv : Bool) (r l : Nat) (v : W32) :
    (r, l, v) ∈ (domains s (some w)).flatMap (ballotWrites s d p inv)
      ↔ hasLane s.cur.guard l = true ∧ (r = d.toNat ∨ r = d.toNat + 1) ∧ v = ballotWord s d w p inv r l := by
  have hone := fun dom hdom => mem_ballotWrites_dom p inv (fun k => isGroup_of_participant h (w := some w) (dom := dom) hdom) d r l v
  rw [List.mem_flatMap, ← exists_participant_iff h (some w) l, ← exists_and_right]
  refine exists_congr fun dom => ?_
  rw [and_assoc]
  exact and_congr_right (hone dom)

theorem toNat_halves (m : Lanes) :
    (BitVec.ofNat 32 m.toNat).toNat + (BitVec.ofNat 32 (m.toNat / 2 ^ 32)).toNat * 2 ^ 32 = m.toNat := by
  have hm := m.isLt
  rw [BitVec.toNat_ofNat, BitVec.toNat_ofNat]
  omega

theorem ballot_claim {s : State} (h : ProperIssue s) (d : BitVec 8) (w p : BitVec 4) (inv : Bool) :
    ∃ t, exec (.vballot d w p inv) s = .next t ∧ OnlyArch s t ∧ t.arch = { s.arch with vregs := t.arch.vregs }
      ∧ (∀ r l, l < 64 → ¬ ((r = d.toNat ∨ r = d.toNat + 1) ∧ hasLane s.cur.guard l = true) → t.vreg r l = s.vreg r l)
      ∧ ∀ l k, hasLane s.cur.guard l = true → k < 64 →
          (t.vpair d.toNat l).testBit k = (participant s (some w) l k && ballotBit s p inv k) := by
  obtain ⟨honly, harch⟩ := foldl_setArch (fun a dom => a.setVs (ballotWrites s d p inv dom)) (domains s (some w)) s
  rw [WarpArch.foldl_setVs] at harch
  have hmem := mem_ballotWrites h d w p inv
  have hlanes : ∀ e ∈ (domains s (some w)).flatMap (ballotWrites s d p inv), e.2.1 < 64 :=
    fun (r, l, v) he => hasLane_lt ((hmem r l v).mp he).1
  refine ⟨_, exec_vballot .., honly, ?frame, fun r l hl hr => ?kept, fun l k hl _ => ?mask⟩
  case frame => rw [harch, ← WarpArch.setVs_frame]
  case kept =>
    refine (vreg_of_onlyArch honly r l).trans (harch ▸ WarpArch.getV_setVs_other hl hlanes (fun v he => hr ?_) s.arch s.free)
    obtain ⟨hguard, hreg, -⟩ := (hmem r l v).mp he
    exact ⟨hreg, hguard⟩
  case mask =>
    have hread : ∀ r, (r = d.toNat ∨ r = d.toNat + 1) → _ = ballotWord s d w p inv r l := fun r hr =>
      (vreg_of_onlyArch honly r l).trans (harch ▸ WarpArch.getV_setVs_of_mem (hasLane_lt hl) hlanes ((hmem r l _).mpr ⟨hl, hr, rfl⟩)
        (fun x hx => by obtain ⟨-, -, hx⟩ := (hmem r l x).mp hx; exact hx) s.arch s.free)
    rw [State.vpair, hread _ (.inl rfl), hread _ (.inr rfl), ballotWord_low, ballotWord_high, toNat_halves, BitVec.testBit_toNat,
      ← hasLane_ballotMask]
    rfl

/-- Settles O8: each domain's participants, and they alone, are given what their domain answers. -/
theorem votesAndBallots : Obligations.VotesAndBallots := by
  unfold Obligations.VotesAndBallots
  exact fun s h => ⟨fun cond pd p inv w _ => vote_claim h cond pd p inv w, fun d w p inv _ => ballot_claim h d w p inv⟩

end Sys2Proof.Machine
end

section
/-! WRED (R108, R111): the running values of a domain's participants are the accumulator of R111 over the lanes up to theirs. -/

namespace Sys2Proof.Machine

open Sys2Proof.Claim

/-! ### One step -/

/-- The bounds of R80 are those of the 32-bit types (R56). -/
theorem fitted_eq (m : BitVec 2) (x : Int) :
    fitted m x
      = if m.getLsbD 1 = true ∧ x < intLo (!m.getLsbD 0) 32 then (BitVec.ofInt 32 (intLo (!m.getLsbD 0) 32), true)
        else if m.getLsbD 1 = true ∧ intHi (!m.getLsbD 0) 32 < x then (BitVec.ofInt 32 (intHi (!m.getLsbD 0) 32), true)
        else (BitVec.ofInt 32 x, false) := by
  unfold fitted
  cases m.getLsbD 0 <;> rfl

/-- The model's fit is that of R80. -/
theorem fit_eq_fitted (m : BitVec 2) (x : Int) :
    (BitVec.ofNat 32 (fit m x).1, (fit m x).2) = ((fitted m x).1, if (fitted m x).2 then nfSat else 0) := by
  rw [fitted_eq]
  simp only [fit, fitInt, Bool.and_eq_true, decide_eq_true_eq]
  by_cases hbelow : m.getLsbD 1 = true ∧ x < intLo (!m.getLsbD 0) 32
  · simp only [if_pos hbelow, ofNat_wrap, if_true]
  · by_cases habove : m.getLsbD 1 = true ∧ intHi (!m.getLsbD 0) 32 < x
    · simp only [if_neg hbelow, if_pos habove, ofNat_wrap, if_true]
    · simp only [if_neg hbelow, if_neg habove, ofNat_wrap, Bool.false_eq_true, if_false]

/-- Equal values are the same word: a maximum may take either. -/
theorem max_signed_eq (x y : W32) : (if x.slt y then y else x) = if x.toInt ≤ y.toInt then y else x := by
  rw [BitVec.slt_eq_decide]
  simp only [decide_eq_true_eq, Int.lt_iff_le_and_ne, ne_eq, BitVec.toInt_inj]
  by_cases hxy : x = y <;> simp [hxy]

theorem max_unsigned_eq (x y : W32) : (if x.ult y then y else x) = if x.toNat ≤ y.toNat then y else x := by
  rw [BitVec.ult_eq_decide]
  simp only [decide_eq_true_eq, Nat.lt_iff_le_and_ne, ne_eq, BitVec.toNat_inj]
  by_cases hxy : x = y <;> simp [hxy]

theorem ofNat_toNat_pair (v : W32) (f : NumFlags) : (BitVec.ofNat 32 v.toNat, f) = (v, f) := by
  rw [BitVec.ofNat_toNat, BitVec.setWidth_eq]

/-- The model's step of a reduction is that of R111. -/
theorem wredStep_eq (op : BitVec 4) (x y : W32) :
    (BitVec.ofNat 32 (wredStep op.toNat x y).1, (wredStep op.toNat x y).2) = wredOf op x y := by
  unfold wredOf
  generalize op.toNat = n
  match n with
  | 0 | 7 | 8 | 9 => exact ofNat_toNat_pair _ 0
  | 1 => exact fit_eq_fitted 2 (x.toInt + y.toInt)
  | 2 => exact fit_eq_fitted 3 (x.toNat + y.toNat)
  | 3 =>
    refine (ofNat_toNat_pair _ 0).trans (congrArg (·, 0) ?_)
    simp only [BitVec.slt_iff_toInt_lt, ← Int.not_le, ite_not]
  | 4 => exact (ofNat_toNat_pair _ 0).trans (congrArg (·, 0) (max_signed_eq x y))
  | 5 =>
    refine (ofNat_toNat_pair _ 0).trans (congrArg (·, 0) ?_)
    simp only [BitVec.ult_iff_lt, BitVec.lt_def, ← Nat.not_le, ite_not]
  | 6 => exact (ofNat_toNat_pair _ 0).trans (congrArg (·, 0) (max_unsigned_eq x y))
  | 10 | 11 | _ + 12 => rfl

/-! ### The accumulator (R111) -/

/-- acc of R111 after more values, from a value and flags. -/
def accFrom (op : BitVec 4) (r : W32 × NumFlags) (vs : List W32) : W32 × NumFlags :=
  vs.foldl (fun r y => ((wredOf op r.1 y).1, r.2 ||| (wredOf op r.1 y).2)) r

theorem accOf_cons (op : BitVec 4) (v : W32) (vs : List W32) : accOf op (v :: vs) = accFrom op (v, 0) vs := rfl

theorem accFrom_cons (op : BitVec 4) (x v : W32) (f : NumFlags) (vs : List W32) :
    accFrom op (x, f) (v :: vs) = accFrom op ((wredOf op x v).1, f ||| (wredOf op x v).2) vs := rfl

/-! ### The running values -/

theorem wredRun_cons_none (op : Nat) (v : Nat → W32) (l : Nat) (ls : List Nat) :
    wredRun op v (l :: ls) none = ((l, v l) :: (wredRun op v ls (some (v l))).1, (wredRun op v ls (some (v l))).2) := by
  simp only [wredRun, BitVec.ofNat_toNat, BitVec.setWidth_eq, BitVec.ofNat_eq_ofNat, BitVec.zero_or]

theorem wredRun_cons_some (op : BitVec 4) (v : Nat → W32) (l : Nat) (ls : List Nat) (x : W32) :
    wredRun op.toNat v (l :: ls) (some x)
      = ((l, (wredOf op x (v l)).1) :: (wredRun op.toNat v ls (some (wredOf op x (v l)).1)).1,
          (wredOf op x (v l)).2 ||| (wredRun op.toNat v ls (some (wredOf op x (v l)).1)).2) := by
  rw [← wredStep_eq]; rfl

theorem filter_le_cons_self {l : Nat} {ls : List Nat} (h : (l :: ls).Pairwise (· < ·)) :
    (l :: ls).filter (fun j => decide (j ≤ l)) = [l] := by
  rw [List.filter_cons_of_pos (by simp), List.filter_eq_nil_iff.mpr]
  intro j hj
  simpa using List.rel_of_pairwise_cons h hj

theorem filter_le_cons_of_mem {l k : Nat} {ls : List Nat} (h : (l :: ls).Pairwise (· < ·)) (hk : k ∈ ls) :
    (l :: ls).filter (fun j => decide (j ≤ k)) = l :: ls.filter (fun j => decide (j ≤ k)) :=
  List.filter_cons_of_pos (by simpa using (List.rel_of_pairwise_cons h hk).le)

/-- After an accumulator, a lane's running value is the accumulator over the lanes up to it. -/
theorem wredRun_some_values (op : BitVec 4) (v : Nat → W32) {ls : List Nat} (h : ls.Pairwise (· < ·)) (x : W32) (f : NumFlags) :
    (wredRun op.toNat v ls (some x)).1
      = ls.map (fun k => (k, (accFrom op (x, f) ((ls.filter (fun j => decide (j ≤ k))).map v)).1)) := by
  induction ls generalizing x f with
  | nil => rfl
  | cons l ls ih =>
    rw [wredRun_cons_some, ih h.of_cons _ (f ||| (wredOf op x (v l)).2), List.map_cons, filter_le_cons_self h]
    refine congrArg _ (List.map_congr_left fun k hk => ?_)
    rw [filter_le_cons_of_mem h hk, List.map_cons, accFrom_cons]

theorem wredRun_some_last (op : BitVec 4) (v : Nat → W32) (ls : List Nat) (x : W32) (f : NumFlags) :
    (((wredRun op.toNat v ls (some x)).1.getLast?).map (·.2)).getD x = (accFrom op (x, f) (ls.map v)).1 := by
  induction ls generalizing x f with
  | nil => rfl
  | cons l ls ih =>
    rw [wredRun_cons_some, List.map_cons, accFrom_cons, ← ih, List.getLast?_cons]
    cases (wredRun op.toNat v ls (some (wredOf op x (v l)).1)).1.getLast? <;> rfl

theorem wredRun_some_flags (op : BitVec 4) (v : Nat → W32) (ls : List Nat) (x : W32) (f : NumFlags) :
    f ||| (wredRun op.toNat v ls (some x)).2 = (accFrom op (x, f) (ls.map v)).2 := by
  induction ls generalizing x f with
  | nil => exact BitVec.or_zero
  | cons l ls ih => rw [wredRun_cons_some, List.map_cons, accFrom_cons, ← ih, BitVec.or_assoc]

/-- The running values over lanes in rising order (R111). -/
theorem wredRun_values (op : BitVec 4) (v : Nat → W32) {ls : List Nat} (h : ls.Pairwise (· < ·)) :
    (wredRun op.toNat v ls none).1
      = ls.map (fun k => (k, (accOf op ((ls.filter (fun j => decide (j ≤ k))).map v)).1)) := by
  cases ls with
  | nil => rfl
  | cons l ls =>
    rw [wredRun_cons_none, wredRun_some_values op v h.of_cons _ 0, List.map_cons, filter_le_cons_self h]
    refine congrArg _ (List.map_congr_left fun k hk => ?_)
    rw [filter_le_cons_of_mem h hk, List.map_cons, accOf_cons]

/-- The last running value is the whole reduction. -/
theorem wredRun_last (op : BitVec 4) (v : Nat → W32) (ls : List Nat) :
    (((wredRun op.toNat v ls none).1.getLast?).map (·.2)).getD 0 = (accOf op (ls.map v)).1 := by
  cases ls with
  | nil => rfl
  | cons l ls =>
    rw [wredRun_cons_none, List.map_cons, accOf_cons, ← wredRun_some_last, List.getLast?_cons]
    cases (wredRun op.toNat v ls (some (v l))).1.getLast? <;> rfl

theorem wredRun_flags (op : BitVec 4) (v : Nat → W32) (ls : List Nat) :
    (wredRun op.toNat v ls none).2 = (accOf op (ls.map v)).2 := by
  cases ls with
  | nil => rfl
  | cons l ls => rw [wredRun_cons_none, List.map_cons, accOf_cons, ← wredRun_some_flags]; exact BitVec.zero_or.symm

/-! ### A domain's results -/

theorem lanesOf_pairwise (m : Lanes) : (lanesOf m).Pairwise (· < ·) := by
  rw [lanesOf_eq_filter]
  exact List.pairwise_lt_range.filter _

/-- The values that a lane's result combines: those of its domain's participants, with SCAN up to the lane's own. -/
def wredInputs (s : State) (a : BitVec 8) (scan : Bool) (ls : List Nat) (l : Nat) : List W32 :=
  (ls.filter (fun j => !scan || decide (j ≤ l))).map (fun j => s.vreg a.toNat j)

/-- The run of writes that one domain's reduction makes. -/
def wredWrites (s : State) (d a : BitVec 8) (op : BitVec 4) (scan : Bool) (dom : Domain) : List (Nat × Nat × W32) :=
  let r := wredRun op.toNat (fun l => s.vreg a.toNat l) (lanesOf (participants s dom)) none
  r.1.map (fun e => (d.toNat, e.1, if scan then e.2 else ((r.1.getLast?).map (·.2)).getD 0))

/-- The flags that one domain's reduction raises. -/
def wredFlags (s : State) (a : BitVec 8) (op : BitVec 4) (dom : Domain) : NumFlags :=
  (wredRun op.toNat (fun l => s.vreg a.toNat l) (lanesOf (participants s dom)) none).2

theorem exec_vwred (d a : BitVec 8) (w op : BitVec 4) (scan : Bool) (s : State) :
    exec (.vwred d a w op scan) s
      = .next ((domains s (some w)).foldl
          (fun t dom => t.setArch ((t.arch.setVs (wredWrites s d a op scan dom)).orNstat (wredFlags s a op dom))) s) := by
  show execVwred d a w op scan s = _
  rfl

theorem wredWrites_eq (s : State) (d a : BitVec 8) (op : BitVec 4) (scan : Bool) (dom : Domain) :
    wredWrites s d a op scan dom
      = (lanesOf (participants s dom)).map
          (fun l => (d.toNat, l, (accOf op (wredInputs s a scan (lanesOf (participants s dom)) l)).1)) := by
  rw [wredWrites, wredRun_last, wredRun_values _ _ (lanesOf_pairwise _), List.map_map]
  refine List.map_congr_left fun l _ => ?_
  cases scan
  · simp only [wredInputs, Function.comp_apply, Bool.not_false, Bool.true_or, List.filter_true, Bool.false_eq_true, if_false]
  · simp only [wredInputs, Function.comp_apply, Bool.not_true, Bool.false_or, if_true]

theorem mem_wredWrites {s : State} (h : ProperIssue s) (d a : BitVec 8) (w op : BitVec 4) (scan : Bool) (r l : Nat) (v : W32) :
    (r, l, v) ∈ (domains s (some w)).flatMap (wredWrites s d a op scan)
      ↔ hasLane s.cur.guard l = true ∧ r = d.toNat
        ∧ v = (accOf op (wredInputs s a scan (participantList s (some w) l) l)).1 := by
  simp only [List.mem_flatMap, wredWrites_eq, List.mem_map, mem_lanesOf, Prod.mk.injEq, ← exists_participant_iff h (some w) l]
  constructor
  · rintro ⟨dom, hdom, k, hk, rfl, rfl, rfl⟩
    exact ⟨⟨dom, hdom, hk⟩, rfl, by rw [(isGroup_of_participant h hdom hk).lanesOf_participants]⟩
  · rintro ⟨⟨dom, hdom, hl⟩, rfl, rfl⟩
    exact ⟨dom, hdom, l, hl, rfl, rfl, by rw [(isGroup_of_participant h hdom hl).lanesOf_participants]⟩

/-- A flag raised in a domain is raised in each participant's reduction. -/
theorem wredFlags_raised {s : State} (h : ProperIssue s) (a : BitVec 8) (w op : BitVec 4) (k : Nat) :
    (∃ dom ∈ domains s (some w), (wredFlags s a op dom).getLsbD k = true)
      ↔ ∃ l, hasLane s.cur.guard l = true
        ∧ (accOf op ((participantList s (some w) l).map (fun j => s.vreg a.toNat j))).2.getLsbD k = true := by
  simp only [wredFlags, wredRun_flags]
  constructor
  · rintro ⟨dom, hdom, hk⟩
    obtain ⟨l, hl⟩ : ∃ l, l ∈ lanesOf (participants s dom) := by
      refine List.exists_mem_of_ne_nil _ fun hnil => ?_
      rw [hnil] at hk
      exact Bool.false_ne_true (BitVec.getLsbD_zero.symm.trans hk)
    have hpart := (mem_lanesOf _ _).mp hl
    rw [(isGroup_of_participant h hdom hpart).lanesOf_participants] at hk
    exact ⟨l, (exists_participant_iff h _ l).mp ⟨dom, hdom, hpart⟩, hk⟩
  · rintro ⟨l, hl, hk⟩
    obtain ⟨dom, hdom, hpart⟩ := (exists_participant_iff h (some w) l).mpr hl
    exact ⟨dom, hdom, by rwa [(isGroup_of_participant h hdom hpart).lanesOf_participants]⟩

/-! ### The instruction -/

theorem WarpArch.setVs_orNstat (x : WarpArch) (f : NumFlags) (ws : List (Nat × Nat × W32)) :
    (x.orNstat f).setVs ws = (x.setVs ws).orNstat f := by
  induction ws generalizing x with
  | nil => rfl
  | cons e ws ih => exact ih (x.setV e.1 e.2.1 e.2.2)

/-- Runs of writes, each with its flags, one after another. -/
theorem WarpArch.foldl_setVs_orNstat {α : Type} (writes : α → List (Nat × Nat × W32)) (flags : α → NumFlags) (as : List α)
    (x : WarpArch) :
    as.foldl (fun x e => (x.setVs (writes e)).orNstat (flags e)) x
      = { x with vregs := (x.setVs (as.flatMap writes)).vregs,
                 nstat := as.foldl (fun n e => n ||| (flags e).setWidth 64) x.nstat } := by
  induction as generalizing x with
  | nil => rfl
  | cons e as ih =>
    rw [List.foldl_cons, ih, List.flatMap_cons, setVs_append, List.foldl_cons, setVs_orNstat]
    rw [setVs_frame x]
    rfl

/-- Settles O9: the domains' runs of writes and flags, which `wredRun_values` reads as the accumulator of R111. -/
theorem warpReductions : Obligations.WarpReductions := by
  unfold Obligations.WarpReductions
  intro d a w op scan s _ h
  obtain ⟨honly, harch⟩ := foldl_setArch
    (fun x dom => (x.setVs (wredWrites s d a op scan dom)).orNstat (wredFlags s a op dom)) (domains s (some w)) s
  rw [WarpArch.foldl_setVs_orNstat] at harch
  have hmem := mem_wredWrites h d a w op scan
  have hlanes : ∀ e ∈ (domains s (some w)).flatMap (wredWrites s d a op scan), e.2.1 < 64 :=
    fun (r, l, v) he => hasLane_lt ((hmem r l v).mp he).1
  have hvreg : ∀ r l, _ = (s.arch.setVs ((domains s (some w)).flatMap (wredWrites s d a op scan))).getV s.free r l := fun r l =>
    (vreg_of_onlyArch honly r l).trans (by rw [harch, WarpArch.setVs_frame]; rfl)
  refine ⟨_, exec_vwred .., honly, by rw [harch], fun r l hl hr => ?kept, fun l hl => ?value, fun k => ?nstat⟩
  case kept =>
    rw [hvreg, WarpArch.getV_setVs_other hl hlanes (fun v he => hr ?_)]
    · rfl
    · obtain ⟨hguard, hreg, -⟩ := (hmem r l v).mp he
      exact ⟨hreg, hguard⟩
  case value =>
    rw [hvreg, WarpArch.getV_setVs_of_mem (hasLane_lt hl) hlanes ((hmem d.toNat l _).mpr ⟨hl, rfl, rfl⟩) (fun x hx => ?_)]
    · rfl
    · obtain ⟨-, -, hx⟩ := (hmem d.toNat l x).mp hx
      exact hx
  case nstat =>
    rw [harch, ← wredFlags_raised h a w op k]
    refine (getLsbD_foldl_or ..).trans (or_congr_right ?_)
    refine exists_congr fun dom => and_congr_right fun _ => ?_
    rw [BitVec.getLsbD_setWidth, Bool.and_eq_true, decide_eq_true_eq]
    exact and_iff_right_of_imp fun hk => (BitVec.lt_of_getLsbD hk).trans (by decide)

end Sys2Proof.Machine
end

section
/-! Floating point (R98 to R101): the results of every operation fit the format's width, so that the elements of a lane do not meet. -/

namespace Sys2Proof.Machine

open Sys2Proof.Claim

/-! ### Encodings fit their format (R54) -/

theorem FloatFmt.two_pow_width (f : FloatFmt) : 2 ^ f.width = 2 * 2 ^ (f.e + f.m) := by
  rw [width, Nat.add_assoc, Nat.pow_add, Nat.pow_one]

theorem FloatFmt.withSign_lt (f : FloatFmt) (neg : Bool) {mag : Nat} (h : mag < 2 ^ (f.e + f.m)) :
    f.withSign neg mag < 2 ^ f.width := by
  rw [two_pow_width, withSign]
  cases neg <;> simp only [boolNat, Bool.false_eq_true, if_true, if_false] <;> omega

theorem FloatFmt.infinity_add (f : FloatFmt) : f.infinity + 2 ^ f.m = 2 ^ (f.e + f.m) := by
  rw [infinity, ← Nat.succ_mul, Nat.succ_eq_add_one, Nat.sub_add_cancel Nat.one_le_two_pow, Nat.pow_add]

theorem FloatFmt.infinity_lt (f : FloatFmt) : f.infinity < 2 ^ (f.e + f.m) := by
  have hsum := f.infinity_add
  have hpos := Nat.two_pow_pos f.m
  omega

theorem FloatFmt.largest_lt (f : FloatFmt) : f.largest < 2 ^ (f.e + f.m) := by
  have hinf := f.infinity_lt
  have hpos := Nat.two_pow_pos (f.e + f.m)
  unfold largest
  split
  · exact (Nat.sub_le _ _).trans_lt hinf
  · omega
  · omega

theorem FloatFmt.canonicalNan_lt (f : FloatFmt) : f.canonicalNan < 2 ^ f.width := by
  have hsum := f.infinity_add
  have hquiet : 2 ^ (f.m - 1) ≤ 2 ^ f.m := Nat.pow_le_pow_right two_pos (Nat.sub_le _ _)
  have hpos := Nat.two_pow_pos (f.e + f.m)
  rw [two_pow_width]
  unfold canonicalNan
  split
  · rw [← infinity]; omega
  · omega
  · omega

theorem FloatFmt.overflow_lt (f : FloatFmt) (rtz neg : Bool) : f.overflow rtz neg < 2 ^ f.width := by
  refine f.withSign_lt neg ?_
  split
  · exact f.infinity_lt
  · exact f.largest_lt

/-- A rounded magnitude fits its format: what passes the largest finite value overflows (R60). -/
theorem FloatFmt.roundMag_lt (f : FloatFmt) (rtz neg sticky : Bool) (mant : Nat) (exp : Int) :
    (f.roundMag rtz neg sticky mant exp).1 < 2 ^ f.width := by
  have hzero : f.withSign neg 0 < 2 ^ f.width := f.withSign_lt neg (Nat.two_pow_pos _)
  unfold roundMag
  extract_lets top qmin q n0 n q1 ex mag
  split
  · exact hzero
  split
  · exact hzero
  split
  · exact hzero
  split
  case isTrue hsub => exact f.withSign_lt neg (hsub.trans_le (Nat.pow_le_pow_right two_pos (Nat.le_add_left ..)))
  split
  · exact f.overflow_lt rtz neg
  case isFalse hmag => exact f.withSign_lt neg ((Nat.not_lt.mp hmag).trans_lt f.largest_lt)

theorem FloatFmt.round_lt (f : FloatFmt) (rtz : Bool) (v : FVal) : (f.round rtz v).1 < 2 ^ f.width := by
  cases v with
  | nan => exact f.canonicalNan_lt
  | inf n => exact f.withSign_lt n f.infinity_lt
  | fin n m e => exact f.roundMag_lt rtz n false m e

theorem roundFlagged_lt (f : FloatFmt) (rtz : Bool) (x : Flagged) : (roundFlagged f rtz x).1 < 2 ^ f.width := f.round_lt rtz x.1

/-! ### The operations of R100 and R101 fit their format -/

theorem fMinMax_lt {f : FloatFmt} {x y : Nat} (least : Bool) (hx : x < 2 ^ f.width) (hy : y < 2 ^ f.width) :
    fMinMax f least x y < 2 ^ f.width := by
  unfold fMinMax
  extract_lets a b
  split
  · exact f.canonicalNan_lt
  split
  · exact hy
  split
  · exact hx
  split
  · exact hx
  · exact hy

theorem fSignOp_lt (f : FloatFmt) (abs : Bool) (x : Nat) : fSignOp f abs x < 2 ^ f.width := by
  unfold fSignOp
  split
  · exact f.canonicalNan_lt
  · exact f.withSign_lt _ (Nat.mod_lt _ (Nat.two_pow_pos _))

theorem FloatFmt.infinity_lt_width (f : FloatFmt) : f.infinity < 2 ^ f.width := by
  have hinf := f.infinity_lt
  rw [f.two_pow_width]
  omega

theorem fRcp_lt (f : FloatFmt) (v : FVal) : (fRcp f v).1 < 2 ^ f.width := by
  unfold fRcp
  split
  · exact f.canonicalNan_lt
  · exact f.withSign_lt _ (Nat.two_pow_pos _)
  · split
    · exact f.withSign_lt _ f.infinity_lt
    · exact f.roundMag_lt ..

theorem fRsq_lt (f : FloatFmt) (v : FVal) : (fRsq f v).1 < 2 ^ f.width := by
  unfold fRsq
  split
  · exact f.canonicalNan_lt
  · split
    · exact f.canonicalNan_lt
    · exact Nat.two_pow_pos _
  · split
    · exact f.withSign_lt _ f.infinity_lt
    split
    · exact f.canonicalNan_lt
    · exact f.roundMag_lt ..

theorem fSqrt_lt (f : FloatFmt) (rtz : Bool) (v : FVal) : (fSqrt f rtz v).1 < 2 ^ f.width := by
  unfold fSqrt
  split
  · exact f.canonicalNan_lt
  · split
    · exact f.canonicalNan_lt
    · exact f.infinity_lt_width
  · split
    · exact f.withSign_lt _ (Nat.two_pow_pos _)
    split
    · exact f.canonicalNan_lt
    · exact f.roundMag_lt ..

theorem roundEncl_lt (op : Nat) (f : FloatFmt) (neg : Bool) (w : Nat) (x : Encl) (e : Int) :
    (roundEncl op f neg w x e).1 < 2 ^ f.width := by
  unfold roundEncl
  extract_lets a b
  split
  · exact f.roundMag_lt ..
  · exact Nat.mod_lt _ (Nat.two_pow_pos _)

theorem fExp2_lt (f : FloatFmt) (w : Nat) : (fExp2 f w).1 < 2 ^ f.width := by
  unfold fExp2
  split
  · exact f.canonicalNan_lt
  · split
    · exact Nat.two_pow_pos _
    · exact f.infinity_lt_width
  · split
    · exact f.roundMag_lt ..
    split
    · split
      · exact Nat.two_pow_pos _
      · exact f.infinity_lt_width
    split
    · exact f.roundMag_lt ..
    extract_lets k up r
    split
    · exact f.roundMag_lt ..
    split
    · exact roundEncl_lt ..
    · exact roundEncl_lt ..

theorem fLog2_lt (f : FloatFmt) (w : Nat) : (fLog2 f w).1 < 2 ^ f.width := by
  unfold fLog2
  split
  · exact f.canonicalNan_lt
  · split
    · exact f.canonicalNan_lt
    · exact f.infinity_lt_width
  · split
    · exact f.withSign_lt true f.infinity_lt
    split
    · exact f.canonicalNan_lt
    extract_lets t g one ln lo hi
    split
    · exact f.round_lt ..
    split
    · exact roundEncl_lt ..
    · exact roundEncl_lt ..

/-! ### FABS and FNEG (R100) -/

theorem withSign_false_mod (f : FloatFmt) (x : Nat) : f.withSign false (x % 2 ^ (f.e + f.m)) = x % 2 ^ (f.e + f.m) := by
  simp only [FloatFmt.withSign, boolNat, Bool.false_eq_true, if_false, Nat.zero_mul, Nat.add_zero]

theorem testBit_boolNat (b : Bool) (k : Nat) : (boolNat b).testBit k = (decide (k = 0) && b) := by
  cases b
  · simp [boolNat]
  · rw [Bool.and_true, Bool.eq_iff_iff, decide_eq_true_eq]
    exact Nat.testBit_one_eq_true_iff_self_eq_zero

/-- Inverting the sign bit. -/
theorem withSign_not_bit {f : FloatFmt} {x : Nat} (h : x < 2 ^ f.width) :
    f.withSign (!bitOf x (f.e + f.m)) (x % 2 ^ (f.e + f.m)) = Nat.xor x (2 ^ (f.e + f.m)) := by
  have hx : x < 2 ^ (f.e + f.m + 1) := by rwa [Nat.add_comm, ← Nat.add_assoc]
  have hbit : bitOf x (f.e + f.m) = x.testBit (f.e + f.m) := (Nat.testBit_eq_decide_div_mod_eq ..).symm
  rw [FloatFmt.withSign, hbit]
  generalize f.e + f.m = n at hx
  refine Nat.eq_of_testBit_eq fun k => ?_
  show _ = (x ^^^ 2 ^ n).testBit k
  rw [Nat.add_comm, Nat.mul_comm, Nat.testBit_two_pow_mul_add _ (Nat.mod_lt _ (Nat.two_pow_pos n)), Nat.testBit_xor,
    Nat.testBit_two_pow, Nat.testBit_mod_two_pow, testBit_boolNat]
  obtain hk | rfl | hk := Nat.lt_trichotomy k n
  · simp [hk, (Nat.ne_of_gt hk)]
  · simp
  · have hhigh : x.testBit k = false := Nat.testBit_lt_two_pow (hx.trans_le (Nat.pow_le_pow_right two_pos hk))
    simp [hhigh, Nat.not_lt.mpr hk.le, Nat.ne_of_lt hk, show k - n ≠ 0 by omega]

theorem fSignOp_abs (f : FloatFmt) (x : Nat) :
    fSignOp f true x = if (f.decode x).isNan then f.canonicalNan else x % 2 ^ (f.e + f.m) := by
  simp only [fSignOp, Bool.not_true, Bool.false_and, withSign_false_mod]

theorem fSignOp_neg {f : FloatFmt} {x : Nat} (h : x < 2 ^ f.width) :
    fSignOp f false x = if (f.decode x).isNan then f.canonicalNan else Nat.xor x (2 ^ (f.e + f.m)) := by
  simp only [fSignOp, Bool.not_false, Bool.true_and, withSign_not_bit h]

/-! ### The elements of a lane (R98) -/

theorem ofNat_halves {x : Nat} (y : Nat) (hx : x < 2 ^ 16) :
    BitVec.ofNat 32 (x + y * 2 ^ 16) = BitVec.ofNat 16 y ++ BitVec.ofNat 16 x := by
  refine BitVec.eq_of_toNat_eq ?_
  rw [BitVec.toNat_append, BitVec.toNat_ofNat, BitVec.toNat_ofNat, BitVec.toNat_ofNat,
    ← Nat.shiftLeft_add_eq_or_of_lt (Nat.mod_lt _ (Nat.two_pow_pos _)), Nat.shiftLeft_eq]
  omega

theorem toNat_low_half (c : W32) : (c.extractLsb' 0 16).toNat = c.toNat % 2 ^ 16 := by
  rw [BitVec.extractLsb'_toNat, Nat.shiftRight_zero]

theorem toNat_high_half (c : W32) : (c.extractLsb' 16 16).toNat = c.toNat / 2 ^ 16 % 2 ^ 16 := by
  rw [BitVec.extractLsb'_toNat, Nat.shiftRight_eq_div_pow]

theorem getLsbD_one_of_lane : ∀ m : BitVec 2, m.getLsbD 1 = !decide (m.toNat < 2) := by decide

theorem laneRtz_packed : ∀ m : BitVec 2, ¬ m.toNat < 2 → laneRtz m = false := by decide

theorem laneFmt_packed : ∀ m : BitVec 2, ¬ m.toNat < 2 → laneFmt m = if m = 2 then fmtFP16 else fmtBF16 := by decide

theorem laneFmt_width : ∀ m : BitVec 2, ¬ m.toNat < 2 → (laneFmt m).width = 16 := by decide

/-- The model's lane result is that of R98, for an operation whose results fit the format. -/
theorem laneMap3_eq {m : BitVec 2} {op : FloatOp} {g : FloatFmt → Nat → Nat → Nat → Nat × NumFlags}
    (hop : ∀ f c a b, a < 2 ^ f.width → op f (laneRtz m) c a b = g f c a b)
    (hlt : ∀ f c a b, a < 2 ^ f.width → b < 2 ^ f.width → (g f c a b).1 < 2 ^ f.width) (c a b : W32) :
    (BitVec.ofNat 32 (laneMap3 m g c.toNat a.toNat b.toNat).1, (laneMap3 m g c.toNat a.toNat b.toNat).2) = perElement m op c a b := by
  by_cases hm : m.toNat < 2
  · have hlow : m.getLsbD 1 = false := by rw [getLsbD_one_of_lane, decide_eq_true hm]; rfl
    have hone : laneMap3 m g c.toNat a.toNat b.toNat = op fmtFP32 (laneRtz m) c.toNat a.toNat b.toNat := by
      rw [laneMap3, hlow, hop fmtFP32 _ _ _ a.isLt]; rfl
    rw [hone, perElement, if_pos hm]
    rfl
  · have hhigh : m.getLsbD 1 = true := by rw [getLsbD_one_of_lane, decide_eq_false hm]; rfl
    have hwidth := laneFmt_width m hm
    have hhalf : ∀ k, k % 2 ^ 16 < 2 ^ (laneFmt m).width := fun k => by rw [hwidth]; exact Nat.mod_lt _ (Nat.two_pow_pos _)
    have hres : ∀ x y z, (g (laneFmt m) z (x % 2 ^ 16) (y % 2 ^ 16)).1 < 2 ^ 16 := fun x y z =>
      (hlt _ z _ _ (hhalf x) (hhalf y)).trans_eq (by rw [hwidth])
    rw [perElement, if_neg hm, ← laneFmt_packed m hm, ← laneRtz_packed m hm]
    simp only [laneMap3, if_pos hhigh, Nat.mul_zero, Nat.mul_one, toNat_low_half, toNat_high_half, hop _ _ _ _ (hhalf _),
      ofNat_halves _ (hres _ _ _)]

/-! ### The instructions -/

theorem vecF_writesLanes (s : State) (o : V3Op) (F : FVal → FVal → FVal → Flagged) :
    ∃ t, vecF s o F = .next t ∧ WritesLanes s t o.d.toNat (fun l =>
      perElement o.m (fun f z c a b => roundFlagged f z (F (f.decode c) (f.decode a) (f.decode b)))
        (s.vreg o.d.toNat l) (s.vreg o.a.toNat l) (s.vreg o.b.toNat l)) :=
  ⟨_, rfl, State.mapLanes_writesLanes _ fun _ _ =>
    laneMap3_eq (op := fun f z c a b => roundFlagged f z (F (f.decode c) (f.decode a) (f.decode b)))
      (fun _ _ _ _ _ => rfl) (fun _ _ _ _ _ _ => roundFlagged_lt ..) _ _ _⟩

theorem vecFm_writesLanes (s : State) (o : V3Op) (least : Bool) :
    ∃ t, vecFm s o least = .next t ∧ WritesLanes s t o.d.toNat (fun l =>
      perElement o.m (fun f _ _ a b => (fMinMax f least a b, 0)) (s.vreg o.d.toNat l) (s.vreg o.a.toNat l) (s.vreg o.b.toNat l)) :=
  ⟨_, rfl, State.mapLanes_writesLanes _ fun l _ =>
    laneMap3_eq (op := fun f _ _ a b => (fMinMax f least a b, 0)) (g := fun f _ a b => (fMinMax f least a b, 0))
      (fun _ _ _ _ _ => rfl) (fun _ _ _ _ ha hb => fMinMax_lt least ha hb) (s.vreg o.d.toNat l) _ _⟩

theorem laneMap1_eq (m : BitVec 2) (g : FloatFmt → Nat → Nat × NumFlags) (a : Nat) :
    laneMap1 m g a = laneMap3 m (fun f _ a _ => g f a) 0 a 0 := rfl

theorem vecF1_writesLanes (s : State) (o : V2Op) {g : FloatFmt → Nat → Nat × NumFlags}
    {op : FloatFmt → Bool → Nat → Nat × NumFlags} (hop : ∀ f a, a < 2 ^ f.width → op f (laneRtz o.m) a = g f a) (hlt : ∀ f a, (g f a).1 < 2 ^ f.width) :
    ∃ t, vecF1 s o g = .next t ∧ WritesLanes s t o.d.toNat (fun l =>
      perElement o.m (fun f z _ a _ => op f z a) 0 (s.vreg o.a.toNat l) 0) := by
  refine ⟨_, rfl, State.mapLanes_writesLanes _ fun l _ => ?_⟩
  rw [laneMap1_eq]
  exact laneMap3_eq (fun f _ a _ ha => hop f a ha) (fun f _ a _ _ _ => hlt f a) 0 _ 0

/-- Settles O4: each instruction is one of three lane forms, whose results fit their elements. -/
theorem floatResults : Obligations.FloatResults := by
  unfold Obligations.FloatResults
  intro i d f s hwf hi
  clear hwf
  simp only [floatResult] at hi
  split at hi
  case h_14 => cases hi
  all_goals
    simp only [Option.some.injEq, Prod.mk.injEq] at hi
    obtain ⟨rfl, rfl⟩ := hi
  case h_1 o => exact vecF_writesLanes s o fun _ a b => fAdd a b
  case h_2 o => exact vecF_writesLanes s o fun _ a b => fSub a b
  case h_3 o => exact vecF_writesLanes s o fun _ a b => fMul a b
  case h_4 o => exact vecF_writesLanes s o fMulAdd
  case h_5 o => exact vecFm_writesLanes s o true
  case h_6 o => exact vecFm_writesLanes s o false
  case h_7 o => exact vecF1_writesLanes s o (fun f a _ => by rw [fSignOp_abs]) fun f a => fSignOp_lt f true a
  case h_8 o => exact vecF1_writesLanes s o (fun f a ha => by rw [fSignOp_neg ha]) fun f a => fSignOp_lt f false a
  case h_9 o => exact vecF1_writesLanes s o (fun _ _ _ => rfl) fun f a => fRcp_lt f (f.decode a)
  case h_10 o => exact vecF1_writesLanes s o (fun _ _ _ => rfl) fun f a => fRsq_lt f (f.decode a)
  case h_11 o => exact vecF1_writesLanes s o (fun _ _ _ => rfl) fun f a => fSqrt_lt f (laneRtz o.m) (f.decode a)
  case h_12 o => exact vecF1_writesLanes s o (fun _ _ _ => rfl) fExp2_lt
  case h_13 o => exact vecF1_writesLanes s o (fun _ _ _ => rfl) fLog2_lt

end Sys2Proof.Machine
end

section
/-! What translation and the asking for tokens change (R250, R272, R275): caches, TLBs, token holdings and link queues, and nothing that
an instruction reads. -/

namespace Sys2Proof.Machine

open Sys2Proof.Claim

/-- Nothing differs but caches, TLBs, the token protocol's state and what waits at the links. -/
def TokensMove (s t : State) : Prop :=
  t = { s with cores := t.cores, tlb2 := t.tlb2, tok := t.tok, links := t.links }

theorem TokensMove.refl (s : State) : TokensMove s s := rfl

theorem TokensMove.trans {s t u : State} (h : TokensMove s t) (k : TokensMove t u) : TokensMove s u := by
  unfold TokensMove at h k ⊢
  rw [k, h]

theorem TokensMove.foldl {α : Type} {f : State → α → State} (hf : ∀ t e, TokensMove t (f t e)) (es : List α) (s : State) :
    TokensMove s (es.foldl f s) := by
  induction es generalizing s with
  | nil => exact .refl s
  | cons e es ih => exact (hf s e).trans (ih (f s e))

theorem TokensMove.getD {s : State} {o : Option State} (h : ∀ t, o = some t → TokensMove s t) : TokensMove s (o.getD s) := by
  cases o with
  | none => exact .refl s
  | some t => exact h t rfl

section
variable {s t : State} (h : TokensMove s t)
include h

theorem TokensMove.eq : t = { s with cores := t.cores, tlb2 := t.tlb2, tok := t.tok, links := t.links } := h
theorem TokensMove.cur : t.cur = s.cur := (congrArg State.cur h.eq :)
theorem TokensMove.ev : t.ev = s.ev := (congrArg State.ev h.eq :)
theorem TokensMove.warps : t.warps = s.warps := (congrArg State.warps h.eq :)
theorem TokensMove.blocks : t.blocks = s.blocks := (congrArg State.blocks h.eq :)
theorem TokensMove.mem : t.mem = s.mem := (congrArg State.mem h.eq :)
theorem TokensMove.harts : t.harts = s.harts := (congrArg State.harts h.eq :)
theorem TokensMove.names : t.names = s.names := (congrArg State.names h.eq :)
theorem TokensMove.sys : t.sys = s.sys := (congrArg State.sys h.eq :)
theorem TokensMove.free : t.free = s.free := (congrArg State.free h.eq :)

theorem TokensMove.warp (v : Nat) : t.warp v = s.warp v := by rw [State.warp, h.warps, State.warp]
theorem TokensMove.block (b : Nat) : t.block b = s.block b := by rw [State.block, h.blocks, State.block]
theorem TokensMove.cw : t.cw = s.cw := by rw [State.cw, h.cur, h.warp, State.cw]
theorem TokensMove.arch : t.arch = s.arch := congrArg Warp.arch h.cw
theorem TokensMove.unit : t.unit = s.unit := by rw [State.unit, h.cw, h.cur, State.unit]
theorem TokensMove.vreg (r l : Nat) : t.vreg r l = s.vreg r l := by rw [State.vreg, h.arch, h.free, State.vreg]
theorem TokensMove.sreg (r : Nat) : t.sreg r = s.sreg r := by rw [State.sreg, h.arch, State.sreg]

theorem TokensMove.storageKept : StorageKept s t :=
  ⟨h.warps, h.mem, h.harts, fun b => by rw [h.block], fun b => by rw [h.block]⟩

theorem TokensMove.isHomeOf (a : BitVec 13) (sec : Nat) : isHomeOf t a sec = isHomeOf s a sec := by
  rw [Machine.isHomeOf, h.sys, Machine.isHomeOf]

end

theorem tokensMove_setCore (s : State) (c : Nat) (x : Core) : TokensMove s (s.setCore c x) := rfl

/-! ### Holdings (R272, R274) -/

/-- The data of a home's own holding is never dirty. -/
theorem holding_dirty_home {s : State} {a : BitVec 13} {sec : Nat} (h : isHomeOf s a sec = true) : (holding s a sec).dirty = false := by
  rw [holding, if_pos h]

/-- A holding replaced leaves memory alone unless a home takes in dirty data. -/
theorem setHolding_tokensMove {s : State} {a : BitVec 13} {sec : Nat} {h : Holding} (hd : isHomeOf s a sec = true → h.dirty = false) :
    TokensMove s (setHolding s a sec h) := by
  unfold setHolding
  split
  · next hh => rw [hd hh, Bool.and_false]; rfl
  · rfl

/-! ### Messages and requests (R270, R275) -/

theorem linkSend_tokensMove (s : State) (l : Nat) (x : LinkItem) : TokensMove s (linkSend s l x) := rfl

theorem sendTo_tokensMove (s : State) (m : Msg) (poison : Bool) (dests : List (BitVec 13)) : TokensMove s (sendTo s m poison dests) := by
  unfold sendTo
  extract_lets own far tok s1
  refine TokensMove.trans (t := s1) ?_ (.foldl (fun t e => linkSend_tokensMove ..) far s1)
  simp only [s1]
  split <;> rfl

theorem sendTokens_tokensMove (s : State) (src dst : BitVec 13) (sec : Nat) (type : BitVec 8) (n : Nat) (withOwner withData : Bool)
    (reqid : BitVec 16) (tc : BitVec 2) : TokensMove s (sendTokens s src dst sec type n withOwner withData reqid tc) :=
  (setHolding_tokensMove fun hh => by rw [holding_dirty_home hh, Bool.false_and]).trans (sendTo_tokensMove ..)

theorem sendRequest_tokensMove (s : State) (r : TokenReq) : TokensMove s (sendRequest s r) := by
  unfold sendRequest
  extract_lets home m s1
  split
  · exact sendTo_tokensMove ..
  · split
    · exact sendTo_tokensMove ..
    · exact (sendTo_tokensMove ..).trans (.foldl (fun t k => linkSend_tokensMove ..) _ s1)

theorem startRequest_tokensMove (s : State) (a : BitVec 13) (sec : Nat) (write : Bool) (tc : BitVec 2) :
    TokensMove s (startRequest s a sec write tc) := by
  unfold startRequest
  split
  · rfl
  · split
    · rfl
    · exact TokensMove.trans (by rfl) (sendRequest_tokensMove ..)

theorem grabToken_tokensMove {s t : State} {a : BitVec 13} {sec : Nat} (h : grabToken s a sec = some t) : TokensMove s t := by
  unfold grabToken at h
  extract_lets mine home giver at h
  clear_value giver
  split at h
  · cases h
  · split at h
    · cases h; rfl
    · split at h
      · cases h
      · split at h
        · cases h
        · extract_lets g s1 at h
          split at h
          · cases h
          · cases h
            have h1 : TokensMove s s1 := setHolding_tokensMove fun hh => holding_dirty_home hh
            exact h1.trans (setHolding_tokensMove fun hh => holding_dirty_home (h1.isHomeOf a sec ▸ hh))

theorem takeTokens_tokensMove (s : State) (a : BitVec 13) (secs : List Nat) : TokensMove s (takeTokens s a secs) :=
  .foldl (fun _ _ => .getD fun _ h => grabToken_tokensMove h) secs s

theorem grabAll_tokensMove {secs : List Nat} {s t : State} {a : BitVec 13} (h : grabAll s a secs = some t) : TokensMove s t := by
  induction secs generalizing s with
  | nil => cases h; rfl
  | cons sec rest ih =>
    unfold grabAll at h
    split at h
    · next hg => exact (grabToken_tokensMove hg).trans (ih h)
    · cases h

/-! ### Translation (R250) -/

theorem dropCopies_tokensMove (s : State) (ashlar : Nat) (hit : TlbEntry → Bool) : TokensMove s (dropCopies s ashlar hit) :=
  .foldl (fun t c => by dsimp only; split <;> rfl) _ s

theorem tlbInsert_tokensMove {s t : State} {core : Nat} {e : TlbEntry} (h : tlbInsert s core e = some t) : TokensMove s t := by
  unfold tlbInsert at h
  extract_lets a l2 put at h
  have hput : ∀ t l, TokensMove t (put t l) := fun _ _ => rfl
  split at h
  · cases h; exact hput ..
  · split at h
    · cases h; exact hput ..
    · obtain ⟨x, -, rfl⟩ := Option.map_eq_some_iff.mp h
      exact (dropCopies_tokensMove ..).trans (hput ..)

theorem waitWalk_tokensMove (s : State) (w : Walk) (secs : List Nat) : TokensMove s (waitWalk s w secs) := by
  unfold waitWalk
  extract_lets t
  have ht : TokensMove s t := .foldl (fun _ _ => startRequest_tokensMove ..) secs s
  split
  · exact ht
  · exact ht.trans rfl

theorem translate_tokensMove (s : State) (core : Nat) (cls : BitVec 2) (ctx : BitVec 12) (va : Nat) (need : Need) :
    TokensMove s (translate s core cls ctx va need).2 := by
  unfold translate
  split
  · rfl
  · split
    · rfl
    · split
      · exact .getD fun _ h => tlbInsert_tokensMove h
      · split
        · extract_lets
          split
          · rfl
          · exact waitWalk_tokensMove ..
        · split
          · next h =>
            obtain ⟨u, hu, hput⟩ := Option.bind_eq_some_iff.mp h
            exact (grabAll_tokensMove hu).trans (tlbInsert_tokensMove hput)
          · exact waitWalk_tokensMove ..

/-- A page used may fail check 3 alone. -/
theorem usePage_fail {s : State} {e : TlbEntry} {va : Nat} {need : Need} {c : Nat} (h : usePage s e va need = .fail c) : c = 3 := by
  unfold usePage at h
  extract_lets perm at h
  split at h
  · cases h; rfl
  · split at h
    · cases h
    · cases h; rfl

theorem walk_error {s : State} {ctx : BitVec 12} {va c : Nat} (h : walk s ctx va = .error c) : c = 4 ∨ c = 5 := by
  unfold walk at h
  extract_lets d at h
  split at h
  · cases h; exact .inl rfl
  · split at h
    · cases h; exact .inl rfl
    · split at h
      · cases h
      · cases h; split <;> simp
      · cases h; exact .inl rfl

/-- A translation fails one of the checks 3 to 5 (R114). -/
theorem translate_fail {s : State} {core : Nat} {cls : BitVec 2} {ctx : BitVec 12} {va : Nat} {need : Need} {c : Nat}
    (h : (translate s core cls ctx va need).1 = .fail c) : 3 ≤ c ∧ c ≤ 5 := by
  unfold translate at h
  split at h
  · cases h; omega
  · split at h
    · have := usePage_fail h; omega
    · split at h
      · have := usePage_fail h; omega
      · split at h
        · next hw =>
          extract_lets at h
          split at h
          · cases h; have := walk_error hw; omega
          · cases h
        · split at h
          · have := usePage_fail h; omega
          · cases h

theorem placeGlobal_tokensMove (ps : List Piece) (s : State) (need : Need) (align : Nat) :
    TokensMove s (placeGlobal s need align ps).2 := by
  induction ps generalizing s with
  | nil => rfl
  | cons p ps ih =>
    unfold placeGlobal
    split
    · exact ih s
    · exact (translate_tokensMove ..).trans (ih _)

theorem placeGlobal_pieces (ps : List Piece) (s : State) (need : Need) (align : Nat) :
    (placeGlobal s need align ps).1.map (·.1) = ps := by
  induction ps generalizing s with
  | nil => rfl
  | cons p ps ih =>
    unfold placeGlobal
    split <;> simp only [List.map_cons, ih]

theorem placeGlobal_fail (ps : List Piece) (s : State) (need : Need) (align : Nat) (q : Placed)
    (hq : q ∈ (placeGlobal s need align ps).1) (c : Nat) (hc : failsAt q = some c) : 1 ≤ c ∧ c ≤ 5 := by
  induction ps generalizing s with
  | nil => cases hq
  | cons p ps ih =>
    unfold placeGlobal at hq
    split at hq
    · rcases List.mem_cons.mp hq with rfl | hq
      · cases hc; omega
      · exact ih s hq
    · rcases List.mem_cons.mp hq with rfl | hq
      · unfold failsAt at hc
        split at hc
        · next h => cases hc; have := translate_fail h; omega
        · cases hc
      · exact ih _ hq

/-! ### Requests of a new access (R275), level 1 and reads through the L2 (R122, R207) -/

theorem requestSectors_tokensMove (s : State) (write : Bool) (ps : List AccPart) : TokensMove s (requestSectors s write ps) := by
  unfold requestSectors
  split
  · rfl
  · exact .foldl (fun _ _ => startRequest_tokensMove ..) _ s

theorem prefetchSector_tokensMove (m : BitVec 2) (ros : Bool) (s : State) (sec : Nat) : TokensMove s (prefetchSector m ros s sec) := by
  unfold prefetchSector
  extract_lets core h fill k s1
  split
  · rfl
  · split
    · split
      · exact .getD fun t ht => by obtain ⟨d, -, rfl⟩ := Option.map_eq_some_iff.mp ht; rfl
      · rfl
    · split
      · split <;> rfl
      · refine TokensMove.trans (t := s1) ?_ (startRequest_tokensMove ..)
        simp only [s1]
        split <;> rfl

theorem returnTokens_tokensMove (s : State) (a : BitVec 13) (sec : Nat) : TokensMove s (returnTokens s a sec) := by
  unfold returnTokens
  extract_lets h
  split
  · rfl
  · exact sendTokens_tokensMove ..

theorem countRead_tokensMove (s : State) (core line : Nat) (set : Option (BitVec 12)) : TokensMove s (countRead s core line set) := by
  unfold countRead
  extract_lets k had count
  split
  · rfl
  · unfold dropCounted
    extract_lets s1
    split
    · rfl
    · exact TokensMove.trans (t := s1) rfl ((returnTokens_tokensMove ..).trans (returnTokens_tokensMove ..))
  · rfl

theorem noteRead_tokensMove (s : State) (x : Warp) (c : Access) (sec : Nat) (viaL2 : Bool) :
    TokensMove s (noteRead s x c sec viaL2).1 := by
  unfold noteRead
  extract_lets line c1
  split
  · exact countRead_tokensMove ..
  · rfl

end Sys2Proof.Machine
end

section
/-! The pieces of a memory access and the parts that its checks leave (R113 to R115, R121): every byte of a lane whose pieces all pass
is in some part. -/

namespace Sys2Proof.Machine

open Sys2Proof.Claim

/-! ### Little-endian bytes (R11) -/

@[simp] theorem length_leSplit (n w : Nat) : (leSplit n w).length = n := by
  induction n generalizing w with
  | zero => rfl
  | succ n ih => rw [leSplit, List.length_cons, ih]

theorem getElem?_leSplit {n k : Nat} (w : Nat) (hk : k < n) : (leSplit n w)[k]? = some (BitVec.ofNat 8 (w / 2 ^ (8 * k))) := by
  induction n generalizing w k with
  | zero => omega
  | succ n ih =>
    cases k with
    | zero => simp [leSplit]
    | succ k =>
      rw [leSplit, List.getElem?_cons_succ, ih _ (by omega), Nat.div_div_eq_div_mul, show 8 * (k + 1) = 8 * k + 8 by omega, pow_add,
        Nat.mul_comm (2 ^ (8 * k))]
      rfl

/-- A byte of a number written little-endian is the field of its bits. -/
theorem ofNat_div_eq_extractLsb' {n : Nat} (w : BitVec n) (k : Nat) : BitVec.ofNat 8 (w.toNat / 2 ^ (8 * k)) = w.extractLsb' (8 * k) 8 := by
  rw [BitVec.extractLsb', Nat.shiftRight_eq_div_pow]

/-! ### The bytes of a lane's registers (R113, R118) -/

/-- The sizes of a vector access: within a register, or whole registers. -/
def WholeRegs (size : Nat) : Prop := size = 1 ∨ size = 2 ∨ size % 4 = 0

theorem sizeBytes_wholeRegs (z : BitVec 2) : WholeRegs (sizeBytes z) := by
  have : ∀ z : BitVec 2, sizeBytes z = 1 ∨ sizeBytes z = 2 ∨ sizeBytes z % 4 = 0 := by decide
  exact this z

theorem sizeBytes_pos (z : BitVec 2) : 0 < sizeBytes z := Nat.two_pow_pos _

theorem dataByte_eq (s : State) (d : BitVec 8) (l k : Nat) :
    dataByte s d l k = BitVec.ofNat 8 ((s.vreg (d.toNat + k / 4) l).toNat / 2 ^ (8 * (k % 4))) :=
  (ofNat_div_eq_extractLsb' _ _).symm

theorem leSplit_eq_map (n w : Nat) : leSplit n w = (List.range n).map (fun k => BitVec.ofNat 8 (w / 2 ^ (8 * k))) := by
  refine List.ext_getElem? fun k => ?_
  by_cases hk : k < n
  · rw [getElem?_leSplit w hk, List.getElem?_map, List.getElem?_range hk]; rfl
  · rw [List.getElem?_eq_none (by simp; omega), List.getElem?_eq_none (by simp; omega)]

theorem range_mul_flatMap {α : Type} (f : Nat → α) (n : Nat) :
    (List.range n).flatMap (fun k => (List.range 4).map (fun j => f (4 * k + j))) = (List.range (4 * n)).map f := by
  induction n with
  | zero => rfl
  | succ n ih =>
    rw [List.range_succ (n := n), List.flatMap_append, ih, show 4 * (n + 1) = 4 * n + 4 by omega, List.range_add, List.map_append, List.map_map]
    simp

/-- The bytes that the model reads of a lane's registers are those of R113. -/
theorem regBytes_eq_laneData (s : State) (d : BitVec 8) {size : Nat} (l : Nat) (h : WholeRegs size) :
    regBytes s d size l = laneData s (some d) size l := by
  have low : ∀ n, n ≤ 2 → leSplit n (s.vreg (d.toNat + 0) l).toNat = (List.range n).map (dataByte s d l) := fun n hn => by
    rw [leSplit_eq_map]
    refine List.map_congr_left fun k hk => ?_
    have hk := List.mem_range.mp hk
    rw [dataByte_eq, show k / 4 = 0 by omega, Nat.mod_eq_of_lt (by omega : k < 4)]
  show regBytes s d size l = (List.range size).map (dataByte s d l)
  unfold regBytes
  rcases h with rfl | rfl | h
  · simpa using low 1 (by omega)
  · simpa using low 2 (by omega)
  · obtain ⟨n, rfl⟩ := Nat.dvd_of_mod_eq_zero h
    rw [← range_mul_flatMap, show (4 * n + 3) / 4 = n by omega]
    refine List.flatMap_congr fun k hk => ?_
    have hk := List.mem_range.mp hk
    rw [show min (4 * n) 4 = 4 by omega, leSplit_eq_map]
    refine List.map_congr_left fun j hj => ?_
    have hj := List.mem_range.mp hj
    rw [dataByte_eq, show (4 * k + j) / 4 = k by omega, show (4 * k + j) % 4 = j by omega]

theorem getElem?_laneData (s : State) (d : BitVec 8) (l : Nat) {size k : Nat} (hk : k < size) :
    (laneData s (some d) size l)[k]? = some (dataByte s d l k) := by
  rw [laneData, List.getElem?_map, List.getElem?_range hk]; rfl

/-! ### Addresses (R113) -/

theorem wrap_eq_toNat (x : Int) : wrap 64 x = (BitVec.ofInt 64 x).toNat := by
  rw [wrap, BitVec.toNat_ofInt]

theorem vmAddr_eq_laneAddr (s : State) (base : BitVec 6) (a : BitVec 8) (off : Int) (l : Nat) :
    s.vmAddr base a off l = (laneAddr s base a off l).toNat := by
  rw [State.vmAddr, wrap_eq_toNat, laneAddr, BitVec.ofInt_add, BitVec.ofInt_add, BitVec.ofInt_natCast, BitVec.ofNat_toNat,
    BitVec.setWidth_eq, BitVec.signExtend]

theorem scalarAddr_eq (s : State) (a i : BitVec 6) :
    scalarAddr s a i = (s.sreg a.toNat + BitVec.ofInt 64 (i.toInt * 8)).toNat := by
  rw [scalarAddr, wrap_eq_toNat, BitVec.ofInt_add, BitVec.ofInt_natCast, BitVec.ofNat_toNat, BitVec.setWidth_eq]

/-! ### Pieces (R121) -/

/-- The pieces of a lane lie within its access, and each of its bytes is in one of them. -/
theorem lanePieces_within {split : Bool} {size lane va : Nat} {helper : Bool} {q : Piece} (h : q ∈ lanePieces split size lane va helper) :
    q.lane = lane ∧ q.helper = helper := by
  unfold lanePieces at h
  extract_lets head at h
  split at h
  · rcases List.mem_pair.mp h with rfl | rfl <;> exact ⟨rfl, rfl⟩
  · rcases List.mem_singleton.mp h with rfl; exact ⟨rfl, rfl⟩

theorem lanePieces_covers (split : Bool) (lane va : Nat) (helper : Bool) {size k : Nat} (hk : k < size) :
    ∃ q, q ∈ lanePieces split size lane va helper ∧ q.off ≤ k ∧ k < q.off + q.size ∧ q.off + q.size ≤ size
      ∧ (q.va + (k - q.off)) % 2 ^ 64 = (va + k) % 2 ^ 64 := by
  unfold lanePieces
  extract_lets head
  have hmod : va % size < size := Nat.mod_lt _ (by omega)
  split
  · by_cases hh : k < head
    · exact ⟨_, List.mem_cons_self, Nat.zero_le _, by simpa using hh, by simp only [head]; omega, rfl⟩
    · refine ⟨_, List.mem_cons_of_mem _ List.mem_cons_self, Nat.le_of_not_lt hh, ?_, ?_, ?_⟩
      · simp only [head]; omega
      · simp only [head]; omega
      · rw [Nat.mod_add_mod]
        exact congrArg (· % 2 ^ 64) (by dsimp only; omega)
  · exact ⟨_, List.mem_cons_self, Nat.zero_le _, by simpa using hk, by simp, rfl⟩

/-- The selected lanes' pieces, and the helpers' of a load. -/
theorem mem_pieces (f : AccessForm) (s : State) (q : Piece) :
    q ∈ f.pieces s ↔ (∃ l, hasLane s.cur.guard l = true ∧ q ∈ lanePieces f.split f.size l (f.addr s l).toNat false)
      ∨ (f.kind = .load ∧ ∃ l, hasLane s.cur.helpers l = true ∧ q ∈ lanePieces f.split f.size l (f.addr s l).toNat true) := by
  unfold AccessForm.pieces
  by_cases hk : f.kind = .load <;> simp [hk, mem_lanesOf]

theorem vmPieces_eq (s : State) (f : AccessForm) (o : VmOp) (x : Option MemX) (hsize : f.size = sizeBytes o.size)
    (haddr : ∀ l, f.addr s l = laneAddr s o.base o.a (memOff o x) l) :
    vmPieces s o x f.split (decide (f.kind = .load)) s.cur.guard = f.pieces s := by
  unfold vmPieces AccessForm.pieces
  simp only [hsize, haddr, vmAddr_eq_laneAddr, decide_eq_true_eq]

theorem casPieces_eq (s : State) (d a b : BitVec 8) (x : CasX) : casPieces s a x = (casForm d a b x).pieces s := by
  simp only [casPieces, AccessForm.pieces, casForm, lanePieces, vmAddr_eq_laneAddr, Bool.false_and, Bool.false_eq_true, if_false,
    reduceCtorEq, List.append_nil, List.map_eq_flatMap]

/-! ### Checks (R112, R114) -/

/-- Every failing check is one of the five of R114. -/
def ChecksNamed (ps : List Placed) : Prop := ∀ q, q ∈ ps → ∀ c, failsAt q = some c → 1 ≤ c ∧ c ≤ 5

/-- A verdict of pass: nothing waits, and no selected piece fails. -/
theorem verdict_pass {ps : List Placed} (hn : ChecksNamed ps) (hv : verdict ps = .pass) :
    (∀ q, q ∈ ps → q.2 ≠ .wait) ∧ ∀ q, q ∈ ps → q.1.helper = false → failsAt q = none := by
  unfold verdict at hv
  extract_lets sel at hv
  split at hv
  · cases hv
  · next hwait =>
    split at hv
    · next hfind =>
      refine ⟨fun q hq hw => hwait (List.any_eq_true.mpr ⟨q, hq, beq_iff_eq.mpr hw⟩), fun q hq hsel => ?_⟩
      cases hc : failsAt q with
      | none => rfl
      | some c =>
        have hmem : c ∈ ([1, 2, 3, 4, 5] : List Nat) := by
          have := hn q hq c hc
          simp only [List.mem_cons, List.not_mem_nil, or_false]; omega
        refine absurd (List.any_eq_true.mpr ⟨q, ?_, ?_⟩) (List.find?_eq_none.mp hfind c hmem)
        · exact List.mem_filter.mpr ⟨hq, by rw [hsel]; rfl⟩
        · rw [hc]; exact beq_self_eq_true _
    · extract_lets at hv
      split at hv <;> cases hv

/-- A placed piece that neither waits nor fails leads somewhere. -/
theorem placed_ok {q : Placed} (hw : q.2 ≠ .wait) (hf : failsAt q = none) : ∃ da ros, q.2 = .ok da ros := by
  unfold failsAt at hf
  split at hf
  · cases hf
  · next h =>
    cases hr : q.2 with
    | ok da ros => exact ⟨da, ros, rfl⟩
    | fail c => exact absurd hr (h c)
    | wait => exact absurd hr hw

theorem failsAt_ok {q : Placed} {da : Nat} {ros : Bool} (h : q.2 = .ok da ros) : failsAt q = none := by rw [failsAt, h]

theorem scratchPlaced_pieces (s : State) (cluster : Bool) (ps : List Piece) : (scratchPlaced s cluster ps).map (·.1) = ps := by
  rw [scratchPlaced, List.map_map]
  refine (List.map_congr_left fun p _ => ?_).trans (List.map_id ps)
  simp only [Function.comp_apply, placeScratchPiece]
  split
  · rfl
  · split <;> rfl

theorem placeScratch_error {s : State} {cluster : Bool} {va size c : Nat} (h : placeScratch s cluster va size = .error c) : c = 2 := by
  unfold placeScratch at h
  split at h
  · split at h
    · cases h; rfl
    · split at h
      · cases h; rfl
      · split at h <;> cases h; rfl
  · split at h <;> cases h; rfl

theorem placeScratch_ok {s : State} {cluster : Bool} {va size b off : Nat} (h : placeScratch s cluster va size = .ok (b, off)) :
    off < 2 ^ 21 ∧ off + size ≤ (s.block b).spAlloc := by
  unfold placeScratch at h
  split at h
  · split at h
    · cases h
    · split at h
      · cases h
      · split at h
        · next hfit => cases h; exact ⟨Nat.mod_lt _ (by decide), hfit⟩
        · cases h
  · split at h
    · next hfit => cases h; exact ⟨hfit.2, hfit.1⟩
    · cases h

/-- A scratchpad piece fails check 1 or 2, or lies in a block's allocation (R112). -/
theorem placeScratchPiece_cases (s : State) (cluster : Bool) (p : Piece) :
    (∃ c, (placeScratchPiece s cluster p).2 = .fail c ∧ (c = 1 ∨ c = 2))
      ∨ ∃ b off, (placeScratchPiece s cluster p).2 = .ok (b * 2 ^ 21 + off) false ∧ off < 2 ^ 21 ∧ off + p.size ≤ (s.block b).spAlloc := by
  unfold placeScratchPiece
  split
  · exact .inl ⟨1, rfl, .inl rfl⟩
  · split
    · next h => exact .inr ⟨_, _, rfl, placeScratch_ok h⟩
    · next h => exact .inl ⟨_, rfl, .inr (placeScratch_error h)⟩

theorem mem_scratchPlaced {s : State} {cluster : Bool} {ps : List Piece} {q : Placed} (h : q ∈ scratchPlaced s cluster ps) :
    ∃ p, p ∈ ps ∧ q.1 = p ∧ q.2 = (placeScratchPiece s cluster p).2 := by
  obtain ⟨p, hp, rfl⟩ := List.mem_map.mp h
  refine ⟨p, hp, ?_, rfl⟩
  unfold placeScratchPiece
  split
  · rfl
  · split <;> rfl

theorem scratchPlaced_checksNamed (s : State) (cluster : Bool) (ps : List Piece) :
    ∀ q, q ∈ scratchPlaced s cluster ps → ∀ c, failsAt q = some c → c = 1 ∨ c = 2 := by
  intro q hq c hc
  obtain ⟨p, -, -, hr⟩ := mem_scratchPlaced hq
  rcases placeScratchPiece_cases s cluster p with ⟨c', hf, hor⟩ | ⟨b, off, hok, -⟩
  · rw [failsAt, hr, hf] at hc; cases hc; exact hor
  · rw [failsAt_ok (hr.trans hok)] at hc; cases hc

/-! ### Parts -/

/-- The part of a piece that leads somewhere. -/
def placedPart (q : Piece) (da : Nat) (ros : Bool) (data expect : Nat → List Byte) : AccPart :=
  { lane := q.lane, va := q.va, addr := da, off := q.off, size := q.size, ros := ros, helper := q.helper,
    data := ((data q.lane).drop q.off).take q.size, expect := expect q.lane }

/-- The parts are those of the pieces of lanes in which nothing fails. -/
theorem mem_partsFrom (ps : List Placed) (data expect : Nat → List Byte) (p : AccPart) :
    p ∈ partsFrom ps data expect ↔ ∃ q da ros, (q, TransResult.ok da ros) ∈ ps
      ∧ (∀ r, r ∈ ps → r.1.lane = q.lane → failsAt r = none) ∧ p = placedPart q da ros data expect := by
  have hlost : ∀ l, ((ps.filter (fun p => (failsAt p).isSome)).map (fun p => p.1.lane)).contains l = false
      ↔ ∀ r, r ∈ ps → r.1.lane = l → failsAt r = none := fun l => by
    rw [← Bool.not_eq_true, List.contains_iff_mem]
    simp only [List.mem_map, List.mem_filter, not_exists, not_and, and_imp, Option.isSome_iff_ne_none, ne_eq]
    exact ⟨fun h r hr hl => by_contra fun hf => h r hr hf hl, fun h r hr hf hl => hf (h r hr hl)⟩
  unfold partsFrom
  extract_lets lost
  rw [List.mem_filterMap]
  constructor
  · rintro ⟨⟨q, r⟩, hq, hp⟩
    cases r with
    | ok da ros =>
      dsimp only at hp
      split at hp
      · cases hp
      · next h =>
        cases hp
        exact ⟨q, da, ros, hq, (hlost _).mp (Bool.not_eq_true _ ▸ h), rfl⟩
    | fail c => cases hp
    | wait => cases hp
  · rintro ⟨q, da, ros, hq, hnone, rfl⟩
    refine ⟨_, hq, ?_⟩
    have : lost.contains q.lane = false := (hlost _).mpr hnone
    dsimp only
    rw [this]
    rfl

/-- The parts of a form's placed pieces. -/
def formParts (f : AccessForm) (s : State) (placed : List Placed) : List AccPart :=
  partsFrom placed (fun l => laneData s f.data f.size l) (fun l => laneData s f.expect f.size l)

/-- A lane asks for pieces: a selected one, or a helper of a load (R115). -/
def Asks (f : AccessForm) (s : State) (l : Nat) : Prop :=
  hasLane s.cur.guard l = true ∨ (f.kind = .load ∧ hasLane s.cur.helpers l = true)

theorem mem_pieces_lane {f : AccessForm} {s : State} {q : Piece} (h : q ∈ f.pieces s) :
    Asks f s q.lane ∧ (q.helper = false → hasLane s.cur.guard q.lane = true) := by
  rcases (mem_pieces f s q).mp h with ⟨l, hl, hq⟩ | ⟨hk, l, hl, hq⟩
  · obtain ⟨rfl, -⟩ := lanePieces_within hq
    exact ⟨.inl hl, fun _ => hl⟩
  · obtain ⟨rfl, hh⟩ := lanePieces_within hq
    exact ⟨.inr ⟨hk, hl⟩, fun h => absurd (hh.symm.trans h) (by decide)⟩

/-- A part stands for a piece that leads somewhere, of a lane that asks. -/
theorem mem_parts {f : AccessForm} {s : State} {placed : List Placed} (hps : placed.map (·.1) = f.pieces s) {p : AccPart}
    (h : p ∈ formParts f s placed) : Asks f s p.lane ∧ (p.helper = false → hasLane s.cur.guard p.lane = true)
      ∧ ∃ q, q ∈ placed ∧ q.2 = .ok p.addr p.ros ∧ p.size = q.1.size := by
  obtain ⟨q, da, ros, hq, -, rfl⟩ := (mem_partsFrom ..).mp h
  obtain ⟨hasks, hsel⟩ := mem_pieces_lane (f := f) (s := s) (q := q) (hps ▸ List.mem_map_of_mem hq)
  exact ⟨hasks, hsel, _, hq, rfl, rfl⟩

/-- Every byte of a lane whose pieces all lead somewhere is carried by an access that has the lane's parts. -/
theorem carries_of_lane {f : AccessForm} {s : State} {placed : List Placed} (hps : placed.map (·.1) = f.pieces s) {l : Nat}
    (hl : Asks f s l) (hok : ∀ q, q ∈ placed → q.1.lane = l → ∃ da ros, q.2 = .ok da ros) {new : List Access}
    (hnew : ∀ p, p ∈ formParts f s placed → ∃ c, c ∈ new ∧ p ∈ c.parts) {k : Nat} (hk : k < f.size) : Carries f s placed new l k := by
  obtain ⟨q, hq, hlane, hlo, hhi, hend, hva⟩ : ∃ q, q ∈ f.pieces s ∧ q.lane = l ∧ q.off ≤ k ∧ k < q.off + q.size
      ∧ q.off + q.size ≤ f.size ∧ (q.va + (k - q.off)) % 2 ^ 64 = ((f.addr s l).toNat + k) % 2 ^ 64 := by
    rcases hl with hl | ⟨hload, hl⟩
    · obtain ⟨q, hq, hlo, hhi, hend, hva⟩ := lanePieces_covers f.split l (f.addr s l).toNat false hk
      exact ⟨q, (mem_pieces f s q).mpr (.inl ⟨l, hl, hq⟩), (lanePieces_within hq).1, hlo, hhi, hend, hva⟩
    · obtain ⟨q, hq, hlo, hhi, hend, hva⟩ := lanePieces_covers f.split l (f.addr s l).toNat true hk
      exact ⟨q, (mem_pieces f s q).mpr (.inr ⟨hload, l, hl, hq⟩), (lanePieces_within hq).1, hlo, hhi, hend, hva⟩
  obtain ⟨⟨q', r⟩, hmem, rfl⟩ := List.mem_map.mp (hps ▸ hq : q ∈ placed.map (·.1))
  subst hlane
  obtain ⟨da, ros, rfl⟩ : ∃ da ros, r = .ok da ros := hok _ hmem rfl
  obtain ⟨c, hc, hp⟩ := hnew _ ((mem_partsFrom ..).mpr ⟨_, da, ros, hmem, fun r hr hlr => by
    obtain ⟨da', ros', h⟩ := hok r hr hlr; exact failsAt_ok h, rfl⟩)
  refine ⟨c, hc, _, hp, rfl, hlo, hhi, hva, ⟨_, hmem, rfl, rfl, rfl⟩, fun d hd => ?_, fun d hd => ?_⟩
  · dsimp only at hlo hhi hend
    show (((laneData s f.data f.size _).drop q'.off).take q'.size)[k - q'.off]? = _
    rw [hd, List.getElem?_take_of_lt (by omega), List.getElem?_drop, getElem?_laneData _ _ _ (by omega), Nat.add_sub_cancel' hlo]
  · show (laneData s f.expect f.size _)[_]? = _
    rw [hd, getElem?_laneData _ _ _ hk]

/-- A lane without a part has a piece that fails, or asks for none. -/
theorem part_of_lane {f : AccessForm} {s : State} {placed : List Placed} (hps : placed.map (·.1) = f.pieces s) (hsize : 0 < f.size)
    {l : Nat} (hl : Asks f s l) (hok : ∀ q, q ∈ placed → q.1.lane = l → ∃ da ros, q.2 = .ok da ros) :
    ∃ p, p ∈ formParts f s placed ∧ p.lane = l := by
  obtain ⟨c, hc, p, hp, hlane, -⟩ := carries_of_lane hps hl hok (new := [newAccess f.kind none none 0 (formParts f s placed)])
    (fun p hp => ⟨_, List.mem_cons_self, hp⟩) hsize
  rcases List.mem_singleton.mp hc with rfl
  exact ⟨p, hp, hlane⟩

/-- A lane of a part has no piece that fails. -/
theorem ok_of_part {f : AccessForm} {s : State} {placed : List Placed} (hwait : ∀ q, q ∈ placed → q.2 ≠ .wait) {p : AccPart}
    (h : p ∈ formParts f s placed) : ∀ q, q ∈ placed → q.1.lane = p.lane → ∃ da ros, q.2 = .ok da ros := by
  obtain ⟨q', da, ros, -, hnone, rfl⟩ := (mem_partsFrom ..).mp h
  exact fun q hq hl => placed_ok (hwait q hq) (hnone q hq hl)

/-- Where the verdict is pass, nothing of a selected lane fails: no helper is a selected lane (R103). -/
theorem ok_of_guard {f : AccessForm} {s : State} {placed : List Placed} (hps : placed.map (·.1) = f.pieces s) (hn : ChecksNamed placed)
    (hv : verdict placed = .pass) (hdis : s.cur.guard &&& s.cur.helpers = 0) {l : Nat} (hl : hasLane s.cur.guard l = true) :
    ∀ q, q ∈ placed → q.1.lane = l → ∃ da ros, q.2 = .ok da ros := by
  intro q hq hlane
  obtain ⟨hwait, hsel⟩ := verdict_pass hn hv
  refine placed_ok (hwait q hq) (hsel q hq ?_)
  have hmem : q.1 ∈ f.pieces s := hps ▸ List.mem_map_of_mem hq
  rcases (mem_pieces f s q.1).mp hmem with ⟨l', -, hq'⟩ | ⟨-, l', hl', hq'⟩
  · exact (lanePieces_within hq').2
  · obtain ⟨hl'', -⟩ := lanePieces_within hq'
    have hboth : hasLane (s.cur.guard &&& s.cur.helpers) l = true := by
      rw [hasLane_and, hl, ← hlane, hl'', hl']; rfl
    rw [hdis] at hboth
    exact absurd hboth (by simp [hasLane])

end Sys2Proof.Machine
end

section
/-! Handing out accesses (R115, R125, R131, R132): the steps of an issue, each with what it adds and what it leaves alone. -/

namespace Sys2Proof.Machine

open Sys2Proof.Claim

/-! ### Posted writes leave (R125, R213) -/

/-- Posted writes of warp `w` leave: its touched homes and the stages of its accesses change, its block may lose its eligibility. -/
structure PostsLeave (w : Nat) (s t : State) : Prop where
  state : t = { s with warps := t.warps, blocks := t.blocks, tok := { s.tok with posted := t.tok.posted }, links := t.links }
  others : ∀ v, v ≠ w → t.warp v = s.warp v
  warp : t.warp w = { s.warp w with touched := (t.warp w).touched, accs := (t.warp w).accs }
  accs : unstaged (t.warp w).accs = unstaged (s.warp w).accs
  scratch : ∀ b, (t.block b).sp = (s.block b).sp ∧ (t.block b).full = (s.block b).full

theorem PostsLeave.refl (w : Nat) (s : State) : PostsLeave w s s := ⟨rfl, fun _ _ => rfl, rfl, rfl, fun _ => ⟨rfl, rfl⟩⟩

theorem PostsLeave.trans {w : Nat} {s t u : State} (h : PostsLeave w s t) (k : PostsLeave w t u) : PostsLeave w s u where
  state := by rw [k.state, h.state]
  others v hv := (k.others v hv).trans (h.others v hv)
  warp := by rw [k.warp, h.warp]
  accs := k.accs.trans h.accs
  scratch b := ⟨(k.scratch b).1.trans (h.scratch b).1, (k.scratch b).2.trans (h.scratch b).2⟩

theorem PostsLeave.foldl {α : Type} {w : Nat} {f : State → α → State} (hf : ∀ t e, PostsLeave w t (f t e)) (es : List α) (s : State) :
    PostsLeave w s (es.foldl f s) := by
  induction es generalizing s with
  | nil => exact .refl w s
  | cons e es ih => exact (hf s e).trans (ih (f s e))

theorem endEligible_state (s : State) (b : Nat) : endEligible s b = { s with blocks := (endEligible s b).blocks } := by
  unfold endEligible
  split
  · split <;> rfl
  · rfl

theorem endEligible_postsLeave (w : Nat) (s : State) (b : Nat) : PostsLeave w s (endEligible s b) where
  state := by rw [endEligible_state]
  others v _ := (endEligible_kept s b).warp v
  warp := by rw [(endEligible_kept s b).warp]
  accs := by rw [(endEligible_kept s b).warp]
  scratch c := ⟨(endEligible_kept s b).sp c, (endEligible_kept s b).full c⟩

/-- A block that has lost its eligibility. -/
theorem endEligible_eligible (s : State) (b : Nat) : ((endEligible s b).block b).eligible = false := by
  unfold endEligible
  split
  · next k hk =>
    split
    · rw [State.setBlock_block_self]
    · next h => rw [State.block, hk]; exact Bool.not_eq_true _ ▸ h
  · next hk => rw [State.block, hk]; rfl

theorem setWarp_postsLeave (s : State) (w : Nat) {x : Warp} (hx : x = { s.warp w with touched := x.touched, accs := x.accs })
    (ha : unstaged x.accs = unstaged (s.warp w).accs) : PostsLeave w s (s.setWarp w x) where
  state := rfl
  others v hv := (State.setWarp_warp ..).trans (if_neg hv)
  warp := by rw [State.setWarp_warp_self]; exact hx
  accs := by rw [State.setWarp_warp_self]; exact ha
  scratch _ := ⟨rfl, rfl⟩

theorem sendPosted_postsLeave (s : State) (w : Nat) (c : Access) (sec : Nat) : PostsLeave w s (sendPosted s w c sec) := by
  unfold sendPosted
  extract_lets x wr m h tok x'
  split
  · exact ⟨rfl, fun _ _ => rfl, rfl, rfl, fun _ => ⟨rfl, rfl⟩⟩
  · have hw : PostsLeave w s (s.setWarp w x') := setWarp_postsLeave s w rfl rfl
    exact hw.trans ⟨rfl, fun _ _ => rfl, rfl, rfl, fun _ => ⟨rfl, rfl⟩⟩

theorem unstaged_map_sent (cs : List Access) (p : Access → Bool) :
    unstaged (cs.map (fun c => if p c then { c with stage := .sent } else c)) = unstaged cs := by
  rw [unstaged, List.map_map, unstaged]
  refine List.map_congr_left fun c _ => ?_
  simp only [Function.comp_apply]
  split <;> rfl

theorem flushPosted_postsLeave (s : State) (w : Nat) : PostsLeave w s (flushPosted s w) := by
  unfold flushPosted
  extract_lets x go s1 y
  split
  · exact .refl w s
  · have h1 : PostsLeave w s s1 :=
      (endEligible_postsLeave w s x.blk).trans (.foldl (fun t c => .foldl (fun t sec => sendPosted_postsLeave ..) _ t) _ _)
    exact h1.trans (setWarp_postsLeave s1 w rfl (unstaged_map_sent _ _))

/-! ### What an issue adds -/

/-- An issue has handed out `new` and counts on `paths`; but for registers d to d + n - 1 of helper lanes, nothing that an
instruction reads differs. Outstanding accesses are compared through `view`. -/
structure HandedOut (view : Access → Access) (s t : State) (new : List Access) (paths : List Nat) (d n : Nat) : Prop where
  cur : t.cur = s.cur
  accs : t.cw.accs.map view = (s.cw.accs ++ new).map view
  count : ∀ p, pathCount t.cw p = pathCount s.cw p + paths.count p
  frame : IssueFrame s t
  helpers : OnlyHelpers s t d n

/-- The stage of an access disregarded. -/
def unstage (c : Access) : Access := { c with stage := .waiting }

theorem unstaged_eq_map (cs : List Access) : unstaged cs = cs.map unstage := rfl

theorem issueFrame_refl (s : State) : IssueFrame s s := ⟨fun _ => rfl, fun _ => ⟨rfl, rfl⟩, rfl, rfl, rfl, rfl, fun _ _ => rfl, rfl⟩

theorem issueFrame_trans {s t u : State} (hcur : t.cur = s.cur) (h : IssueFrame s t) (k : IssueFrame t u) : IssueFrame s u := by
  obtain ⟨hm, hb, hh, hn, hs, hf, hw, ha⟩ := h
  obtain ⟨km, kb, kh, kn, ks, kf, kw, ka⟩ := k
  refine ⟨fun a => (km a).trans (hm a), fun b => ⟨(kb b).1.trans (hb b).1, (kb b).2.trans (hb b).2⟩, kh.trans hh, kn.trans hn,
    ks.trans hs, kf.trans hf, fun v hv => (kw v (hcur ▸ hv)).trans (hw v hv), ?_⟩
  rw [ka, ha]

theorem issueFrame_of_vregs {s t : State} (h : IssueFrame s t) (hv : t.arch.vregs = s.arch.vregs) (r l : Nat) :
    t.vreg r l = s.vreg r l := by
  obtain ⟨-, -, -, -, -, hf, -, ha⟩ := h
  unfold State.vreg WarpArch.getV
  rw [hf, hv, ha]

namespace HandedOut

variable {view : Access → Access} {s t u : State} {n1 n2 : List Access} {p1 p2 : List Nat} {d n : Nat}

theorem refl (view : Access → Access) (s : State) (d n : Nat) : HandedOut view s s [] [] d n :=
  ⟨rfl, by rw [List.append_nil], fun _ => rfl, issueFrame_refl s, fun _ _ _ _ => rfl⟩

theorem trans (h : HandedOut view s t n1 p1 d n) (k : HandedOut view t u n2 p2 d n) :
    HandedOut view s u (n1 ++ n2) (p1 ++ p2) d n where
  cur := k.cur.trans h.cur
  accs := by rw [k.accs, List.map_append, h.accs, ← List.map_append, List.append_assoc]
  count p := by rw [k.count, h.count, List.count_append, Nat.add_assoc]
  frame := issueFrame_trans h.cur h.frame k.frame
  helpers r l hl hout := (k.helpers r l hl (h.cur ▸ hout)).trans (h.helpers r l hl hout)

theorem of_tokensMove (view : Access → Access) (d n : Nat) (h : TokensMove s t) : HandedOut view s t [] [] d n where
  cur := h.cur
  accs := by rw [h.cw, List.append_nil]
  count p := by rw [h.cw]; rfl
  frame := ⟨h.storageKept.memoryKept.1, h.storageKept.memoryKept.2, h.harts, h.names, h.sys, h.free, fun v _ => h.warp v,
    by rw [h.arch]⟩
  helpers r l _ _ := h.vreg r l

/-- What an exact comparison of accesses says, any comparison says. -/
theorem of_exact (h : HandedOut id s t n1 p1 d n) (view : Access → Access) : HandedOut view s t n1 p1 d n :=
  { h with accs := by have := h.accs; rw [List.map_id, List.map_id] at this; rw [this] }

theorem exact_accs (h : HandedOut id s t n1 p1 d n) : t.cw.accs = s.cw.accs ++ n1 := by
  have := h.accs; rwa [List.map_id, List.map_id] at this

/-- Posted writes of the issuing warp leave. -/
theorem postsLeave (h : HandedOut unstage s t n1 p1 d n) (k : PostsLeave t.cur.w t u) : HandedOut unstage s u n1 p1 d n := by
  have hcur : u.cur = t.cur := (congrArg State.cur k.state :)
  have hcw : u.cw = { t.cw with touched := u.cw.touched, accs := u.cw.accs } := by
    rw [State.cw, hcur]; exact k.warp
  have harch : u.arch = t.arch := (congrArg Warp.arch hcw :)
  have hfree : u.free = t.free := (congrArg State.free k.state :)
  have hmem : u.mem = t.mem := (congrArg State.mem k.state :)
  have hstep : HandedOut unstage t u [] [] d n := {
    cur := hcur
    accs := by rw [List.append_nil, State.cw, hcur]; exact k.accs
    count := fun p => by rw [hcw]; rfl
    frame := ⟨fun a => by rw [homeByte, hmem, homeByte], k.scratch, (congrArg State.harts k.state :), (congrArg State.names k.state :),
      (congrArg State.sys k.state :), hfree, k.others, by rw [harch]⟩
    helpers := fun r l _ _ => by rw [State.vreg, harch, hfree, State.vreg] }
  have := h.trans hstep
  rwa [List.append_nil, List.append_nil] at this

end HandedOut

/-- The issuing warp replaced by one with the same registers and units, and more accesses and path issues. -/
theorem handedOut_setCw (s : State) {x : Warp} {new : List Access} {paths : List Nat} (d n : Nat) (haccs : x.accs = s.cw.accs ++ new)
    (hpaths : ∀ p, pathCount x p = pathCount s.cw p + paths.count p) (harch : x.arch = { s.arch with insts := x.arch.insts }) :
    HandedOut id s (s.setCw x) new paths d n where
  cur := rfl
  accs := by rw [State.setCw_cw, haccs]
  count p := by rw [State.setCw_cw, hpaths]
  frame := ⟨fun _ => rfl, fun _ => ⟨rfl, rfl⟩, rfl, rfl, rfl, rfl, fun v hv => (State.setWarp_warp ..).trans (if_neg hv), by
    rw [State.arch, State.setCw_cw, harch]⟩
  helpers r l _ _ := by
    unfold State.vreg
    rw [State.arch, State.setCw_cw, harch]; rfl

/-! ### Helpers that take no part (R115) -/

/-- The writes of 0 that helpers without a part receive. -/
theorem mem_zeroWrites (d : BitVec 8) (regs : Nat) (lanes : Lanes) (e : Nat × Nat × W32) :
    e ∈ (List.range regs).flatMap (fun k => (lanesOf lanes).map (fun l => (d.toNat + k, l, (0 : W32))))
      ↔ (∃ k, k < regs ∧ e.1 = d.toNat + k) ∧ hasLane lanes e.2.1 = true ∧ e.2.2 = 0 := by
  obtain ⟨r, l, v⟩ := e
  simp only [List.mem_flatMap, List.mem_range, List.mem_map, mem_lanesOf, Prod.mk.injEq]
  constructor
  · rintro ⟨k, hk, l', hl, rfl, rfl, rfl⟩; exact ⟨⟨k, hk, rfl⟩, hl, rfl⟩
  · rintro ⟨⟨k, hk, rfl⟩, hl, rfl⟩; exact ⟨k, hk, l, hl, rfl, rfl, rfl⟩

theorem handedOut_zeroHelpers (s : State) (d : BitVec 8) (regs : Nat) {lanes : Lanes}
    (hsub : ∀ l, hasLane lanes l = true → hasLane s.cur.helpers l = true) :
    HandedOut id s (zeroHelpers s d regs lanes) [] [] d.toNat regs where
  cur := rfl
  accs := by rw [zeroHelpers, State.setArch_cw, List.append_nil]
  count p := by rw [zeroHelpers, State.setArch_cw]; rfl
  frame := ⟨fun _ => rfl, fun _ => ⟨rfl, rfl⟩, rfl, rfl, rfl, rfl, fun v hv => (State.setWarp_warp ..).trans (if_neg hv), by
    rw [zeroHelpers, State.setArch_arch, WarpArch.setVs_frame]⟩
  helpers r l hl hout := by
    unfold State.vreg zeroHelpers
    rw [State.setArch_arch, State.setArch_free]
    refine WarpArch.getV_setVs_other hl (fun e he => hasLane_lt ((mem_zeroWrites ..).mp he).2.1) (fun v hv => hout ?_) _ _
    obtain ⟨⟨k, hk, hr⟩, hlane, -⟩ := (mem_zeroWrites ..).mp hv
    dsimp only at hr hlane
    exact ⟨by omega, by omega, hsub l hlane⟩

theorem zeroHelpers_vreg (s : State) (d : BitVec 8) {regs : Nat} {lanes : Lanes} {k l : Nat} (hk : k < regs) (hl : hasLane lanes l = true) :
    (zeroHelpers s d regs lanes).vreg (d.toNat + k) l = 0 := by
  unfold State.vreg zeroHelpers
  rw [State.setArch_arch, State.setArch_free]
  exact WarpArch.getV_setVs_of_mem (hasLane_lt hl) (fun e he => hasLane_lt ((mem_zeroWrites ..).mp he).2.1)
    ((mem_zeroWrites ..).mpr ⟨⟨k, hk, rfl⟩, hl, rfl⟩) (fun x hx => ((mem_zeroWrites ..).mp hx).2.2) _ _

/-! ### New accesses (R132) -/

/-- Numbering leaves what an access asks for. -/
theorem mem_numberAccesses {s : State} {cs : List Access} {id : Nat} {e : Access} (h : e ∈ numberAccesses s cs id) :
    ∃ c, c ∈ cs ∧ e = { c with id := e.id, lanes := e.lanes, unit := e.unit, slotVec := e.slotVec, snap := e.snap } := by
  induction cs generalizing id with
  | nil => cases h
  | cons c cs ih =>
    rcases List.mem_cons.mp h with rfl | h
    · exact ⟨c, List.mem_cons_self, rfl⟩
    · obtain ⟨c', hc', he⟩ := ih h
      exact ⟨c', List.mem_cons_of_mem _ hc', he⟩

theorem exists_numberAccesses {s : State} {cs : List Access} {c : Access} (h : c ∈ cs) (id : Nat) :
    ∃ e, e ∈ numberAccesses s cs id ∧ e = { c with id := e.id, lanes := e.lanes, unit := e.unit, slotVec := e.slotVec, snap := e.snap } := by
  induction cs generalizing id with
  | nil => cases h
  | cons c' cs ih =>
    rcases List.mem_cons.mp h with rfl | h
    · exact ⟨_, List.mem_cons_self, rfl⟩
    · obtain ⟨e, he, heq⟩ := ih h (id + 1)
      exact ⟨e, List.mem_cons_of_mem _ he, heq⟩

theorem countOp_frame (a : WarpArch) (u id : Nat) : countOp a u id = { a with insts := (countOp a u id).insts } := rfl

theorem foldl_countOp_frame (es : List Access) (a : WarpArch) (u : Nat) :
    es.foldl (fun a e => countOp a u e.id) a = { a with insts := (es.foldl (fun a e => countOp a u e.id) a).insts } := by
  induction es generalizing a with
  | nil => rfl
  | cons e es ih => rw [List.foldl_cons, ih, countOp_frame]

/-- The accesses are outstanding, and one issue counts on the path when a selected lane takes part. -/
theorem handedOut_pushAccesses (s : State) (cs : List Access) (path : Nat) (counted : Bool) (d n : Nat) :
    HandedOut id s (pushAccesses s cs path counted) (numberAccesses s cs s.cw.nextId)
      (if counted && !cs.isEmpty then [path] else []) d n := by
  unfold pushAccesses
  split
  · next h =>
    have hcs : cs = [] := by
      cases cs with
      | nil => rfl
      | cons c cs => cases h
    rw [h, hcs, List.isEmpty_nil, Bool.not_true, Bool.and_false]
    exact .refl id s d n
  · next c rest h =>
    extract_lets x new a
    have hne : (!cs.isEmpty) = true := by
      cases cs with
      | nil => cases h
      | cons c cs => rfl
    rw [h, hne, Bool.and_true]
    refine handedOut_setCw s d n rfl (fun p => ?_) ?_
    · cases counted
      · rfl
      · simp only [pathCount, if_true, List.countP_append, x, List.count, List.countP_singleton]
    · show a = { s.arch with insts := a.insts }
      simp only [a]
      split
      · exact foldl_countOp_frame _ _ _
      · rfl

end Sys2Proof.Machine
end

section
/-! The vector accesses to global memory (R113 to R127) as their forms: what their slots check and hand out. -/

namespace Sys2Proof.Machine

open Sys2Proof.Claim

/-! ### Slots with a joined fence (R130, R131) -/

theorem withFence_release {s : State} {order : BitVec 2} (scope : BitVec 3) (issue : State → State) (h : order = 2)
    (hf : s.unit.fenced = false) : withFence s order scope issue = s.hold (.fenceRel scope) := by
  simp only [withFence, h, hf, Bool.not_false, and_self, if_true]

/-- Once its release is done, an access that has not been handed out is. -/
theorem withFence_issue {s : State} {order : BitVec 2} {scope : BitVec 3} {issue : State → State}
    (hrel : order = 2 → s.unit.fenced = true) (hi : s.unit.issued = false) :
    withFence s order scope issue = if (issue s).cur.status = .ok ∧ order = 1 then
        ((issue s).setUnit (fun v => { v with issued := true, fenced := false })).hold (.fenceAcq scope) else issue s := by
  have h2 : ¬ (order = 2 ∧ (!s.unit.fenced) = true) := fun h => by rw [hrel h.1] at h; exact absurd h.2 (by decide)
  simp only [withFence, h2, hi, if_false, Bool.not_false, if_true, Bool.and_eq_true, beq_iff_eq]

theorem withFence_relaxed {s : State} (scope : BitVec 3) (issue : State → State) (hi : s.unit.issued = false) :
    withFence s 0 scope issue = issue s :=
  (withFence_issue (fun h => absurd h (by decide)) hi).trans (if_neg fun h => absurd h.2 (by decide))

theorem withFence_acquire {s : State} {order : BitVec 2} (scope : BitVec 3) (issue : State → State) (h : order = 1)
    (hi : s.unit.issued = true) :
    withFence s order scope issue = if s.unit.fenced then s else s.hold (.fenceAcq scope) := by
  cases hf : s.unit.fenced <;> simp [withFence, h, hi, hf]

/-! ### What a form hands out -/

/-- The destination of a form's data. -/
def formDest (f : AccessForm) : Option AccDest := f.dest.map (fun d => ⟨false, d.1.toNat, f.size, d.2⟩)

/-- The first register and the number of registers that a form's helpers may find changed. -/
def formReg (f : AccessForm) : Nat := f.dest.elim 0 (fun d => d.1.toNat)
def formRegs (f : AccessForm) : Nat := if f.dest.isSome then f.destRegs else 0

/-- The helpers that receive 0: those of a load without a part, and all of an atomic. -/
def idleLanes (f : AccessForm) (s : State) (parts : List AccPart) : Lanes :=
  if f.kind = .load then idleHelpers s parts else s.cur.helpers

def zeroIdle (f : AccessForm) (s : State) (parts : List AccPart) : State :=
  match f.dest with
  | none => s
  | some d => zeroHelpers s d.1 f.destRegs (idleLanes f s parts)

/-- The access of a global load or atomic. -/
def formAccess (f : AccessForm) (bank : Option Nat) (parts : List AccPart) : Access :=
  { newAccess f.kind bank (formDest f) f.scope parts with count := f.count, useL1 := f.useL1 }

/-- The parts of a global access handed out: a store's posted or cached, else one access after the idle helpers have received 0. -/
def handGlobal (f : AccessForm) (s : State) (parts : List AccPart) : State :=
  match f.dest with
  | none => pushStores s f.kind (f.kind != .store 0) f.scope parts
  | some _ =>
    if parts.isEmpty then zeroIdle f s parts
    else requestSectors (pushAccesses (zeroIdle f s parts) [formAccess f none parts] 2 (f.kind != .load || s.cur.guard != 0))
      (f.kind != .load) parts

/-- A global access that has not been handed out, in whole or for some lanes. -/
def globalIssue (f : AccessForm) (s : State) : State :=
  onVerdict (f.placed s).2 (f.kind != .load) (f.placed s).1 (fun t =>
    pathRoom t f.path (t.cur.guard != 0) (fun t => handGlobal f t (formParts f s (f.placed s).1)))

/-! ### The instructions are their forms -/

theorem placed_eq (f : AccessForm) (s : State) :
    f.placed s = placeGlobal s (if f.kind = .load then .load else .store) (if f.split then 1 else f.size) (f.pieces s) := rfl

theorem globalLoad_eq (s : State) (f : AccessForm) (o : VmOp) (x : Option MemX) (hkind : f.kind = .load) (hsize : f.size = sizeBytes o.size)
    (haddr : f.addr = fun s => laneAddr s o.base o.a (memOff o x)) (hdata : f.data = none) (hexp : f.expect = none)
    (hdest : f.dest = some (o.d, !o.m.getLsbD 0)) :
    globalLoad s o x f.split f.useL1 f.count f.scope = globalIssue f s := by
  have hpieces := vmPieces_eq s f o x hsize (fun l => by rw [haddr])
  rw [hkind, decide_eq_true rfl] at hpieces
  simp only [globalLoad, globalIssue, placed_eq, hkind, if_true, hpieces, hsize, formParts, hdata, hexp, laneData, AccessForm.path, hdest,
    Option.isSome_some, handGlobal, zeroIdle, idleLanes, AccessForm.destRegs, sizeRegs, formAccess, formDest, Option.map_some, bne_self_eq_false,
    Bool.false_or]

theorem globalStoreOp_eq {s : State} (f : AccessForm) (o : VmOp) (x : Option MemX) (hfe : s.unit.fe = 0) (hkind : f.kind ≠ .load)
    (hsize : f.size = sizeBytes o.size) (haddr : f.addr = fun s => laneAddr s o.base o.a (memOff o x)) (hdata : f.data = some o.d)
    (hexp : f.expect = none) (hdest : f.dest = none) (hscope : f.scope = memScope 3 x) :
    globalStoreOp s o x f.split f.kind (f.kind != .store 0) = globalIssue f s := by
  have hpieces := vmPieces_eq s f o x hsize (fun l => by rw [haddr])
  rw [decide_eq_false hkind] at hpieces
  have hregs : ∀ l, regBytes s o.d (sizeBytes o.size) l = laneData s (some o.d) (sizeBytes o.size) l := fun l =>
    regBytes_eq_laneData s o.d l (sizeBytes_wholeRegs _)
  simp only [globalStoreOp, globalIssue, placed_eq, hfe, if_true, if_neg hkind, hpieces, hregs, formParts, hdata, hexp, AccessForm.path, hdest,
    Option.isSome_none, handGlobal, ← hscope, hsize, bne_iff_ne.mpr hkind]
  rfl

theorem globalAtomic_eq (s : State) (f : AccessForm) (d : BitVec 8) {data expect : Nat → List Byte} (hkind : f.kind ≠ .load)
    (hsplit : f.split = false) (hdata : ∀ l, data l = laneData s f.data f.size l) (hexp : ∀ l, expect l = laneData s f.expect f.size l)
    (hdest : f.dest = some (d, true)) (hcount : f.count = none) (hl1 : f.useL1 = false) :
    globalAtomic s f.kind f.scope d f.size (f.pieces s) data expect = globalIssue f s := by
  simp only [globalAtomic, globalIssue, placed_eq, if_neg hkind, hsplit, funext hdata, funext hexp, formParts, AccessForm.path, hdest,
    Option.isSome_some, handGlobal, zeroIdle, idleLanes, AccessForm.destRegs, sizeRegs, formAccess, formDest, Option.map_some, hcount, hl1,
    bne_iff_ne.mpr hkind, Bool.true_or]
  rfl

theorem vmAtomic_eq (s : State) (o : VmOp) (x : Option MemX) (op : Nat) :
    vmAtomic s o x op = .next (withFence s (atomicForm op o x 3).order (atomicForm op o x 3).scope (globalIssue (atomicForm op o x 3))) := by
  refine congrArg (fun g => Host.Outcome.next (withFence s _ _ g)) (funext fun t => ?_)
  have hpieces := vmPieces_eq t (atomicForm op o x 3) o x rfl (fun _ => rfl)
  rw [← globalAtomic_eq t (atomicForm op o x 3) o.d (by intro h; cases h) rfl
    (fun l => regBytes_eq_laneData t o.d l (sizeBytes_wholeRegs _)) (fun _ => rfl) rfl rfl rfl, ← hpieces]
  rfl

theorem casSize_wholeRegs (z : BitVec 2) : WholeRegs (4 * 2 ^ z.toNat) := .inr (.inr (Nat.mul_mod_right ..))

/-- A global access is its form's issue under the fence that its order joins; LDC has no order. -/
theorem exec_globalForm {i : Instr} {f : AccessForm} (hi : globalForm i = some f) :
    ∃ issue : State → State, (∀ s, s.unit.fe = 0 → issue s = globalIssue f s)
      ∧ ∀ s, f.order ≠ 0 ∨ s.unit.issued = false → exec i s = .next (withFence s f.order f.scope issue) := by
  simp only [globalForm] at hi
  split at hi
  case h_16 => cases hi
  all_goals cases hi
  case h_1 o x | h_2 o x =>
    exact ⟨_, fun s _ => globalLoad_eq s _ o x rfl rfl rfl rfl rfl rfl, fun s _ => rfl⟩
  case h_3 o count off =>
    refine ⟨_, fun s _ => rfl, fun s hs => ?_⟩
    have hissued : s.unit.issued = false := hs.resolve_left fun h => h rfl
    exact congrArg Host.Outcome.next ((globalLoad_eq s { loadForm o (some ⟨0, 3, off.signExtend 13⟩) 3 with count := some count } o
      (some ⟨0, 3, off.signExtend 13⟩) rfl rfl rfl rfl rfl rfl).trans (withFence_relaxed 3 _ hissued).symm)
  case h_4 o x | h_5 o x | h_6 o x | h_7 o x =>
    exact ⟨_, fun s hs => globalStoreOp_eq _ o x hs (by intro h; cases h) rfl rfl rfl rfl rfl rfl, fun s _ => rfl⟩
  case h_8 o x | h_9 o x | h_10 o x | h_11 o x | h_12 o x | h_13 o x | h_14 o x =>
    exact ⟨_, fun s _ => rfl, fun s _ => vmAtomic_eq s o x _⟩
  case h_15 d a b x =>
    refine ⟨_, fun s _ => rfl, fun s _ => congrArg (fun g => Host.Outcome.next (withFence s _ _ g)) (funext fun t => ?_)⟩
    rw [casPieces_eq t d a b x]
    exact globalAtomic_eq t (casForm d a b x) d (by intro h; cases h) rfl
      (fun l => regBytes_eq_laneData t d l (casSize_wholeRegs _)) (fun l => regBytes_eq_laneData t b l (casSize_wholeRegs _)) rfl rfl rfl

end Sys2Proof.Machine
end

section
/-! Global accesses that may issue (R113 to R127): what they hand out, and the statements about them. -/

namespace Sys2Proof.Machine

open Sys2Proof.Claim

/-! ### Units of the issuing warp -/

theorem modAt_eq_self {α : Type} {xs : List α} {k : Nat} {f : α → α} (h : ∀ v, xs[k]? = some v → f v = v) : modAt xs k f = xs := by
  refine List.ext_getElem? fun j => ?_
  rw [getElem?_modAt]
  split
  · next hj =>
    subst hj
    cases hx : xs[j]? with
    | none => rfl
    | some v => rw [Option.map_some, h v hx]
  · rfl

theorem unit_of_getElem? {x : Warp} {u : Nat} {v : IUnit} (h : x.arch.units[u]? = some v) : x.unit u = v := by
  rw [Warp.unit, h]; rfl

/-- The lanes still to store are none already. -/
theorem setUnit_fe_handedOut {s : State} (h : s.unit.fe = 0) (d n : Nat) :
    HandedOut id s (s.setUnit (fun v => { v with fe := 0 })) [] [] d n := by
  have hx : s.cw.setUnit s.cur.u (fun v => { v with fe := 0 }) = s.cw := by
    have := modAt_eq_self (xs := s.cw.arch.units) (k := s.cur.u) (f := fun v => { v with fe := 0 }) fun v hv => by
      have hfe : v.fe = 0 := by rw [← unit_of_getElem? hv]; exact h
      rw [← hfe]
    rw [Warp.setUnit, this]
  refine handedOut_setCw s d n ?_ (fun p => ?_) ?_
  · rw [hx, List.append_nil]
  · rw [hx]; rfl
  · rw [hx]; rfl

/-! ### Stores (R125) -/

/-- The accesses of a store: a cached one for the parts homed in this module, a posted one for the others. -/
def storeAccesses (s : State) (kind : AccKind) (posted : Bool) (scope : BitVec 3) (parts : List AccPart) : List Access :=
  let near := parts.filter (fun p => !posted && moduleOf s.sys p.addr == s.sys.modid.toNat)
  let far := parts.filter (fun p => posted || moduleOf s.sys p.addr != s.sys.modid.toNat)
  (if near.isEmpty then [] else [newAccess kind none none scope near])
    ++ (if far.isEmpty then [] else [postedAccess (if posted then kind else .posted) scope far])

theorem mem_storeAccesses {s : State} {kind : AccKind} {posted : Bool} {scope : BitVec 3} {parts : List AccPart} {c : Access}
    (h : c ∈ storeAccesses s kind posted scope parts) :
    (c.kind = kind ∨ (posted = false ∧ c.kind = .posted)) ∧ c.scope = scope ∧ c.count = none ∧ c.useL1 = false ∧ c.dest = none
      ∧ ∀ p, p ∈ c.parts → p ∈ parts := by
  rcases List.mem_append.mp h with h | h
  · split at h
    · cases h
    · rcases List.mem_singleton.mp h with rfl
      exact ⟨.inl rfl, rfl, rfl, rfl, rfl, fun p hp => (List.mem_filter.mp hp).1⟩
  · split at h
    · cases h
    · rcases List.mem_singleton.mp h with rfl
      refine ⟨?_, rfl, rfl, rfl, rfl, fun p hp => (List.mem_filter.mp hp).1⟩
      cases posted
      · exact .inr ⟨rfl, rfl⟩
      · exact .inl rfl

theorem part_mem_storeAccesses (s : State) (kind : AccKind) (posted : Bool) (scope : BitVec 3) {parts : List AccPart} {p : AccPart}
    (h : p ∈ parts) : ∃ c, c ∈ storeAccesses s kind posted scope parts ∧ p ∈ c.parts := by
  unfold storeAccesses
  extract_lets near far
  cases hnear : (!posted && moduleOf s.sys p.addr == s.sys.modid.toNat) with
  | true =>
    have hp : p ∈ near := List.mem_filter.mpr ⟨h, hnear⟩
    refine ⟨newAccess kind none none scope near, List.mem_append_left _ ?_, hp⟩
    rw [if_neg (by simpa using List.ne_nil_of_mem hp)]
    exact List.mem_singleton.mpr rfl
  | false =>
    have hp : p ∈ far := List.mem_filter.mpr ⟨h, by
      rw [bne, ← Bool.not_not (b := posted), ← Bool.not_and, hnear]; rfl⟩
    refine ⟨postedAccess (if posted then kind else .posted) scope far, List.mem_append_right _ ?_, hp⟩
    rw [if_neg (by simpa using List.ne_nil_of_mem hp)]
    exact List.mem_singleton.mpr rfl

theorem handOut_handedOut (s : State) (kind : AccKind) (posted : Bool) (scope : BitVec 3) {parts : List AccPart} (hne : parts ≠ []) (d n : Nat) :
    HandedOut unstage s (handOut s kind posted scope parts true)
      (numberAccesses s (storeAccesses s kind posted scope parts) s.cw.nextId) [3] d n := by
  have hcs : (storeAccesses s kind posted scope parts).isEmpty = false := by
    obtain ⟨p, hp⟩ := List.exists_mem_of_ne_nil _ hne
    obtain ⟨c, hc, -⟩ := part_mem_storeAccesses s kind posted scope hp
    simpa using List.ne_nil_of_mem hc
  have hpush := handedOut_pushAccesses s (storeAccesses s kind posted scope parts) 3 true d n
  rw [hcs] at hpush
  have hreq := (hpush.of_exact unstage).trans (.of_tokensMove unstage d n (requestSectors_tokensMove _ true
    (parts.filter (fun p => !posted && moduleOf s.sys p.addr == s.sys.modid.toNat))))
  rw [List.append_nil, List.append_nil] at hreq
  refine hreq.postsLeave ?_
  rw [hreq.cur]
  exact flushPosted_postsLeave ..

/-- A store that the touched table has room for. -/
theorem pushStores_handedOut {s : State} (kind : AccKind) (posted : Bool) (scope : BitVec 3) {parts : List AccPart} (hne : parts ≠ [])
    (hfe : s.unit.fe = 0) (hfull : touchedFull s parts = false) (d n : Nat) :
    ∃ u id, HandedOut unstage s (pushStores s kind posted scope parts)
      (numberAccesses u (storeAccesses u kind posted scope parts) id) [3] d n := by
  refine ⟨s.setUnit (fun v => { v with fe := 0 }), (s.setUnit (fun v => { v with fe := 0 })).cw.nextId, ?_⟩
  have heq : pushStores s kind posted scope parts = handOut (s.setUnit (fun v => { v with fe := 0 })) kind posted scope parts true := by
    simp only [pushStores, List.isEmpty_iff, hne, if_false, hfull, Bool.not_false, if_true]
  rw [heq]
  exact ((setUnit_fe_handedOut hfe d n).of_exact unstage).trans (handOut_handedOut _ kind posted scope hne d n)

/-! ### The accesses of a form -/

/-- Accesses of a form that hold all its parts and no others. -/
def Offers (f : AccessForm) (parts : List AccPart) (new : List Access) : Prop :=
  (∀ c, c ∈ new → (c.kind = f.kind ∨ (f.kind = .store 0 ∧ c.kind = .posted)) ∧ c.scope = f.scope ∧ c.count = f.count
      ∧ c.useL1 = f.useL1 ∧ c.dest = formDest f ∧ ∀ p, p ∈ c.parts → p ∈ parts)
    ∧ ∀ p, p ∈ parts → ∃ c, c ∈ new ∧ p ∈ c.parts

theorem offers_number {f : AccessForm} {parts : List AccPart} {cs : List Access} (h : Offers f parts cs) (s : State) (id : Nat) :
    Offers f parts (numberAccesses s cs id) := by
  obtain ⟨hform, hall⟩ := h
  constructor
  · intro e he
    obtain ⟨c, hc, heq⟩ := mem_numberAccesses he
    rw [heq]
    exact hform c hc
  · intro p hp
    obtain ⟨c, hc, hpc⟩ := hall p hp
    obtain ⟨e, he, heq⟩ := exists_numberAccesses (s := s) hc id
    exact ⟨e, he, by rw [heq]; exact hpc⟩

theorem handsOut_of_offers {f : AccessForm} {s : State} {placed : List Placed} {new : List Access} (hps : placed.map (·.1) = f.pieces s)
    (hn : ChecksNamed placed) (hv : verdict placed = .pass) (hdis : s.cur.guard &&& s.cur.helpers = 0)
    (h : Offers f (formParts f s placed) new) : HandsOut f s placed new := by
  obtain ⟨hform, hall⟩ := h
  refine ⟨fun c hc => ?_, fun l k hl hk => carries_of_lane hps (.inl hl) (ok_of_guard hps hn hv hdis hl) hall hk⟩
  obtain ⟨hkind, hscope, hcount, hl1, hdest, hparts⟩ := hform c hc
  exact ⟨hkind, hscope, hcount, hl1, hdest, fun p hp => (mem_parts hps (hparts p hp)).2.1⟩

/-- What holds of every form of a global access. -/
structure GlobalShape (f : AccessForm) : Prop where
  pos : 0 < f.size
  store : f.dest = none → (f.kind = .store 0 ∨ isPosted f.kind = true) ∧ f.count = none ∧ f.useL1 = false

theorem globalForm_shape {i : Instr} {f : AccessForm} (hi : globalForm i = some f) : GlobalShape f := by
  simp only [globalForm] at hi
  split at hi
  case h_16 => cases hi
  all_goals cases hi
  case h_1 o x | h_2 o x => exact ⟨sizeBytes_pos _, fun h => by cases h⟩
  case h_3 o count off => exact ⟨sizeBytes_pos _, fun h => by cases h⟩
  case h_4 o x | h_5 o x => exact ⟨sizeBytes_pos _, fun _ => ⟨.inl rfl, rfl, rfl⟩⟩
  case h_6 o x | h_7 o x => exact ⟨sizeBytes_pos _, fun _ => ⟨.inr rfl, rfl, rfl⟩⟩
  case h_8 o x | h_9 o x | h_10 o x | h_11 o x | h_12 o x | h_13 o x | h_14 o x => exact ⟨sizeBytes_pos _, fun h => by cases h⟩
  case h_15 d a b x => exact ⟨Nat.mul_pos (by decide) (Nat.two_pow_pos _), fun h => by cases h⟩

theorem load_has_dest {f : AccessForm} (h : GlobalShape f) (hd : f.dest = none) : f.kind ≠ .load := by
  intro hk
  rcases (h.store hd).1 with h | h <;> rw [hk] at h <;> cases h

theorem offers_storeAccesses {f : AccessForm} (h : GlobalShape f) (hd : f.dest = none) (s : State) (parts : List AccPart) :
    Offers f parts (storeAccesses s f.kind (f.kind != .store 0) f.scope parts) := by
  obtain ⟨hkind, hcount, hl1⟩ := h.store hd
  refine ⟨fun c hc => ?_, fun p hp => part_mem_storeAccesses s _ _ _ hp⟩
  obtain ⟨hk, hscope, hc0, hl0, hdest, hparts⟩ := mem_storeAccesses hc
  refine ⟨?kind, hscope, hc0.trans hcount.symm, hl0.trans hl1.symm, ?dest, hparts⟩
  case kind => exact hk.imp_right fun ⟨hp, hk⟩ => ⟨by simpa using hp, hk⟩
  case dest => rw [hdest, formDest, hd]; rfl

theorem offers_formAccess (f : AccessForm) (bank : Option Nat) (parts : List AccPart) : Offers f parts [formAccess f bank parts] :=
  ⟨fun c hc => by rcases List.mem_singleton.mp hc with rfl; exact ⟨.inl rfl, rfl, rfl, rfl, rfl, fun _ hp => hp⟩,
    fun p hp => ⟨_, List.mem_cons_self, hp⟩⟩

/-! ### Idle helpers (R115) -/

theorem HandedOut.widen {view : Access → Access} {s t : State} {new : List Access} {paths : List Nat}
    (h : HandedOut view s t new paths 0 0) (d n : Nat) : HandedOut view s t new paths d n :=
  { h with helpers := fun r l hl _ => h.helpers r l hl (by omega) }

theorem HandedOut.vreg {view : Access → Access} {s t : State} {new : List Access} {paths : List Nat}
    (h : HandedOut view s t new paths 0 0) (r : Nat) {l : Nat} (hl : l < 64) : t.vreg r l = s.vreg r l := h.helpers r l hl (by omega)

theorem hasLane_idleHelpers (s : State) (parts : List AccPart) (l : Nat) :
    hasLane (idleHelpers s parts) l = true ↔ hasLane s.cur.helpers l = true ∧ ∀ p, p ∈ parts → p.lane ≠ l := by
  rw [idleHelpers, hasLane_filterLanes, Bool.and_eq_true, Bool.not_eq_true', ← Bool.not_eq_true, List.any_eq_true]
  simp only [beq_iff_eq, not_exists, not_and, ne_eq]

theorem idleLanes_helpers {f : AccessForm} {s : State} {parts : List AccPart} {l : Nat} (h : hasLane (idleLanes f s parts) l = true) :
    hasLane s.cur.helpers l = true := by
  unfold idleLanes at h
  split at h
  · exact ((hasLane_idleHelpers ..).mp h).1
  · exact h

theorem zeroIdle_handedOut (f : AccessForm) (s : State) (parts : List AccPart) :
    HandedOut id s (zeroIdle f s parts) [] [] (formReg f) (formRegs f) := by
  unfold zeroIdle formReg formRegs
  cases hd : f.dest with
  | none => exact .refl ..
  | some d => exact handedOut_zeroHelpers s d.1 f.destRegs fun l => idleLanes_helpers

theorem zeroIdle_vreg {f : AccessForm} {s : State} {parts : List AccPart} {d : BitVec 8 × Bool} {k l : Nat} (hd : f.dest = some d)
    (hl : hasLane (idleLanes f s parts) l = true) (hk : k < f.destRegs) : (zeroIdle f s parts).vreg (d.1.toNat + k) l = 0 := by
  rw [zeroIdle, hd]
  exact zeroHelpers_vreg s d.1 hk hl

/-! ### The issue -/

/-- An issue without parts leaves only the idle helpers' destination changed. -/
theorem handGlobal_nil (f : AccessForm) (s : State) : handGlobal f s [] = zeroIdle f s [] := by
  unfold handGlobal zeroIdle
  cases f.dest <;> rfl

/-- Once its checks have passed and its paths have room, a global access hands out its parts. -/
theorem handGlobal_handedOut {f : AccessForm} (hshape : GlobalShape f) (s : State) {parts : List AccPart} (hfe : s.unit.fe = 0)
    (hsel : s.cur.guard ≠ 0 → parts ≠ []) (hnone : f.kind ≠ .load → s.cur.guard = 0 → parts = [])
    (hfull : f.dest = none → s.cur.guard ≠ 0 → touchedFull s parts = false) :
    ∃ new, HandedOut unstage (zeroIdle f s parts) (handGlobal f s parts) new (if s.cur.guard = 0 then [] else [f.path]) 0 0
      ∧ Offers f parts new ∧ (parts = [] → new = []) := by
  by_cases hparts : parts = []
  · rw [hparts, handGlobal_nil, if_pos (by_contra fun hg => hsel hg hparts)]
    exact ⟨[], .refl .., ⟨fun _ hc => (List.not_mem_nil hc).elim, fun _ hp => (List.not_mem_nil hp).elim⟩, fun _ => rfl⟩
  · cases hd : f.dest with
    | none =>
      have hg : s.cur.guard ≠ 0 := fun hg => hparts (hnone (load_has_dest hshape hd) hg)
      obtain ⟨u, id, h⟩ := pushStores_handedOut f.kind (f.kind != .store 0) f.scope hparts hfe (hfull hd hg) 0 0
      refine ⟨_, ?_, offers_number (offers_storeAccesses hshape hd u parts) u id, fun h => absurd h hparts⟩
      rw [if_neg hg, handGlobal, hd, zeroIdle, hd, AccessForm.path, hd]
      exact h
    | some d =>
      have hcounted : (if (f.kind != .load || s.cur.guard != 0) && !List.isEmpty [formAccess f none parts] then [2] else [])
          = if s.cur.guard = 0 then [] else [2] := by
        by_cases hg : s.cur.guard = 0
        · have hload : f.kind = .load := by_contra fun hk => hparts (hnone hk hg)
          simp [hg, hload]
        · rw [if_neg hg, bne_iff_ne.mpr hg, Bool.or_true]; rfl
      have hpush := handedOut_pushAccesses (zeroIdle f s parts) [formAccess f none parts] 2 (f.kind != .load || s.cur.guard != 0) 0 0
      rw [hcounted] at hpush
      have hreq := (hpush.of_exact unstage).trans (.of_tokensMove unstage 0 0 (requestSectors_tokensMove _ (f.kind != .load) parts))
      rw [List.append_nil, List.append_nil] at hreq
      rw [handGlobal, hd, if_neg (by simpa using hparts), AccessForm.path, hd]
      exact ⟨_, hreq, offers_number (offers_formAccess f none parts) _ _, fun h => absurd h hparts⟩

theorem placed_pieces (f : AccessForm) (s : State) : (f.placed s).1.map (·.1) = f.pieces s := placeGlobal_pieces ..

theorem placed_checksNamed (f : AccessForm) (s : State) : ChecksNamed (f.placed s).1 := placeGlobal_fail _ s _ _

theorem placed_tokensMove (f : AccessForm) (s : State) : TokensMove s (f.placed s).2 := placeGlobal_tokensMove ..

theorem onVerdict_pass {s : State} {write : Bool} {ps : List Placed} (go : State → State) (h : verdict ps = .pass) :
    onVerdict s write ps go = go s := by rw [onVerdict, h]

theorem pathRoom_go {s : State} {path : Nat} {counted : Bool} (go : State → State) (h : counted = true → pathCount s.cw path < 63) :
    pathRoom s path counted go = go s := by
  unfold pathRoom
  rw [if_neg]
  intro hc
  obtain ⟨hc, hfull⟩ := Bool.and_eq_true_iff.mp hc
  exact absurd (h hc) (Nat.not_lt.mpr (of_decide_eq_true hfull))

/-- A lane of a nonzero mask. -/
theorem exists_lane {m : Lanes} (h : m ≠ 0) : ∃ l, hasLane m l = true := by
  by_contra hno
  exact h ((eq_zero_iff_no_lane m).mpr fun l hl => hno ⟨l, hl⟩)

/-- A global access whose checks pass and whose path has room: what it hands out, and which helpers receive 0. -/
theorem globalIssue_handedOut {f : AccessForm} (hshape : GlobalShape f) {s : State} (hfe : s.unit.fe = 0)
    (hdis : s.cur.guard &&& s.cur.helpers = 0) (hv : verdict (f.placed s).1 = .pass)
    (hroom : s.cur.guard ≠ 0 → pathCount s.cw f.path < 63)
    (hfull : f.dest = none → s.cur.guard ≠ 0 → touchedFull (f.placed s).2 (formParts f s (f.placed s).1) = false) :
    ∃ new, HandedOut unstage s (globalIssue f s) new (if s.cur.guard = 0 then [] else [f.path]) (formReg f) (formRegs f)
      ∧ Offers f (formParts f s (f.placed s).1) new ∧ (f.kind ≠ .load → s.cur.guard = 0 → new = [])
      ∧ ∀ d k l, f.dest = some d → hasLane (idleLanes f s (formParts f s (f.placed s).1)) l = true → k < f.destRegs →
        (globalIssue f s).vreg (d.1.toNat + k) l = 0 := by
  have hps := placed_pieces f s
  have hn := placed_checksNamed f s
  have hmove := placed_tokensMove f s
  generalize hpl : (f.placed s).1 = placed at *
  generalize hmv : (f.placed s).2 = t at *
  have hissue : globalIssue f s = handGlobal f t (formParts f s placed) := by
    rw [globalIssue, hpl, hmv, onVerdict_pass _ hv, pathRoom_go]
    intro hc
    rw [hmove.cw]
    exact hroom (by rw [← hmove.cur]; exact bne_iff_ne.mp hc)
  have hsel : t.cur.guard ≠ 0 → formParts f s placed ≠ [] := fun hg => by
    rw [hmove.cur] at hg
    obtain ⟨l, hl⟩ := exists_lane hg
    obtain ⟨p, hp, -⟩ := part_of_lane hps hshape.pos (.inl hl) (ok_of_guard hps hn hv hdis hl)
    exact List.ne_nil_of_mem hp
  have hnone : f.kind ≠ .load → t.cur.guard = 0 → formParts f s placed = [] := fun hk hg => by
    rw [hmove.cur] at hg
    refine List.eq_nil_iff_forall_not_mem.mpr fun p hp => ?_
    rcases (mem_parts hps hp).1 with hl | ⟨hload, -⟩
    · rw [hg] at hl; exact absurd hl (by simp [hasLane])
    · exact hk hload
  obtain ⟨new, hand, hoffers, hempty⟩ := handGlobal_handedOut hshape t (hmove.unit ▸ hfe) hsel hnone (fun hd hg => hfull hd (hmove.cur ▸ hg))
  rw [hissue]
  refine ⟨new, ?_, hoffers, fun hk hg => hempty (hnone hk (hmove.cur ▸ hg)), fun d k l hd hl hk => ?_⟩
  · rw [hmove.cur] at hand
    exact (((HandedOut.of_tokensMove id _ _ hmove).trans (zeroIdle_handedOut f t (formParts f s placed))).of_exact unstage).trans
      (hand.widen _ _)
  · have hl' : hasLane (idleLanes f t (formParts f s placed)) l = true := by
      rw [idleLanes, idleHelpers, hmove.cur]; exact hl
    rw [hand.vreg _ (hasLane_lt hl')]
    exact zeroIdle_vreg hd hl' hk

end Sys2Proof.Machine
end

section
/-! A global access that may issue (R113 to R132). -/

namespace Sys2Proof.Machine

open Sys2Proof.Claim

/-- Once a joined release is done, a global access that has not been handed out is; an acquire then holds its slot. -/
theorem exec_global_fresh {i : Instr} {f : AccessForm} (hi : globalForm i = some f) {s : State} (hfresh : f.fresh s) :
    exec i s = .next (if (globalIssue f s).cur.status = .ok ∧ f.order = 1 then
      ((globalIssue f s).setUnit (fun v => { v with issued := true, fenced := false })).hold (.fenceAcq f.scope) else globalIssue f s) := by
  obtain ⟨hrel, hissued, hfe, -⟩ := hfresh
  obtain ⟨issue, hissue, hexec⟩ := exec_globalForm hi
  rw [hexec s (.inr hissued), withFence_issue hrel hissued, hissue s hfe]

theorem fresh_of_ready {f : AccessForm} {s : State} (h : f.ready s) : f.fresh s ∧ f.order ≠ 1 := by
  obtain ⟨horder, hrest⟩ := h
  rcases horder with h | ⟨h, hf⟩
  · exact ⟨⟨fun h2 => by rw [h] at h2; exact absurd h2 (by decide), hrest⟩, by rw [h]; decide⟩
  · exact ⟨⟨fun _ => hf, hrest⟩, by rw [h]; decide⟩

theorem exec_global_ready {i : Instr} {f : AccessForm} (hi : globalForm i = some f) {s : State} (hready : f.ready s) :
    exec i s = .next (globalIssue f s) := by
  obtain ⟨hfresh, horder⟩ := fresh_of_ready hready
  rw [exec_global_fresh hi hfresh, if_neg fun h => horder h.2]

/-- Without lanes an access has no pieces. -/
theorem pieces_nil {f : AccessForm} {s : State} (hg : s.cur.guard = 0) (hh : s.cur.helpers = 0) : f.pieces s = [] := by
  refine List.eq_nil_iff_forall_not_mem.mpr fun q hq => ?_
  rcases (mem_pieces_lane hq).1 with h | ⟨-, h⟩
  · rw [hg] at h; exact absurd h (by simp [hasLane])
  · rw [hh] at h; exact absurd h (by simp [hasLane])

theorem placed_nil {f : AccessForm} {s : State} (hg : s.cur.guard = 0) (hh : s.cur.helpers = 0) : f.placed s = ([], s) := by
  rw [placed_eq, pieces_nil hg hh, placeGlobal]

/-- Without lanes only the (absent) helpers' destination is written. -/
theorem globalIssue_nil {f : AccessForm} {s : State} (hg : s.cur.guard = 0) (hh : s.cur.helpers = 0) :
    globalIssue f s = zeroIdle f s [] := by
  have hv : verdict [] = .pass := rfl
  rw [globalIssue, placed_nil hg hh, onVerdict_pass _ hv, pathRoom_go _ (fun h => absurd hg (bne_iff_ne.mp h))]
  exact handGlobal_nil f s

/-- With no helpers, none receives 0. -/
theorem zeroIdle_handedOut_noHelpers (f : AccessForm) {s : State} (parts : List AccPart) (hh : s.cur.helpers = 0) :
    HandedOut id s (zeroIdle f s parts) [] [] 0 0 :=
  let h := zeroIdle_handedOut f s parts
  { h with helpers := fun r l hl _ => h.helpers r l hl fun ⟨_, _, hlane⟩ => by rw [hh] at hlane; exact absurd hlane (by simp [hasLane]) }

/-- A helper that offers no part receives 0 (R115). -/
theorem idleLane_of_not_offered {f : AccessForm} {s : State} {placed : List Placed} (hwait : ∀ q, q ∈ placed → q.2 ≠ .wait) {l : Nat}
    (hl : hasLane s.cur.helpers l = true)
    (h : ¬ (f.kind = .load ∧ ∀ q, q ∈ placed → q.1.lane = l → ∃ da ros, q.2 = .ok da ros)) :
    hasLane (idleLanes f s (formParts f s placed)) l = true := by
  unfold idleLanes
  split
  · next hk =>
    refine (hasLane_idleHelpers ..).mpr ⟨hl, fun p hp hlane => h ⟨hk, ?_⟩⟩
    exact hlane ▸ ok_of_part hwait hp
  · exact hl

/-- Settles O10: the form's issue hands out the parts of its placed pieces, which carry every byte of the lanes that pass. -/
theorem globalAccessIssue : Obligations.GlobalAccessIssue := by
  unfold Obligations.GlobalAccessIssue
  intro i f s _ hi hready _ hv
  have hexec := exec_global_ready hi hready
  obtain ⟨-, -, hfe, hdis⟩ := hready
  have hshape := globalForm_shape hi
  have hps := placed_pieces f s
  have hn := placed_checksNamed f s
  refine ⟨fun hg hroom hfull => ?selected, fun hg hh => ?nothing, fun hg => ?helpers⟩
  case selected =>
    obtain ⟨new, hand, hoffers, -⟩ := globalIssue_handedOut hshape hfe hdis hv (fun _ => hroom) (fun hd _ => hfull hd)
    rw [if_neg hg] at hand
    exact ⟨_, new, hexec, hand.cur, hand.accs, by rw [hand.count, List.count_singleton_self], handsOut_of_offers hps hn hv hdis hoffers,
      hand.frame, hand.helpers⟩
  case nothing =>
    have hand := zeroIdle_handedOut_noHelpers f [] hh
    rw [globalIssue_nil hg hh] at hexec
    exact ⟨_, hexec, hand.cur, by rw [hand.exact_accs, List.append_nil], hand.frame, hand.helpers⟩
  case helpers =>
    obtain ⟨new, hand, hoffers, hempty, hzero⟩ :=
      globalIssue_handedOut hshape hfe hdis hv (fun h => absurd hg h) (fun _ h => absurd hg h)
    rw [if_pos hg] at hand
    refine ⟨_, new, hexec, hand.cur, hand.accs, hand.count _, handsOut_of_offers hps hn hv hdis hoffers, fun hk => hempty hk hg,
      hand.frame, hand.helpers, fun d l hd _ hl => ⟨fun hoff k hk => ?_, fun hoff k hk => ?_⟩⟩
    · exact carries_of_lane hps (.inr ⟨hoff.1, hl⟩) hoff.2 hoffers.2 hk
    · exact hzero d k l hd (idleLane_of_not_offered (verdict_pass hn hv).1 hl hoff) hk

/-! ### The scalar slot (R120) -/

/-- The one part of a scalar access whose checks pass. -/
theorem scalar_placed {s : State} {need : Need} {align va size : Nat} (data : List Byte)
    (hv : verdict (placeGlobal s need align [⟨64, va, 0, size, false⟩]).1 = .pass) :
    ∃ da ros, (placeGlobal s need align [⟨64, va, 0, size, false⟩]).1 = [(⟨64, va, 0, size, false⟩, .ok da ros)]
      ∧ partsFrom (placeGlobal s need align [⟨64, va, 0, size, false⟩]).1 (fun _ => data) (fun _ => [])
        = [{ lane := 64, va := va, addr := da, off := 0, size := size, ros := ros, helper := false, data := data.take size, expect := [] }] := by
  obtain ⟨q, r, h⟩ : ∃ q r, (placeGlobal s need align [⟨64, va, 0, size, false⟩]).1 = [(q, r)] := by
    unfold placeGlobal
    split <;> exact ⟨_, _, rfl⟩
  have hq : q = ⟨64, va, 0, size, false⟩ := by
    have := placeGlobal_pieces [⟨64, va, 0, size, false⟩] s need align
    rw [h] at this
    exact (List.cons.inj this).1
  subst hq
  have hpass := verdict_pass (placeGlobal_fail _ s need align) hv
  rw [h] at hpass
  obtain ⟨da, ros, rfl⟩ := placed_ok (hpass.1 _ List.mem_cons_self) (hpass.2 _ List.mem_cons_self rfl)
  rw [h]
  exact ⟨da, ros, rfl, rfl⟩

theorem storeAccesses_singleton (s : State) (kind : AccKind) (posted : Bool) (scope : BitVec 3) (p : AccPart) :
    ∃ c, storeAccesses s kind posted scope [p] = [c] ∧ c.parts = [p] := by
  unfold storeAccesses
  extract_lets near far
  cases hnear : (!posted && moduleOf s.sys p.addr == s.sys.modid.toNat) with
  | true =>
    have hfar : (posted || moduleOf s.sys p.addr != s.sys.modid.toNat) = false := by
      rw [bne, ← Bool.not_not (b := posted), ← Bool.not_and, hnear]; rfl
    simp [near, far, hnear, hfar, newAccess]
  | false =>
    have hfar : (posted || moduleOf s.sys p.addr != s.sys.modid.toNat) = true := by
      rw [bne, ← Bool.not_not (b := posted), ← Bool.not_and, hnear]; rfl
    simp [near, far, hnear, hfar, newAccess, postedAccess]

/-- The address of a scalar access (R120). -/
def scalarVa (s : State) (a i6 : BitVec 6) : W64 := s.sreg a.toNat + BitVec.ofInt 64 (i6.toInt * 8)

/-- A scalar access whose guard passes, placed. -/
def scalarPlaced (s : State) (need : Need) (a i6 : BitVec 6) : List Placed × State :=
  placeGlobal s need 8 [⟨64, (scalarVa s a i6).toNat, 0, 8, false⟩]

/-- The access of LD in the scalar slot. -/
def scalarLoad (d : BitVec 6) (parts : List AccPart) : Access :=
  { newAccess .load none (some { scalar := true, reg := d.toNat, bytes := 8, signed := false }) 3 parts with useL1 := true }

theorem exec_sld {s : State} (d a i6 : BitVec 6) (hon : s.scalarOn = true) :
    exec (.sld d a i6) s = .next (onVerdict (scalarPlaced s .load a i6).2 false (scalarPlaced s .load a i6).1 (fun t =>
      pathRoom t 2 true (fun t => requestSectors
        (pushAccesses t [scalarLoad d (partsFrom (scalarPlaced s .load a i6).1 (fun _ => []) (fun _ => []))] 2 true) false
        (partsFrom (scalarPlaced s .load a i6).1 (fun _ => []) (fun _ => []))))) := by
  refine congrArg Host.Outcome.next ((if_pos hon).trans ?_)
  rw [scalarPlaced, scalarVa, ← scalarAddr_eq]
  rfl

theorem exec_sst {s : State} (d a i6 : BitVec 6) (hon : s.scalarOn = true) :
    exec (.sst d a i6) s = .next (onVerdict (scalarPlaced s .store a i6).2 true (scalarPlaced s .store a i6).1 (fun t =>
      pathRoom t 3 true (fun t => pushStores t (.store 0) false 3
        (partsFrom (scalarPlaced s .store a i6).1 (fun _ => leSplit 8 (t.sreg d.toNat).toNat) (fun _ => []))))) := by
  refine congrArg Host.Outcome.next ((if_pos hon).trans ?_)
  rw [scalarPlaced, scalarVa, ← scalarAddr_eq]
  rfl

/-- LD hands out its one part. -/
theorem sld_handedOut {s : State} {d a i6 : BitVec 6} (hon : s.scalarOn = true) (hv : verdict (scalarPlaced s .load a i6).1 = .pass)
    (hroom : pathCount s.cw 2 < 63) :
    ∃ t e, exec (.sld d a i6) s = .next t ∧ HandedOut unstage s t [e] [2] 0 0 ∧ e.kind = .load
      ∧ e.dest = some ⟨true, d.toNat, 8, false⟩
      ∧ e.parts = partsFrom (scalarPlaced s .load a i6).1 (fun _ => []) (fun _ => []) := by
  have hmove : TokensMove s (scalarPlaced s .load a i6).2 := placeGlobal_tokensMove ..
  rw [exec_sld d a i6 hon, onVerdict_pass _ hv, pathRoom_go _ fun _ => by rw [hmove.cw]; exact hroom]
  have hpush := ((HandedOut.of_tokensMove id 0 0 hmove).trans (handedOut_pushAccesses _
    [scalarLoad d (partsFrom (scalarPlaced s .load a i6).1 (fun _ => []) (fun _ => []))] 2 true 0 0)).trans
      (.of_tokensMove id 0 0 (requestSectors_tokensMove _ false (partsFrom (scalarPlaced s .load a i6).1 (fun _ => []) (fun _ => []))))
  exact ⟨_, _, rfl, hpush.of_exact unstage, rfl, rfl, rfl⟩

/-- ST hands out its one part. -/
theorem sst_handedOut {s : State} {d a i6 : BitVec 6} (hon : s.scalarOn = true) (hv : verdict (scalarPlaced s .store a i6).1 = .pass)
    (hroom : pathCount s.cw 3 < 63) (hfe : s.unit.fe = 0) {p : AccPart}
    (hp : partsFrom (scalarPlaced s .store a i6).1 (fun _ => leSplit 8 (s.sreg d.toNat).toNat) (fun _ => []) = [p])
    (hfull : touchedFull (scalarPlaced s .store a i6).2 [p] = false) :
    ∃ t e, exec (.sst d a i6) s = .next t ∧ HandedOut unstage s t [e] [3] 0 0 ∧ (e.kind = .store 0 ∨ e.kind = .posted)
      ∧ e.dest = none ∧ e.parts = [p] := by
  have hmove : TokensMove s (scalarPlaced s .store a i6).2 := placeGlobal_tokensMove ..
  rw [exec_sst d a i6 hon, onVerdict_pass _ hv, pathRoom_go _ fun _ => by rw [hmove.cw]; exact hroom, hmove.sreg, hp]
  obtain ⟨u, id, hand⟩ := pushStores_handedOut (.store 0) false 3 (List.cons_ne_nil p []) (hmove.unit ▸ hfe) hfull 0 0
  obtain ⟨c, hc, hparts⟩ := storeAccesses_singleton u (.store 0) false 3 p
  obtain ⟨hkind, -, -, -, hdest, -⟩ := mem_storeAccesses (hc ▸ List.mem_cons_self : c ∈ storeAccesses u (.store 0) false 3 [p])
  rw [hc] at hand
  exact ⟨_, _, rfl, (HandedOut.of_tokensMove unstage 0 0 hmove).trans hand, hkind.imp_right (·.2), hdest, hparts⟩

/-- Settles O12: the one piece of the slot, placed, is the one part of the access. -/
theorem scalarAccessIssue : Obligations.ScalarAccessIssue := by
  unfold Obligations.ScalarAccessIssue
  intro d a i6 load s i va placed path
  constructor
  · intro hoff
    cases load <;> exact congrArg Host.Outcome.next (if_neg (by rw [hoff]; decide))
  intro hon _ hv hroom hfe hfull
  cases load with
  | true =>
    obtain ⟨da, ros, hplaced, hparts⟩ := scalar_placed [] hv
    obtain ⟨t, e, hexec, hand, hkind, hdest, hp⟩ := sld_handedOut (d := d) hon hv hroom
    exact ⟨t, e, _, hexec, hand.cur, hand.accs, hand.count 2, hand.frame, hand.helpers, hp.trans hparts, rfl, rfl, rfl,
      ⟨_, hplaced ▸ List.mem_cons_self, rfl⟩, fun _ => ⟨hkind, hdest⟩, (by cases ·)⟩
  | false =>
    obtain ⟨da, ros, hplaced, hparts⟩ := scalar_placed (leSplit 8 (s.sreg d.toNat).toNat) hv
    obtain ⟨t, e, hexec, hand, hkind, hdest, hp⟩ :=
      sst_handedOut (d := d) hon hv hroom (hfe rfl) hparts (by rw [← hparts]; exact hfull rfl)
    exact ⟨t, e, _, hexec, hand.cur, hand.accs, hand.count 3, hand.frame, hand.helpers, hp, rfl, rfl, rfl,
      ⟨_, hplaced ▸ List.mem_cons_self, rfl⟩, (by cases ·),
      fun _ => ⟨hkind, hdest, List.take_of_length_le (Nat.le_of_eq (length_leSplit ..))⟩⟩

end Sys2Proof.Machine
end

section
/-! Scratchpad accesses that may issue (R112 to R119, R126, R127): what they hand out, bank by bank. -/

namespace Sys2Proof.Machine

open Sys2Proof.Claim

/-! ### One access to a bank (R132) -/

/-- Accesses of a kind that hold all the parts and no others, each those of one bank. -/
structure BankAccesses (kind : AccKind) (dest : Option AccDest) (scope : BitVec 3) (parts : List AccPart) (new : List Access) : Prop where
  each : ∀ c, c ∈ new → c.kind = kind ∧ c.scope = scope ∧ c.count = none ∧ c.useL1 = false ∧ c.dest = dest
    ∧ ∃ b, c.bank = some b ∧ ∀ p, p ∈ c.parts → p ∈ parts ∧ p.addr / 2 ^ 21 = b
  all : ∀ p, p ∈ parts → ∃ c, c ∈ new ∧ p ∈ c.parts

/-- The access of a bank, numbered. -/
theorem bankAccesses_number {kind : AccKind} {dest : Option AccDest} {scope : BitVec 3} {parts : List AccPart} {cs : List Access}
    (h : BankAccesses kind dest scope parts cs) (s : State) (id : Nat) : BankAccesses kind dest scope parts (numberAccesses s cs id) where
  each e he := by
    obtain ⟨c, hc, heq⟩ := mem_numberAccesses he
    rw [heq]
    exact h.each c hc
  all p hp := by
    obtain ⟨c, hc, hpc⟩ := h.all p hp
    obtain ⟨e, he, heq⟩ := exists_numberAccesses (s := s) hc id
    exact ⟨e, he, by rw [heq]; exact hpc⟩

theorem bankAccesses_own (kind : AccKind) (dest : Option AccDest) (scope : BitVec 3) {parts : List AccPart} {b : Nat}
    (h : ∀ p, p ∈ parts → p.addr / 2 ^ 21 = b) : BankAccesses kind dest scope parts [newAccess kind (some b) dest scope parts] where
  each c hc := by
    rcases List.mem_singleton.mp hc with rfl
    exact ⟨rfl, rfl, rfl, rfl, rfl, b, rfl, fun p hp => ⟨hp, h p hp⟩⟩
  all p hp := ⟨_, List.mem_cons_self, hp⟩

/-- One access for each of a list of banks that names the bank of every part. -/
theorem bankAccesses_map (kind : AccKind) (dest : Option AccDest) (scope : BitVec 3) {parts : List AccPart} {banks : List Nat}
    (h : ∀ p, p ∈ parts → p.addr / 2 ^ 21 ∈ banks) : BankAccesses kind dest scope parts
      (banks.map (fun b => newAccess kind (some b) dest scope (parts.filter (fun p => p.addr / 2 ^ 21 == b)))) where
  each c hc := by
    obtain ⟨b, -, rfl⟩ := List.mem_map.mp hc
    refine ⟨rfl, rfl, rfl, rfl, rfl, b, rfl, fun p hp => ?_⟩
    obtain ⟨hp, hb⟩ := List.mem_filter.mp hp
    exact ⟨hp, eq_of_beq hb⟩
  all p hp := ⟨_, List.mem_map_of_mem (h p hp), List.mem_filter.mpr ⟨hp, beq_self_eq_true _⟩⟩

theorem BankAccesses.append {kind : AccKind} {dest : Option AccDest} {scope : BitVec 3} {ps qs parts : List AccPart} {cs ds : List Access}
    (h : BankAccesses kind dest scope ps cs) (k : BankAccesses kind dest scope qs ds) (hmem : ∀ p, p ∈ parts ↔ p ∈ ps ∨ p ∈ qs) :
    BankAccesses kind dest scope parts (cs ++ ds) where
  each c hc := by
    rcases List.mem_append.mp hc with hc | hc
    · obtain ⟨h1, h2, h3, h4, h5, b, hb, hp⟩ := h.each c hc
      exact ⟨h1, h2, h3, h4, h5, b, hb, fun p hpc => ⟨(hmem p).mpr (.inl (hp p hpc).1), (hp p hpc).2⟩⟩
    · obtain ⟨h1, h2, h3, h4, h5, b, hb, hp⟩ := k.each c hc
      exact ⟨h1, h2, h3, h4, h5, b, hb, fun p hpc => ⟨(hmem p).mpr (.inr (hp p hpc).1), (hp p hpc).2⟩⟩
  all p hp := by
    rcases (hmem p).mp hp with hp | hp
    · obtain ⟨c, hc, hpc⟩ := h.all p hp
      exact ⟨c, List.mem_append_left _ hc, hpc⟩
    · obtain ⟨c, hc, hpc⟩ := k.all p hp
      exact ⟨c, List.mem_append_right _ hc, hpc⟩

theorem mem_otherBanks {s : State} {parts : List AccPart} {p : AccPart} (hp : p ∈ parts) (hb : p.addr / 2 ^ 21 ≠ s.cw.blk) :
    p.addr / 2 ^ 21 ∈ otherBanks s parts :=
  List.mem_filter.mpr ⟨List.mem_eraseDups.mpr (List.mem_map_of_mem hp), bne_iff_ne.mpr hb⟩

/-- A scratchpad issue hands out the parts bank by bank. -/
theorem pushScratch_handedOut (s : State) (kind : AccKind) (dest : Option AccDest) (scope : BitVec 3) (parts : List AccPart) (d n : Nat) :
    ∃ new paths, HandedOut id s (pushScratch s kind dest scope parts) new paths d n ∧ BankAccesses kind dest scope parts new := by
  unfold pushScratch
  extract_lets sel own far s1
  have hown : ∀ p, p ∈ own → p.addr / 2 ^ 21 = s.cw.blk := fun p hp => eq_of_beq (List.mem_filter.mp hp).2
  have hfar : ∀ p, p ∈ far → p.addr / 2 ^ 21 ∈ otherBanks s parts := fun p hp =>
    mem_otherBanks (List.mem_filter.mp hp).1 (bne_iff_ne.mp (List.mem_filter.mp hp).2)
  have hmem : ∀ p, p ∈ parts ↔ p ∈ own ∨ p ∈ far := fun p => by
    simp only [own, far, List.mem_filter, beq_iff_eq, bne_iff_ne, ← and_or_left, eq_or_ne, and_true]
  obtain ⟨new, paths, hfirst, hbanks⟩ : ∃ new paths, HandedOut id s s1 new paths d n ∧ BankAccesses kind dest scope own new := by
    simp only [s1]
    split
    · next h =>
      exact ⟨[], [], .refl .., ⟨fun _ hc => (List.not_mem_nil hc).elim, fun p hp => by rw [List.isEmpty_iff.mp h] at hp; cases hp⟩⟩
    · exact ⟨_, _, handedOut_pushAccesses .., bankAccesses_number (bankAccesses_own kind dest scope hown) _ _⟩
  exact ⟨_, _, hfirst.trans (handedOut_pushAccesses ..),
    hbanks.append (bankAccesses_number (bankAccesses_map kind dest scope hfar) _ _) hmem⟩

/-! ### The instructions are their forms -/

/-- A scratchpad access that has not been handed out. -/
def scratchIssue (f : AccessForm) (cluster : Bool) (s : State) : State :=
  onVerdict s (f.kind != .load) (scratchPlaced s cluster (f.pieces s)) (fun t =>
    let parts := formParts f s (scratchPlaced s cluster (f.pieces s))
    scratchRoom t parts (fun t => pushScratch (zeroIdle f t parts) f.kind (formDest f) f.scope parts))

theorem scratchLoad_eq (s : State) (f : AccessForm) (o : VmOp) (x : Option MemX) (cluster : Bool) (hf : ∃ dflt, f = loadForm o x dflt) :
    scratchLoad s o x cluster f.scope = scratchIssue f cluster s := by
  obtain ⟨dflt, rfl⟩ := hf
  have hpieces := vmPieces_eq s (loadForm o x dflt) o x rfl (fun _ => rfl)
  simp only [scratchLoad, scratchIssue, ← hpieces]
  rfl

theorem scratchStore_eq (s : State) (f : AccessForm) (o : VmOp) (x : Option MemX) (cluster : Bool)
    (hf : ∃ dflt, f = storeForm (.store o.m) o x dflt) : scratchStore s o x cluster f.scope = scratchIssue f cluster s := by
  obtain ⟨dflt, rfl⟩ := hf
  have hpieces := vmPieces_eq s (storeForm (.store o.m) o x dflt) o x rfl (fun _ => rfl)
  have hregs : ∀ l, regBytes s o.d (sizeBytes o.size) l = laneData s (some o.d) (sizeBytes o.size) l := fun l =>
    regBytes_eq_laneData s o.d l (sizeBytes_wholeRegs _)
  simp only [scratchStore, scratchIssue, ← hpieces, hregs]
  rfl

theorem bankAtomic_eq (s : State) (f : AccessForm) (d : BitVec 8) {data expect : Nat → List Byte} (hkind : f.kind ≠ .load)
    (hdata : ∀ l, data l = laneData s f.data f.size l) (hexp : ∀ l, expect l = laneData s f.expect f.size l)
    (hdest : f.dest = some (d, true)) : bankAtomic s f.kind f.scope d f.size (f.pieces s) data expect = scratchIssue f true s := by
  simp only [bankAtomic, scratchIssue, funext hdata, funext hexp, formParts, zeroIdle, idleLanes, hdest, if_neg hkind,
    AccessForm.destRegs, sizeRegs, formDest, Option.map_some, bne_iff_ne.mpr hkind]

theorem vmBankAtomic_eq (s : State) (o : VmOp) (x : Option MemX) (op : Nat) :
    vmBankAtomic s o x op
      = .next (withFence s (atomicForm op o x 2).order (atomicForm op o x 2).scope (scratchIssue (atomicForm op o x 2) true)) := by
  refine congrArg (fun g => Host.Outcome.next (withFence s _ _ g)) (funext fun t => ?_)
  have hpieces := vmPieces_eq t (atomicForm op o x 2) o x rfl (fun _ => rfl)
  rw [← bankAtomic_eq t (atomicForm op o x 2) o.d (by intro h; cases h)
    (fun l => regBytes_eq_laneData t o.d l (sizeBytes_wholeRegs _)) (fun _ => rfl) rfl, ← hpieces]
  rfl

/-- A scratchpad access is its form's issue under the fence that its order joins. -/
theorem exec_scratchForm {i : Instr} {f : AccessForm} {cluster : Bool} (hi : scratchForm i = some (f, cluster)) (s : State) :
    exec i s = .next (withFence s f.order f.scope (scratchIssue f cluster)) := by
  have hload : ∀ (o : VmOp) (x : Option MemX) dflt cluster,
      (.next (withFence s (memOrder x) (memScope dflt x) (fun t => scratchLoad t o x cluster (memScope dflt x))) : Result)
        = .next (withFence s (memOrder x) (memScope dflt x) (scratchIssue (loadForm o x dflt) cluster)) := fun o x dflt cluster =>
    congrArg (fun g => Host.Outcome.next (withFence s (memOrder x) (memScope dflt x) g))
      (funext fun t => scratchLoad_eq t (loadForm o x dflt) o x cluster ⟨dflt, rfl⟩)
  have hstore : ∀ (o : VmOp) (x : Option MemX) dflt cluster,
      (.next (withFence s (memOrder x) (memScope dflt x) (fun t => scratchStore t o x cluster (memScope dflt x))) : Result)
        = .next (withFence s (memOrder x) (memScope dflt x) (scratchIssue (storeForm (.store o.m) o x dflt) cluster)) :=
    fun o x dflt cluster => congrArg (fun g => Host.Outcome.next (withFence s (memOrder x) (memScope dflt x) g))
      (funext fun t => scratchStore_eq t (storeForm (.store o.m) o x dflt) o x cluster ⟨dflt, rfl⟩)
  simp only [scratchForm] at hi
  split at hi
  case h_13 => cases hi
  all_goals cases hi
  case h_1 o x => exact hload o x 1 false
  case h_2 o x => exact hload o x 2 true
  case h_3 o x => exact hstore o x 1 false
  case h_4 o x => exact hstore o x 2 true
  case h_5 o x | h_6 o x | h_7 o x | h_8 o x | h_9 o x | h_10 o x | h_11 o x => exact vmBankAtomic_eq s o x _
  case h_12 d a b x =>
    refine congrArg (fun g => Host.Outcome.next (withFence s _ _ g)) (funext fun t => ?_)
    rw [casPieces_eq t d a b x]
    exact bankAtomic_eq t (casForm d a b x) d (by intro h; cases h)
      (fun l => regBytes_eq_laneData t d l (casSize_wholeRegs _)) (fun l => regBytes_eq_laneData t b l (casSize_wholeRegs _)) rfl

/-! ### The issue -/

theorem scratchPlaced_named (s : State) (cluster : Bool) (ps : List Piece) : ChecksNamed (scratchPlaced s cluster ps) := fun q hq c hc => by
  rcases scratchPlaced_checksNamed s cluster ps q hq c hc with rfl | rfl <;> omega

/-- A part of a scratchpad access lies in its block's allocation (R112). -/
theorem scratchPart_within {f : AccessForm} {s : State} {cluster : Bool} {p : AccPart}
    (h : p ∈ formParts f s (scratchPlaced s cluster (f.pieces s))) :
    p.addr % 2 ^ 21 + p.size ≤ (s.block (p.addr / 2 ^ 21)).spAlloc := by
  obtain ⟨-, -, q, hq, hok, hsize⟩ := mem_parts (scratchPlaced_pieces s cluster (f.pieces s)) h
  obtain ⟨r, -, hr, hplaced⟩ := mem_scratchPlaced hq
  rcases placeScratchPiece_cases s cluster r with ⟨c, hfail, -⟩ | ⟨b, off, hb, hoff, hfit⟩
  · rw [hplaced, hfail] at hok; cases hok
  · rw [hplaced, hb] at hok
    injection hok with haddr _
    rw [← haddr, hsize, hr, show (b * 2 ^ 21 + off) / 2 ^ 21 = b by omega, show (b * 2 ^ 21 + off) % 2 ^ 21 = off by omega]
    exact hfit

theorem scratchRoom_go {s : State} (parts : List AccPart) (go : State → State) (h0 : pathCount s.cw 0 < 63) (h1 : pathCount s.cw 1 < 63) :
    scratchRoom s parts go = go s := by
  rw [scratchRoom, pathRoom_go _ fun _ => h0, pathRoom_go _ fun _ => h1]

/-- The accesses of a scratchpad form to their banks. -/
def scratchAccesses (f : AccessForm) (s : State) (cluster : Bool) (new : List Access) : Prop :=
  BankAccesses f.kind (formDest f) f.scope (formParts f s (scratchPlaced s cluster (f.pieces s))) new

/-- A scratchpad access whose checks pass and whose paths have room hands out its parts. -/
theorem scratchIssue_handedOut {f : AccessForm} {s : State} {cluster : Bool}
    (hv : verdict (scratchPlaced s cluster (f.pieces s)) = .pass) (h0 : pathCount s.cw 0 < 63) (h1 : pathCount s.cw 1 < 63) :
    ∃ new paths, HandedOut id s (scratchIssue f cluster s) new paths (formReg f) (formRegs f) ∧ scratchAccesses f s cluster new := by
  have hzero := zeroIdle_handedOut f s (formParts f s (scratchPlaced s cluster (f.pieces s)))
  obtain ⟨new, paths, hand, hbanks⟩ := pushScratch_handedOut (zeroIdle f s (formParts f s (scratchPlaced s cluster (f.pieces s)))) f.kind
    (formDest f) f.scope (formParts f s (scratchPlaced s cluster (f.pieces s))) (formReg f) (formRegs f)
  rw [scratchIssue, onVerdict_pass _ hv]
  dsimp only
  rw [scratchRoom_go _ _ h0 h1]
  exact ⟨new, _, hzero.trans hand, hbanks⟩

theorem offers_of_scratchAccesses {f : AccessForm} {s : State} {cluster : Bool} {new : List Access} (hcount : f.count = none)
    (hl1 : f.useL1 = false) (h : scratchAccesses f s cluster new) : Offers f (formParts f s (scratchPlaced s cluster (f.pieces s))) new := by
  refine ⟨fun c hc => ?_, h.all⟩
  obtain ⟨hkind, hscope, hc0, hl0, hdest, b, -, hparts⟩ := h.each c hc
  exact ⟨.inl hkind, hscope, hc0.trans hcount.symm, hl0.trans hl1.symm, hdest, fun p hp => (hparts p hp).1⟩

/-- No scratchpad access counts reads or goes through level 1. -/
theorem scratchForm_plain {i : Instr} {f : AccessForm} {cluster : Bool} (hi : scratchForm i = some (f, cluster)) :
    f.count = none ∧ f.useL1 = false := by
  simp only [scratchForm] at hi
  split at hi
  case h_13 => cases hi
  all_goals cases hi
  all_goals exact ⟨rfl, rfl⟩

/-- The parts of a scratchpad form, in accesses of its kind, carry every byte of the selected lanes. -/
theorem scratch_handsOut {f : AccessForm} {s : State} {cluster : Bool} {new : List Access} (hcount : f.count = none) (hl1 : f.useL1 = false)
    (hv : verdict (scratchPlaced s cluster (f.pieces s)) = .pass) (hdis : s.cur.guard &&& s.cur.helpers = 0)
    (h : scratchAccesses f s cluster new) : HandsOut f s (scratchPlaced s cluster (f.pieces s)) new :=
  handsOut_of_offers (scratchPlaced_pieces ..) (scratchPlaced_named s cluster _) hv hdis (offers_of_scratchAccesses hcount hl1 h)

/-- Once a joined release is done, a scratchpad access that has not been handed out is; an acquire then holds its slot. -/
theorem exec_scratch_fresh {i : Instr} {f : AccessForm} {cluster : Bool} (hi : scratchForm i = some (f, cluster)) {s : State}
    (hfresh : f.fresh s) : exec i s = .next (if (scratchIssue f cluster s).cur.status = .ok ∧ f.order = 1 then
      ((scratchIssue f cluster s).setUnit (fun v => { v with issued := true, fenced := false })).hold (.fenceAcq f.scope)
      else scratchIssue f cluster s) := by
  obtain ⟨hrel, hissued, -, -⟩ := hfresh
  rw [exec_scratchForm hi s, withFence_issue hrel hissued]

/-- Settles O11: the parts of the form's placed pieces, in one access for each bank. -/
theorem scratchAccessIssue : Obligations.ScratchAccessIssue := by
  unfold Obligations.ScratchAccessIssue
  intro i f cluster s _ hi hready _ hv h0 h1
  obtain ⟨hfresh, horder⟩ := fresh_of_ready hready
  obtain ⟨hcount, hl1⟩ := scratchForm_plain hi
  obtain ⟨new, paths, hand, hbanks⟩ := scratchIssue_handedOut (f := f) hv h0 h1
  have hexec := exec_scratch_fresh hi hfresh
  rw [if_neg fun h => horder h.2] at hexec
  obtain ⟨-, -, -, hdis⟩ := hfresh
  refine ⟨_, new, hexec, hand.cur, hand.exact_accs, scratch_handsOut hcount hl1 hv hdis hbanks, fun c hc => ?_, hand.frame, hand.helpers⟩
  obtain ⟨-, -, -, -, -, b, hb, hparts⟩ := hbanks.each c hc
  refine ⟨b, hb, fun p hp => ?_⟩
  obtain ⟨hp, haddr⟩ := hparts p hp
  exact ⟨haddr, haddr ▸ scratchPart_within hp⟩

end Sys2Proof.Machine
end

section
/-! Slots that wait with their accesses handed out: joined acquires (R131), LDF and STE (R128); and PFL (R123). -/

namespace Sys2Proof.Machine

open Sys2Proof.Claim

/-! ### Units set and held -/

theorem Warp.setUnit_unit {x : Warp} {u : Nat} (g : IUnit → IUnit) (hu : u < x.arch.units.length) :
    (x.setUnit u g).unit u = g (x.unit u) := by
  have hv : x.arch.units[u]? = some x.arch.units[u] := List.getElem?_eq_getElem hu
  simp only [Warp.unit, Warp.setUnit, getElem?_modAt, if_true, hv, Option.map_some, Option.getD_some]

theorem Warp.length_setUnit (x : Warp) (u : Nat) (g : IUnit → IUnit) : (x.setUnit u g).arch.units.length = x.arch.units.length := by
  suffices ∀ (xs : List IUnit) k, (modAt xs k g).length = xs.length from this ..
  intro xs
  induction xs with
  | nil => intro k; rfl
  | cons v vs ih => intro k; cases k <;> simp [modAt, ih]

/-- The issuing unit changed and held: its warp. -/
theorem State.setUnit_hold_cw (s : State) (g : IUnit → IUnit) (h : Hold) :
    ((s.setUnit g).hold h).cw = (s.cw.setUnit s.cur.u g).setUnit s.cur.u (fun v => { v with hold := h }) := by
  rw [State.hold_eq]
  show ((s.setUnit g).setCw _).cw = _
  rw [State.setCw_cw, State.setUnit, State.setCw_cw]
  rfl

theorem State.setUnit_hold_unit {s : State} (g : IUnit → IUnit) (h : Hold) (hu : s.cur.u < s.arch.units.length) :
    ((s.setUnit g).hold h).unit = { g s.unit with hold := h } := by
  show ((s.setUnit g).hold h).cw.unit s.cur.u = _
  rw [State.setUnit_hold_cw, Warp.setUnit_unit _ (by rw [Warp.length_setUnit]; exact hu), Warp.setUnit_unit _ hu]
  rfl

theorem State.setUnit_hold_vreg (s : State) (g : IUnit → IUnit) (h : Hold) (r l : Nat) : ((s.setUnit g).hold h).vreg r l = s.vreg r l := by
  show (((s.setUnit g).hold h).cw.arch).getV s.free r l = _
  rw [State.setUnit_hold_cw]
  rfl

/-! ### Accesses handed out and waited for -/

/-- A slot whose accesses are handed out and whose unit is then held waits with them. -/
theorem heldOut_of_handedOut {f : AccessForm} {view : Access → Access} {s t : State} {placed : List Placed} {new : List Access}
    {paths : List Nat} {d n : Nat} (hand : HandedOut view s t new paths d n) (haccs : unstaged t.cw.accs = unstaged (s.cw.accs ++ new))
    (hout : HandsOut f s placed new) (hu : s.cur.u < s.arch.units.length) {g : IUnit → IUnit} (h : Hold)
    (hissued : ∀ v, (g v).issued = true) (hfenced : ∀ v, (g v).fenced = false) :
    HeldOut f s ((t.setUnit g).hold h) placed new h ∧ OnlyHelpers s ((t.setUnit g).hold h) d n
      ∧ ((t.setUnit g).hold h).unit = { g t.unit with hold := h } := by
  obtain ⟨hcur, -, -, ⟨hmem, hblocks, -, -, -, -, -, harch⟩, hhelpers⟩ := hand
  have hunits : t.arch.units = s.arch.units := by rw [harch]
  have hunit := State.setUnit_hold_unit g h (s := t) (by rw [hcur, hunits]; exact hu)
  have hcw := State.setUnit_hold_cw t g h
  refine ⟨⟨rfl, ?_, ?_, ?_, ?_, hout, hblocks, hmem, ?_, ?_, ?_⟩, fun r l hl hno => ?_, hunit⟩
  · rw [hunit]
  · rw [hunit]; exact hissued _
  · rw [hunit]; exact hfenced _
  · rw [hcw]; exact haccs
  · rw [State.arch, hcw]; exact (congrArg WarpArch.sregs harch :)
  · rw [State.arch, hcw]; exact (congrArg WarpArch.preds harch :)
  · rw [State.arch, hcw]; exact (congrArg WarpArch.nstat harch :)
  · rw [State.setUnit_hold_vreg]; exact hhelpers r l hl hno

/-! ### Joined fences (R130, R131) -/

theorem exec_global_withFence {i : Instr} {f : AccessForm} (hi : globalForm i = some f) {s : State} (h : f.order ≠ 0) :
    ∃ issue, exec i s = .next (withFence s f.order f.scope issue) := by
  obtain ⟨issue, -, hexec⟩ := exec_globalForm hi
  exact ⟨issue, hexec s (.inl h)⟩

/-- A vector access with a joined fence is some issue under that fence. -/
theorem exec_form_withFence {i : Instr} {f : AccessForm} (hi : globalForm i = some f ∨ ∃ c, scratchForm i = some (f, c)) (s : State)
    (h : f.order ≠ 0) : ∃ issue, exec i s = .next (withFence s f.order f.scope issue) := by
  rcases hi with hi | ⟨c, hi⟩
  · exact exec_global_withFence hi h
  · exact ⟨_, exec_scratchForm hi s⟩

/-- Without lanes a scratchpad access hands out nothing. -/
theorem scratchIssue_nil {f : AccessForm} {cluster : Bool} {s : State} (hg : s.cur.guard = 0) (hh : s.cur.helpers = 0) :
    scratchIssue f cluster s = zeroIdle f s [] := by
  have hp := pieces_nil (f := f) hg hh
  have hv : verdict [] = .pass := rfl
  simp only [scratchIssue, hp, scratchPlaced, List.map_nil, onVerdict_pass _ hv]
  rfl

/-- An access without lanes is handed out as nothing, and its acquire waits. -/
theorem acquire_nothing {f : AccessForm} {s t : State} (hand : HandedOut id s t [] [] 0 0) (horder : f.order = 1)
    (hok : s.cur.status = .ok) (hu : s.cur.u < s.arch.units.length) :
    ∃ u, (if t.cur.status = .ok ∧ f.order = 1 then
        (t.setUnit (fun v => { v with issued := true, fenced := false })).hold (.fenceAcq f.scope) else t) = u
      ∧ u.cur.status = .wait ∧ u.unit.hold = .fenceAcq f.scope ∧ u.unit.issued = true := by
  obtain ⟨hcur, -, -, ⟨-, -, -, -, -, -, -, harch⟩, -⟩ := hand
  have hunits : t.arch.units = s.arch.units := by rw [harch]
  have hunit := State.setUnit_hold_unit (fun v => { v with issued := true, fenced := false }) (.fenceAcq f.scope) (s := t)
    (by rw [hcur, hunits]; exact hu)
  refine ⟨_, if_pos ⟨by rw [hcur]; exact hok, horder⟩, rfl, ?_, ?_⟩ <;> rw [hunit]

/-- An access with an acquire hands out its accesses and then waits. -/
theorem acquire_heldOut {f : AccessForm} {view : Access → Access} {s t : State} {placed : List Placed} {new : List Access}
    {paths : List Nat} {d n : Nat} (hand : HandedOut view s t new paths d n) (haccs : unstaged t.cw.accs = unstaged (s.cw.accs ++ new))
    (hout : HandsOut f s placed new) (horder : f.order = 1) (hok : s.cur.status = .ok) (hu : s.cur.u < s.arch.units.length) :
    ∃ u, (if t.cur.status = .ok ∧ f.order = 1 then
        (t.setUnit (fun v => { v with issued := true, fenced := false })).hold (.fenceAcq f.scope) else t) = u
      ∧ HeldOut f s u placed new (.fenceAcq f.scope) ∧ OnlyHelpers s u d n := by
  obtain ⟨hheld, honly, -⟩ := heldOut_of_handedOut hand haccs hout hu (g := fun v => { v with issued := true, fenced := false })
    (.fenceAcq f.scope) (fun _ => rfl) (fun _ => rfl)
  exact ⟨_, if_pos ⟨by rw [hand.cur]; exact hok, horder⟩, hheld, honly⟩

/-! ### LDF and STE (R128) -/

theorem feForm_fields (load : Bool) (o : VmOp) (x : Option MemX) :
    (feForm load o x).order = memOrder x ∧ (feForm load o x).scope = memScope 2 x := by
  cases load <;> exact ⟨rfl, rfl⟩

/-- LDF and STE are the slot of R128. -/
theorem exec_fe (load : Bool) (o : VmOp) (x : Option MemX) (s : State) :
    exec (if load then .vldf o x else .vste o x) s = .next (feAccess s o x load) := by
  cases load <;> rfl

theorem feAccess_release {s : State} {o : VmOp} {x : Option MemX} (load : Bool) (hissued : s.unit.issued = false) (horder : memOrder x = 2)
    (hf : s.unit.fenced = false) : feAccess s o x load = s.hold (.fenceRel (memScope 2 x)) := by
  simp [feAccess, hissued, horder, hf]

theorem feAccess_issue {s : State} {o : VmOp} {x : Option MemX} (load : Bool) (hissued : s.unit.issued = false)
    (hrel : memOrder x = 2 → s.unit.fenced = true) (hnot : (feIssue s o x load (memScope 2 x)).cur.status ≠ .ok) :
    feAccess s o x load = feIssue s o x load (memScope 2 x) := by
  have h2 : ¬ (memOrder x = 2 ∧ s.unit.fenced = false) := fun ⟨h, hf⟩ => by rw [hrel h] at hf; cases hf
  have h1 : ¬ ((feIssue s o x load (memScope 2 x)).cur.status = .ok ∧ memOrder x = 1) := fun ⟨h, _⟩ => hnot h
  simp only [feAccess, hissued, Bool.not_false, Bool.true_and, Bool.and_eq_true, beq_iff_eq, Bool.not_eq_true', h2, h1, if_false, if_true]

theorem feAccess_waits {s : State} {o : VmOp} {x : Option MemX} (load : Bool) (hissued : s.unit.issued = true) (hfe : s.unit.fe ≠ 0) :
    feAccess s o x load = s.hold .fullEmpty := by
  simp only [feAccess, hissued, Bool.not_true, Bool.false_and, Bool.false_eq_true, if_false, bne_iff_ne.mpr hfe, if_true]

theorem feAccess_acquire {s : State} {o : VmOp} {x : Option MemX} (load : Bool) (hissued : s.unit.issued = true) (hfe : s.unit.fe = 0)
    (horder : memOrder x = 1) (hf : s.unit.fenced = false) : feAccess s o x load = s.hold (.fenceAcq (memScope 2 x)) := by
  simp [feAccess, hissued, hfe, horder, hf]

theorem feAccess_done {s : State} {o : VmOp} {x : Option MemX} (load : Bool) (hissued : s.unit.issued = true) (hfe : s.unit.fe = 0)
    (hacq : memOrder x = 1 → s.unit.fenced = true) : feAccess s o x load = s := by
  have h1 : ¬ (memOrder x = 1 ∧ s.unit.fenced = false) := fun ⟨h, hf⟩ => by rw [hacq h] at hf; cases hf
  simpa [feAccess, hissued, hfe] using fun h hf => absurd ⟨h, hf⟩ h1

theorem feForm_vmPieces (load : Bool) (o : VmOp) (x : Option MemX) (s : State) :
    vmPieces s o x false false s.cur.guard = (feForm load o x).pieces s := by
  cases load
  · exact vmPieces_eq s (feForm false o x) o x rfl (fun _ => rfl)
  · exact vmPieces_eq s (feForm true o x) o x rfl (fun _ => rfl)

/-- LDF too reads register d; the form of its access carries no data. -/
def feWithData (load : Bool) (o : VmOp) (x : Option MemX) : AccessForm := { feForm load o x with data := some o.d }

theorem feWithData_pieces (load : Bool) (o : VmOp) (x : Option MemX) (s : State) :
    (feWithData load o x).pieces s = (feForm load o x).pieces s := rfl

/-- What is handed out with data is handed out of the form without. -/
theorem handsOut_of_feWithData {load : Bool} {o : VmOp} {x : Option MemX} {s : State} {placed : List Placed} {new : List Access}
    (h : HandsOut (feWithData load o x) s placed new) : HandsOut (feForm load o x) s placed new := by
  obtain ⟨heach, hall⟩ := h
  refine ⟨heach, fun l k hl hk => ?_⟩
  obtain ⟨c, hc, p, hp, hlane, hlo, hhi, hva, hq, hdata, hexp⟩ := hall l k hl hk
  refine ⟨c, hc, p, hp, hlane, hlo, hhi, hva, hq, fun d hd => hdata d ?_, hexp⟩
  cases load
  · exact hd
  · cases hd

/-- The wellformed LDF and STE access 32 bits. -/
theorem fe_size {load : Bool} {o : VmOp} {x : Option MemX} (h : (if load then Instr.vldf o x else Instr.vste o x).WellFormed) : o.size = 2 := by
  have hwf : wfFe load o x = none := by cases load <;> exact h
  unfold wfFe causeOf at hwf
  by_contra hne
  rw [bne_iff_ne.mpr hne] at hwf
  cases hwf

/-- What LDF and STE hand out before their unit is held. -/
def fePush (s : State) (o : VmOp) (x : Option MemX) (load : Bool) (parts : List AccPart) : State :=
  pushScratch (zeroHelpers s o.d 1 s.cur.helpers) (feForm load o x).kind (formDest (feForm load o x)) (memScope 2 x) parts

/-- The issue of an LDF or STE whose checks pass. -/
theorem feIssue_eq {load : Bool} {o : VmOp} {x : Option MemX} {s : State} (hsize : o.size = 2) (hfe : s.unit.fe = 0)
    (hv : verdict (scratchPlaced s true ((feForm load o x).pieces s)) = .pass) (h0 : pathCount s.cw 0 < 63) (h1 : pathCount s.cw 1 < 63)
    (hne : formParts (feWithData load o x) s (scratchPlaced s true ((feForm load o x).pieces s)) ≠ []) :
    feIssue s o x load (memScope 2 x)
      = ((fePush s o x load (formParts (feWithData load o x) s (scratchPlaced s true ((feForm load o x).pieces s)))).setUnit
          (fun v => { v with issued := true, fenced := false, fe := s.cur.guard })).hold .fullEmpty := by
  have hbytes : sizeBytes o.size = 4 := by rw [hsize]; decide
  have hparts : partsFrom (scratchPlaced s true ((feForm load o x).pieces s)) (fun l => regBytes s o.d 4 l) (fun _ => [])
      = formParts (feWithData load o x) s (scratchPlaced s true ((feForm load o x).pieces s)) := by
    rw [formParts, ← hbytes, funext fun l => regBytes_eq_laneData s o.d l (sizeBytes_wholeRegs o.size)]
    cases load <;> rfl
  have hpush : ∀ parts, fePush s o x load parts = pushScratch (zeroHelpers s o.d 1 s.cur.helpers) (if load then .loadFe else .storeFe)
      (if load then some { scalar := false, reg := o.d.toNat, bytes := 4, signed := true } else none) (memScope 2 x) parts := fun parts => by
    rw [fePush, ← hbytes]
    cases load <;> rfl
  rw [feIssue, if_pos hfe, feForm_vmPieces]
  dsimp only
  rw [onVerdict_pass _ hv, hparts, scratchRoom_go _ _ h0 h1, if_neg (by simpa using hne), ← hpush]

/-- LDF and STE whose checks pass hand out their lanes. -/
theorem fePush_handedOut {load : Bool} {o : VmOp} {x : Option MemX} (s : State) (parts : List AccPart) :
    ∃ new paths, HandedOut id s (fePush s o x load parts) new paths o.d.toNat 1
      ∧ BankAccesses (feForm load o x).kind (formDest (feForm load o x)) (memScope 2 x) parts new := by
  obtain ⟨new, paths, hand, hbanks⟩ := pushScratch_handedOut (zeroHelpers s o.d 1 s.cur.helpers) (feForm load o x).kind
    (formDest (feForm load o x)) (memScope 2 x) parts o.d.toNat 1
  exact ⟨new, _, (handedOut_zeroHelpers s o.d 1 fun _ h => h).trans hand, hbanks⟩

/-- An LDF or STE that has been handed out waits for its words. -/
theorem feAccess_heldOut {load : Bool} {o : VmOp} {x : Option MemX} {s : State}
    (hwf : (if load then Instr.vldf o x else Instr.vste o x).WellFormed) (hfresh : (feForm load o x).fresh s) (hg : s.cur.guard ≠ 0)
    (hu : s.cur.u < s.arch.units.length) (hv : verdict (scratchPlaced s true ((feForm load o x).pieces s)) = .pass)
    (h0 : pathCount s.cw 0 < 63) (h1 : pathCount s.cw 1 < 63) :
    ∃ t new, feAccess s o x load = t ∧ HeldOut (feForm load o x) s t (scratchPlaced s true ((feForm load o x).pieces s)) new .fullEmpty
      ∧ t.unit.fe = s.cur.guard ∧ OnlyHelpers s t o.d.toNat 1 := by
  obtain ⟨hrel, hissued, hfe, hdis⟩ := hfresh
  have hsize := fe_size hwf
  have hps : (scratchPlaced s true ((feForm load o x).pieces s)).map (·.1) = (feWithData load o x).pieces s := scratchPlaced_pieces ..
  have hpos : 0 < (feWithData load o x).size := by cases load <;> exact sizeBytes_pos _
  have hne : formParts (feWithData load o x) s (scratchPlaced s true ((feForm load o x).pieces s)) ≠ [] := by
    obtain ⟨l, hl⟩ := exists_lane hg
    obtain ⟨p, hp, -⟩ := part_of_lane hps hpos (.inl hl) (ok_of_guard hps (scratchPlaced_named s true _) hv hdis hl)
    exact List.ne_nil_of_mem hp
  have hissue := feIssue_eq hsize hfe hv h0 h1 hne
  obtain ⟨new, paths, hand, hbanks⟩ := fePush_handedOut (load := load) (o := o) (x := x) s
    (formParts (feWithData load o x) s (scratchPlaced s true ((feForm load o x).pieces s)))
  have hout : HandsOut (feForm load o x) s (scratchPlaced s true ((feForm load o x).pieces s)) new := by
    refine handsOut_of_feWithData (scratch_handsOut ?_ ?_ hv hdis ?_)
    · cases load <;> rfl
    · cases load <;> rfl
    · rw [scratchAccesses, feWithData_pieces]
      exact (feForm_fields load o x).2 ▸ hbanks
  obtain ⟨hheld, honly, hunit⟩ := heldOut_of_handedOut hand (congrArg unstaged hand.exact_accs) hout hu
    (g := fun v => { v with issued := true, fenced := false, fe := s.cur.guard }) .fullEmpty (fun _ => rfl) (fun _ => rfl)
  refine ⟨_, new, feAccess_issue load hissued (fun h => hrel ((feForm_fields load o x).1.trans h)) (by rw [hissue]; exact nofun), ?_⟩
  rw [hissue]
  exact ⟨hheld, by rw [hunit], honly⟩

/-! ### PFL (R123) -/

theorem execVpfl_tokensMove (o : VmOp) (x : Option MemX) (s : State) : ∃ t, exec (.vpfl o x) s = .next t ∧ TokensMove s t := by
  refine ⟨_, rfl, (placeGlobal_tokensMove ..).trans (.foldl (fun t p => ?_) _ _)⟩
  split
  · exact .foldl (fun t sec => prefetchSector_tokensMove ..) _ t
  · exact .refl t

/-- Settles O13: a prefetch moves tokens alone; LDF and STE hand out their lanes and hold their unit. -/
theorem prefetchAndFullEmptyIssue : Obligations.PrefetchAndFullEmptyIssue := by
  unfold Obligations.PrefetchAndFullEmptyIssue
  intro o x s
  constructor
  · obtain ⟨t, hexec, hmove⟩ := execVpfl_tokensMove o x s
    have hand := HandedOut.of_tokensMove id 0 0 hmove
    exact ⟨t, hexec, hand.cur, by rw [hand.exact_accs, List.append_nil], hand.frame, hand.helpers⟩
  intro load i f
  have hexec := exec_fe load o x s
  refine ⟨fun hwf hfresh _ hg hu hv h0 h1 => ?_, fun hissued hfe => ?_, fun hissued hfe hacq => ?_⟩
  · obtain ⟨t, new, ht, hheld, hfe, honly⟩ := feAccess_heldOut hwf hfresh hg hu hv h0 h1
    exact ⟨t, new, hexec.trans (congrArg _ ht), hheld, hfe, honly⟩
  · exact hexec.trans (congrArg _ (feAccess_waits load hissued hfe))
  · exact hexec.trans (congrArg _ (feAccess_done load hissued hfe fun h => hacq ((feForm_fields load o x).1.trans h)))

/-- Settles O14: the slot's joined fence, and what its access hands out between a release and an acquire. -/
theorem fencesJoinedToAccesses : Obligations.FencesJoinedToAccesses := by
  unfold Obligations.FencesJoinedToAccesses
  refine ⟨fun i f s hi hu => ⟨fun horder hf => ?_, fun horder hissued hf => ?_, fun horder hissued hf => ?_,
    fun horder hissued hfe hg hh hok => ?nothing, fun _ horder hfresh hok hg => ⟨fun hi hv hroom hfull => ?global, fun c hi hv h0 h1 => ?scratch⟩⟩,
    fun o x load s => ?fullEmpty⟩
  · obtain ⟨issue, hexec⟩ := exec_form_withFence hi s (by rw [horder]; decide)
    exact hexec.trans (congrArg _ (withFence_release f.scope issue horder hf))
  · obtain ⟨issue, hexec⟩ := exec_form_withFence hi s (by rw [horder]; decide)
    rw [hexec, withFence_acquire f.scope issue horder hissued, hf]; rfl
  · obtain ⟨issue, hexec⟩ := exec_form_withFence hi s (by rw [horder]; decide)
    rw [hexec, withFence_acquire f.scope issue horder hissued, hf]; rfl
  case nothing =>
    have hfresh : f.fresh s :=
      ⟨fun h => absurd (horder.symm.trans h) (by decide), hissued, hfe, by rw [hg]; exact BitVec.zero_and⟩
    have hzero := zeroIdle_handedOut_noHelpers f [] hh
    obtain ⟨t, ht, hrest⟩ := acquire_nothing hzero horder hok hu
    refine ⟨t, ?_, hrest⟩
    rcases hi with hi | ⟨c, hi⟩
    · rw [exec_global_fresh hi hfresh, globalIssue_nil hg hh, ht]
    · rw [exec_scratch_fresh hi hfresh, scratchIssue_nil hg hh, ht]
  case global =>
    obtain ⟨-, -, hfe, hdis⟩ := id hfresh
    obtain ⟨new, hand, hoffers, -⟩ := globalIssue_handedOut (globalForm_shape hi) hfe hdis hv (fun _ => hroom) (fun hd _ => hfull hd)
    obtain ⟨t, ht, hheld, honly⟩ := acquire_heldOut hand hand.accs
      (handsOut_of_offers (placed_pieces f s) (placed_checksNamed f s) hv hdis hoffers) horder hok hu
    exact ⟨t, new, (exec_global_fresh hi hfresh).trans (congrArg _ ht), hheld, honly⟩
  case scratch =>
    obtain ⟨-, -, -, hdis⟩ := id hfresh
    obtain ⟨hcount, hl1⟩ := scratchForm_plain hi
    obtain ⟨new, paths, hand, hbanks⟩ := scratchIssue_handedOut (f := f) hv h0 h1
    obtain ⟨t, ht, hheld, honly⟩ := acquire_heldOut hand (congrArg unstaged hand.exact_accs)
      (scratch_handsOut hcount hl1 hv hdis hbanks) horder hok hu
    exact ⟨t, new, (exec_scratch_fresh hi hfresh).trans (congrArg _ ht), hheld, honly⟩
  case fullEmpty =>
    intro i f
    obtain ⟨horder, hscope⟩ := feForm_fields load o x
    refine ⟨fun h2 hf hissued => ?_, fun h1 hf hissued hfe => ?_⟩
    · rw [exec_fe, feAccess_release load hissued (horder.symm.trans h2) hf, hscope]
    · rw [exec_fe, feAccess_acquire load hissued hfe (horder.symm.trans h1) hf, hscope]

end Sys2Proof.Machine
end

section
/-! Accesses whose checks fail (R114, R253): the memory trap, and the slot parked for its fault to be driven again. -/

namespace Sys2Proof.Machine

open Sys2Proof.Claim

/-! ### Verdicts (R114) -/

/-- A trap's address is that of some piece. -/
theorem verdict_trap {ps : List Placed} {cause addr : Nat} {lanes : Lanes} (h : verdict ps = .trap cause lanes addr) :
    ∃ q, q ∈ ps ∧ q.1.va = addr := by
  unfold verdict at h
  extract_lets sel at h
  split at h
  · cases h
  · split at h
    · cases h
    · next c hc =>
      extract_lets bad at h
      split at h
      · cases h
      · obtain ⟨q, hq, hfail⟩ := List.any_eq_true.mp (List.find?_some (p := fun c => sel.any fun p => failsAt p == some c) hc)
        injection h with _ _ haddr
        have hmem : q ∈ bad := List.mem_filter.mpr ⟨hq, hfail⟩
        obtain ⟨b, bs, hbad⟩ : ∃ b bs, bad = b :: bs := List.exists_cons_of_ne_nil (List.ne_nil_of_mem hmem)
        have hb : b ∈ bad := hbad ▸ List.mem_cons_self
        exact ⟨b, (List.mem_filter.mp (List.mem_filter.mp hb).1).1, by rw [← haddr, hbad]; rfl⟩

/-- Only check 5 parks. -/
theorem verdict_park {ps : List Placed} {vas : List Nat} (h : verdict ps = .park vas) : ∃ q, q ∈ ps ∧ failsAt q = some 5 := by
  unfold verdict at h
  extract_lets sel at h
  split at h
  · cases h
  · split at h
    · cases h
    · next c hc =>
      extract_lets bad at h
      split at h
      · next h5 =>
        obtain ⟨q, hq, hfail⟩ := List.any_eq_true.mp (List.find?_some (p := fun c => sel.any fun p => failsAt p == some c) hc)
        exact ⟨q, (List.mem_filter.mp hq).1, h5 ▸ eq_of_beq hfail⟩
      · cases h

theorem scratchPlaced_not_park (s : State) (cluster : Bool) (ps : List Piece) (vas : List Nat) : verdict (scratchPlaced s cluster ps) ≠ .park vas := by
  intro h
  obtain ⟨q, hq, hc⟩ := verdict_park h
  rcases scratchPlaced_checksNamed s cluster ps q hq 5 hc with h | h <;> cases h

/-! ### The memory trap -/

theorem Warp.setUnit_unit_other (x : Warp) {u k : Nat} (g : IUnit → IUnit) (hk : k ≠ u) : (x.setUnit u g).unit k = x.unit k := by
  simp only [Warp.unit, Warp.setUnit, getElem?_modAt, if_neg hk]

/-- A slot that can trap takes a trap that names its failing lanes. -/
theorem State.trap_taken_lanes {s : State} (t : TrapInfo) {lanes : Lanes} (h : CanTrap s) (hpc : t.fpc = none) (hmask : t.fmask = some lanes)
    (hskips : t.skips = false) : TrapTaken s (s.trap t) t.vec t.cause t.code lanes t.faddr s.cur.slotVec := by
  obtain ⟨entry, f, dead, vregs, ply, cores, box, pending, hhandler, heq, htrap, hhdr, hidx, hlanes⟩ := s.trap_eq t h
  have hcw : (s.trap t).cw
      = Warp.setUnit { s.cw with arch := { s.arch with dead := dead, vregs := vregs, plyLive := ply } } s.cur.u f := by
    rw [heq]; exact s.setCw_cw _
  have hunit : (s.trap t).unit = f s.unit := by
    rw [State.unit, hcw, heq]
    exact Warp.setUnit_unit f h.2.1
  refine ⟨by rw [heq], ⟨makeFrame s.unit { t with slotVec := s.cur.slotVec }, hunit ▸ htrap, ?frame⟩, ⟨entry, hhandler, hunit ▸ hhdr, hunit ▸ hidx⟩,
    hunit ▸ hlanes, fun k hk => hcw ▸ Warp.setUnit_unit_other _ f hk, congrArg (·.arch.sregs) hcw, congrArg (·.arch.preds) hcw,
    congrArg (·.arch.acc) hcw, congrArg (·.arch.nstat) hcw, congrArg (·.accs) hcw, ?kept⟩
  case frame => simp only [makeFrame, hpc, hmask, hskips, Option.getD_some, Bool.or_false, and_self]
  case kept =>
    rw [heq]
    exact ⟨rfl, rfl, fun v hv => (State.setWarp_warp _ _ _ _).trans (if_neg hv), rfl⟩

/-- A vector slot takes the memory trap of the check that fails. -/
theorem onVerdict_trap {s : State} {write : Bool} {ps : List Placed} {go : State → State} {cause addr : Nat} {lanes : Lanes}
    (hv : verdict ps = .trap cause lanes addr) (htorn : tornDown s s.cw.ctx = false) (hcan : CanTrap s) (hvec : s.cur.slotVec = true) :
    TrapTaken s (onVerdict s write ps go) 2 cause 0 lanes addr true := by
  have heq : onVerdict s write ps go = s.trap { vec := 2, cause := cause, fmask := some lanes, faddr := addr } := by
    simp only [onVerdict, hv, htorn, hvec, Bool.false_eq_true, and_false, if_false, if_true]
  rw [heq]
  have htrap := State.trap_taken_lanes { vec := 2, cause := cause, fmask := some lanes, faddr := addr } hcan rfl rfl rfl
  rw [hvec] at htrap
  exact htrap

/-- A scalar slot's memory trap names the unit's lanes (log entry 21). -/
theorem onVerdict_trap_scalar {s : State} {write : Bool} {ps : List Placed} {go : State → State} {cause addr : Nat} {lanes : Lanes}
    (hv : verdict ps = .trap cause lanes addr) (htorn : tornDown s s.cw.ctx = false) (hcan : CanTrap s) (hvec : s.cur.slotVec = false) :
    TrapTaken s (onVerdict s write ps go) 2 cause 0 s.unit.lanes addr false := by
  have heq : onVerdict s write ps go = s.trap { vec := 2, cause := cause, fmask := none, faddr := addr } := by
    simp only [onVerdict, hv, htorn, hvec, Bool.false_eq_true, and_false, if_false]
  rw [heq]
  have htrap := State.trap_taken { vec := 2, cause := cause, fmask := none, faddr := addr } hcan rfl rfl rfl
  rw [hvec] at htrap
  exact htrap

/-! ### Parking (R253) -/

theorem recordFault_frame (s : State) (core : Nat) (ctx : BitVec 12) (va : Nat) (write engine : Bool) :
    recordFault s core ctx va write engine
      = { s with cores := (recordFault s core ctx va write engine).cores, sys := (recordFault s core ctx va write engine).sys } := by
  unfold recordFault
  extract_lets region kind bit
  split
  · rfl
  · split
    · rfl
    · split <;> rfl

theorem recordFaults_frame (s : State) (core : Nat) (ctx : BitVec 12) (vas : List Nat) (write engine : Bool) :
    recordFaults s core ctx vas write engine
      = { s with cores := (recordFaults s core ctx vas write engine).cores, sys := (recordFaults s core ctx vas write engine).sys } := by
  unfold recordFaults
  generalize (vas.map (· / 2 ^ 16)).eraseDups = rs
  induction rs generalizing s with
  | nil => rfl
  | cons r rs ih => rw [List.foldl_cons, ih, recordFault_frame]

theorem State.hold_cw (s : State) (h : Hold) : (s.hold h).cw = s.cw.setUnit s.cur.u (fun v => { v with hold := h }) := s.setCw_cw _

theorem State.hold_unit {s : State} (h : Hold) (hu : s.cur.u < s.arch.units.length) : (s.hold h).unit = { s.unit with hold := h } := by
  show (s.hold h).cw.unit s.cur.u = _
  rw [State.hold_cw, Warp.setUnit_unit _ hu]
  rfl

theorem faultParked_hold {s : State} (hu : s.cur.u < s.arch.units.length) : FaultParked s (s.hold (.fault s.cur.slotVec)) := by
  have hcw := s.hold_cw (.fault s.cur.slotVec)
  refine ⟨rfl, by rw [State.hold_unit _ hu], congrArg (·.accs) hcw, fun _ => rfl, congrArg (·.arch.sregs) hcw, fun r l => ?_⟩
  rw [State.vreg, State.arch, hcw]
  rfl

/-- A slot parked after its fault is recorded has done nothing else. -/
theorem onVerdict_park {s t : State} {write : Bool} {ps : List Placed} {go : State → State} {vas : List Nat} (hv : verdict ps = .park vas)
    (hmove : TokensMove s t) (hu : s.cur.u < s.arch.units.length) : FaultParked s (onVerdict t write ps go) := by
  have heq : onVerdict t write ps go
      = (recordFaults t t.cw.core t.cw.ctx vas write false).hold (.fault (recordFaults t t.cw.core t.cw.ctx vas write false).cur.slotVec) := by
    rw [recordFaults_frame]
    simp only [onVerdict, hv]
    rw [recordFaults_frame]
  have hrec := recordFaults_frame t t.cw.core t.cw.ctx vas write false
  rw [heq]
  generalize recordFaults t t.cw.core t.cw.ctx vas write false = u at *
  have hcur : u.cur = s.cur := (congrArg State.cur hrec).trans hmove.cur
  have hcw : u.cw = s.cw := by rw [← hmove.cw, hrec]; rfl
  have hvreg : ∀ r l, u.vreg r l = s.vreg r l := fun r l => by rw [← hmove.vreg, hrec]; rfl
  have hmem : ∀ a, homeByte u a = homeByte s a := fun a => by rw [homeByte, homeByte, ← hmove.mem, hrec]
  obtain ⟨hwait, hhold, haccs, hm, hs, hv⟩ := faultParked_hold (s := u) (by rw [State.arch, hcw, hcur]; exact hu)
  exact ⟨hwait, by rw [hhold, hcur], by rw [haccs, hcw], fun a => (hm a).trans (hmem a), by rw [hs, State.arch, hcw, State.arch],
    fun r l => (hv r l).trans (hvreg r l)⟩

/-! ### The instructions -/

/-- A global access that has not been handed out and does not go on is what its verdict says. -/
theorem exec_global_failed {i : Instr} {f : AccessForm} (hi : globalForm i = some f) {s : State} (hfresh : f.fresh s)
    (hnot : (globalIssue f s).cur.status ≠ .ok) : exec i s = .next (globalIssue f s) := by
  rw [exec_global_fresh hi hfresh, if_neg fun h => hnot h.1]

theorem exec_scratch_failed {i : Instr} {f : AccessForm} {cluster : Bool} (hi : scratchForm i = some (f, cluster)) {s : State}
    (hfresh : f.fresh s) (hnot : (scratchIssue f cluster s).cur.status ≠ .ok) : exec i s = .next (scratchIssue f cluster s) := by
  rw [exec_scratch_fresh hi hfresh, if_neg fun h => hnot h.1]

/-- LDF and STE whose checks fail do what their verdict says. -/
theorem exec_fe_trap {load : Bool} {o : VmOp} {x : Option MemX} {s : State} (hfresh : (feForm load o x).fresh s) {cause addr : Nat} {lanes : Lanes}
    (hv : verdict (scratchPlaced s true ((feForm load o x).pieces s)) = .trap cause lanes addr) (htorn : tornDown s s.cw.ctx = false)
    (hcan : CanTrap s) (hvec : s.cur.slotVec = true) :
    ∃ t, exec (if load then .vldf o x else .vste o x) s = .next t ∧ TrapTaken s t 2 cause 0 lanes addr true := by
  obtain ⟨hrel, hissued, hfe, -⟩ := hfresh
  have htrap : TrapTaken s (feIssue s o x load (memScope 2 x)) 2 cause 0 lanes addr true := by
    rw [feIssue, if_pos hfe, feForm_vmPieces load]
    exact onVerdict_trap hv htorn hcan hvec
  refine ⟨_, (exec_fe load o x s).trans (congrArg _ (feAccess_issue load hissued
    (fun h => hrel ((feForm_fields load o x).1.trans h)) ?_)), htrap⟩
  rw [htrap.1]; exact nofun

/-- A scalar access whose checks fail. -/
theorem scalar_placed_va {s : State} {need : Need} {a i6 : BitVec 6} {cause addr : Nat} {lanes : Lanes}
    (hv : verdict (scalarPlaced s need a i6).1 = .trap cause lanes addr) : addr = (scalarVa s a i6).toNat := by
  obtain ⟨q, hq, rfl⟩ := verdict_trap hv
  have hmem : q.1 ∈ (scalarPlaced s need a i6).1.map (·.1) := List.mem_map_of_mem hq
  rw [scalarPlaced, placeGlobal_pieces] at hmem
  rw [List.mem_singleton.mp hmem]

theorem exec_scalar {s : State} (d a i6 : BitVec 6) (load : Bool) (hon : s.scalarOn = true) :
    ∃ write go, exec (if load then .sld d a i6 else .sst d a i6) s
      = .next (onVerdict (scalarPlaced s (if load then .load else .store) a i6).2 write
          (scalarPlaced s (if load then .load else .store) a i6).1 go) := by
  cases load
  · exact ⟨_, _, exec_sst d a i6 hon⟩
  · exact ⟨_, _, exec_sld d a i6 hon⟩

/-- Settles O15: each access goes through `onVerdict` with its placed pieces, and no other lane's part is handed out. -/
theorem failedAccessChecks : Obligations.FailedAccessChecks := by
  unfold Obligations.FailedAccessChecks
  refine ⟨fun i f s hi hfresh hvec => ⟨fun cause lanes addr hv htorn hcan => ?_, fun vas hv hu => ?_⟩,
    fun i f cluster s hi hfresh hvec => ⟨scratchPlaced_not_park s cluster _, fun cause lanes addr hv htorn hcan => ?scratch⟩,
    fun d a i6 load s => ?scalar⟩
  · have hmove := placed_tokensMove f s
    have htrap : TrapTaken (f.placed s).2 (globalIssue f s) 2 cause 0 lanes addr true :=
      onVerdict_trap hv (by rw [hmove.cw]; exact htorn) hcan (by rw [hmove.cur]; exact hvec)
    exact ⟨_, exec_global_failed hi hfresh (by rw [htrap.1]; exact nofun), htrap⟩
  · have hpark : FaultParked s (globalIssue f s) := onVerdict_park hv (placed_tokensMove f s) hu
    exact ⟨_, exec_global_failed hi hfresh (by rw [hpark.1]; exact nofun), hpark⟩
  case scratch =>
    rcases hi with hi | ⟨o, x, load, rfl, rfl, rfl⟩
    · have htrap : TrapTaken s (scratchIssue f cluster s) 2 cause 0 lanes addr true := onVerdict_trap hv htorn hcan hvec
      exact ⟨_, exec_scratch_failed hi hfresh (by rw [htrap.1]; exact nofun), htrap⟩
    · exact exec_fe_trap hfresh hv htorn hcan hvec
  case scalar =>
    intro i va placed hon hvec
    have hmove : TokensMove s placed.2 := placeGlobal_tokensMove ..
    obtain ⟨write, go, hexec⟩ := exec_scalar d a i6 load hon
    refine ⟨fun cause lanes addr hv htorn hcan => ⟨_, hexec, ?_⟩, fun vas hv hu => ⟨_, hexec, onVerdict_park hv hmove hu⟩⟩
    have hva : addr = va.toNat := scalar_placed_va (a := a) (i6 := i6) hv
    have htrap := onVerdict_trap_scalar (write := write) (go := go) hv (by rw [hmove.cw]; exact htorn) hcan (by rw [hmove.cur]; exact hvec)
    rw [hmove.unit, hva] at htrap
    exact htrap

end Sys2Proof.Machine
end

section
/-! Accesses that complete (R113, R117, R118, R132): what is delivered to the destination, and what follows a completion. -/

namespace Sys2Proof.Machine

open Sys2Proof.Claim

/-! ### Delivery (R113, R118) -/

/-- The two's-complement reading of a number's low bits is that of its bit vector. -/
theorem signed_eq_toInt (n v : Nat) : signed n v = (BitVec.ofNat n v).toInt := by
  unfold signed
  rw [BitVec.toInt_eq_toNat_cond, BitVec.toNat_ofNat]
  cases n with
  | zero => simp [Nat.mod_one]
  | succ n =>
    dsimp only
    rw [Nat.add_sub_cancel, Nat.pow_succ]
    by_cases h : 2 ^ n ≤ v % (2 ^ n * 2)
    · rw [if_pos ⟨by omega, h⟩, if_neg (by omega)]
    · rw [if_neg (fun hn => h hn.2), if_pos (by omega)]

/-- What an access below 32 bits leaves in a register: its value extended. -/
theorem ofNat_extended {d : AccDest} {v : Nat} (hd : d.bytes < 4) (hv : v < 2 ^ (8 * d.bytes)) :
    BitVec.ofNat 32 (if d.signed then wrap 32 (signed (8 * d.bytes) v) else v) = loadedWord d v 0 := by
  rw [loadedWord, if_pos hd]
  split
  · rw [wrap_eq_toNat_ofInt, signed_eq_toInt, BitVec.signExtend]
  · refine BitVec.eq_of_toNat_eq ?_
    rw [BitVec.toNat_setWidth, BitVec.toNat_ofNat, BitVec.toNat_ofNat, Nat.mod_eq_of_lt hv]
where
  wrap_eq_toNat_ofInt {x : Int} : BitVec.ofNat 32 (wrap 32 x) = BitVec.ofInt 32 x := by
    refine BitVec.eq_of_toNat_eq ?_
    rw [BitVec.toNat_ofNat, BitVec.toNat_ofInt, wrap]
    exact Nat.mod_eq_of_lt (by omega)

/-- A run of registers written in a lane. -/
theorem WarpArch.getV_foldl_setV (a : WarpArch) (free r : Nat) {l j : Nat} (f : Nat → W32) (n k : Nat) (hl : l < 64) (hj : j < 64) :
    ((List.range n).foldl (fun b k => b.setV (r + k) l (f k)) a).getV free (r + k) j
      = if k < n ∧ j = l then f k else a.getV free (r + k) j := by
  induction n with
  | zero => simp
  | succ n ih =>
    rw [List.range_succ, List.foldl_append, List.foldl_cons, List.foldl_nil, getV_setV_lane _ _ _ _ _ _ _ hl hj, ih]
    by_cases hk : k = n
    · subst hk; by_cases hjl : j = l <;> simp [hjl]
    · rw [if_neg (by omega)]
      exact if_congr (by omega) rfl rfl

/-- The destination holds the bytes in a lane of a register state. -/
def LoadedIn (a : WarpArch) (free : Nat) (d : AccDest) (lane : Nat) (bs : List Byte) : Prop :=
  if d.scalar then a.getS d.reg = BitVec.ofNat 64 (leValue bs)
  else ∀ k, k < max 1 (d.bytes / 4) → a.getV free (d.reg + k) lane = loadedWord d (leValue bs) k

theorem loaded_iff (t : State) (w : Nat) (d : AccDest) (lane : Nat) (bs : List Byte) :
    Loaded t w d lane bs ↔ LoadedIn (t.warp w).arch t.free d lane bs := Iff.rfl

/-- A register of the destination after one lane is delivered. -/
theorem WarpArch.getV_deliver (a : WarpArch) (free : Nat) {d : AccDest} {l j k : Nat} {bs : List Byte} (hd : d.scalar = false)
    (hlen : bs.length = d.bytes) (hl : l < 64) (hj : j < 64) (hk : k < max 1 (d.bytes / 4)) :
    (a.deliver d l bs).getV free (d.reg + k) j = if j = l then loadedWord d (leValue bs) k else a.getV free (d.reg + k) j := by
  have hv : leValue bs < 2 ^ (8 * d.bytes) := hlen ▸ leValue_lt bs
  simp only [deliver, hd, Bool.false_eq_true, if_false]
  by_cases h4 : d.bytes < 4
  · obtain rfl : k = 0 := by omega
    rw [if_pos h4, getV_setV_lane _ _ _ _ _ _ _ hl hj, ofNat_extended h4 hv]
    exact if_congr (and_iff_right rfl) rfl rfl
  · rw [if_neg h4, getV_foldl_setV _ _ _ (fun k => BitVec.ofNat 32 (leValue bs / 2 ^ (32 * k))) _ _ hl hj, loadedWord, if_neg h4]
    exact if_congr (and_iff_right (by omega)) rfl rfl

/-- The lanes of a list delivered one after another. -/
def deliverLanes (d : AccDest) (got : List (Nat × Nat × List Byte)) (lanes : List Nat) (a : WarpArch) : WarpArch :=
  lanes.foldl (fun b l => b.deliver d l (laneBytes got l)) a

/-- A destination lane after lanes are delivered: its bytes, whatever lanes come after. -/
theorem getV_deliverLanes (a : WarpArch) (free : Nat) {d : AccDest} {got : List (Nat × Nat × List Byte)} {lanes : List Nat} {j k : Nat}
    (hd : d.scalar = false) (hlen : ∀ l, l ∈ lanes → (laneBytes got l).length = d.bytes ∧ l < 64) (hj : j < 64)
    (hk : k < max 1 (d.bytes / 4)) :
    (deliverLanes d got lanes a).getV free (d.reg + k) j
      = if j ∈ lanes then loadedWord d (leValue (laneBytes got j)) k else a.getV free (d.reg + k) j := by
  induction lanes generalizing a with
  | nil => rfl
  | cons l ls ih =>
    obtain ⟨hlen1, hl⟩ := hlen l List.mem_cons_self
    rw [deliverLanes, List.foldl_cons, ← deliverLanes, ih _ fun l hl => hlen l (List.mem_cons_of_mem _ hl),
      WarpArch.getV_deliver a free hd hlen1 hl hj hk]
    by_cases hjl : j = l
    · subst hjl; simp
    · simp [hjl]

/-- The one entry of a lane among returned bytes. -/
theorem filter_lane {got : List (Nat × Nat × List Byte)} (hnd : (got.map (·.1)).Nodup) {g : Nat × Nat × List Byte} (hg : g ∈ got) :
    got.filter (fun e => e.1 == g.1) = [g] := by
  induction got with
  | nil => cases hg
  | cons e es ih =>
    rw [List.map_cons, List.nodup_cons] at hnd
    obtain ⟨hout, hnd⟩ := hnd
    rcases List.mem_cons.mp hg with rfl | hg
    · rw [List.filter_cons, if_pos (beq_self_eq_true g.1), List.filter_eq_nil_iff.mpr]
      exact fun x hx heq => hout (List.mem_map.mpr ⟨x, hx, eq_of_beq heq⟩)
    · have hne : ¬ (e.1 == g.1) = true := fun heq => hout (List.mem_map.mpr ⟨g, hg, (eq_of_beq heq).symm⟩)
      rw [List.filter_cons, if_neg hne, ih hnd hg]

theorem laneBytes_eq {got : List (Nat × Nat × List Byte)} (hnd : (got.map (·.1)).Nodup) {g : Nat × Nat × List Byte} (hg : g ∈ got) :
    laneBytes got g.1 = g.2.2 := by
  unfold laneBytes
  rw [filter_lane hnd hg]

/-- Returned bytes of lanes of a destination: one entry a lane, of its size; one entry for a scalar. -/
structure Returned (d : AccDest) (got : List (Nat × Nat × List Byte)) : Prop where
  nodup : (got.map (·.1)).Nodup
  scalar : d.scalar = true → got.length = 1
  each : ∀ g, g ∈ got → g.2.2.length = d.bytes ∧ (d.scalar = true ∨ g.1 < 64)

/-- Every lane delivered holds its bytes. -/
theorem loadedIn_deliverLanes (a : WarpArch) (free : Nat) {d : AccDest} {got : List (Nat × Nat × List Byte)} (h : Returned d got)
    {g : Nat × Nat × List Byte} (hg : g ∈ got) : LoadedIn (deliverLanes d got (got.map (·.1)).eraseDups a) free d g.1 g.2.2 := by
  have hbytes := laneBytes_eq h.nodup hg
  unfold LoadedIn
  split
  · next hd =>
    obtain ⟨e, rfl⟩ := List.length_eq_one_iff.mp (h.scalar hd)
    rcases List.mem_singleton.mp hg with rfl
    have hlanes : ([g].map (·.1)).eraseDups = [g.1] := rfl
    rw [hlanes, deliverLanes, List.foldl_cons, List.foldl_nil, hbytes, WarpArch.deliver, if_pos hd, WarpArch.getS_setS, if_pos rfl]
  · next hd =>
    have hd : d.scalar = false := Bool.not_eq_true _ ▸ hd
    have hlane : ∀ e, e ∈ got → e.1 < 64 := fun e he => (h.each e he).2.resolve_left (by rw [hd]; decide)
    intro k hk
    rw [getV_deliverLanes a free hd (fun l hl => ?_) (hlane g hg) hk, if_pos (List.mem_eraseDups.mpr (List.mem_map_of_mem hg)), hbytes]
    obtain ⟨e, he, rfl⟩ := List.mem_map.mp (List.mem_eraseDups.mp hl)
    exact ⟨by rw [laneBytes_eq h.nodup he]; exact (h.each e he).1, hlane e he⟩

/-! ### Progress -/

/-- An access whose last part has returned is no longer outstanding. -/
theorem progress_completed (x : Warp) {c : Access} (hparts : c.parts = []) : ∀ e, e ∈ (x.progress c).accs → e.id ≠ c.id := by
  intro e he
  have hempty : (c.parts.isEmpty) = true := by rw [hparts]; rfl
  simp only [Warp.progress, hempty, if_true, Warp.finishAccess] at he
  exact bne_iff_ne.mp (List.mem_filter.mp he).2

/-- The registers of a warp after the last part of an access has returned. -/
theorem progress_arch (x : Warp) {c : Access} {d : AccDest} (hparts : c.parts = []) (hdest : c.dest = some d) :
    ∃ units stack, (x.progress c).arch
      = { deliverLanes d c.got (c.got.map (·.1)).eraseDups x.arch with units := units, stack := stack } := by
  have hempty : (c.parts.isEmpty) = true := by rw [hparts]; rfl
  have hfull : ((c.got.map (·.1)).eraseDups).filter (fun l => !c.parts.any (fun p => p.lane == l)) = (c.got.map (·.1)).eraseDups := by
    rw [hparts]; exact List.filter_eq_self.mpr fun _ _ => rfl
  simp only [Warp.progress, hempty, if_true, hdest, hfull]
  exact ⟨_, _, rfl⟩

theorem loadedIn_progress (x : Warp) (free : Nat) {c : Access} {d : AccDest} (hparts : c.parts = []) (hdest : c.dest = some d)
    (h : Returned d c.got) {g : Nat × Nat × List Byte} (hg : g ∈ c.got) : LoadedIn (x.progress c).arch free d g.1 g.2.2 := by
  obtain ⟨units, stack, harch⟩ := progress_arch x hparts hdest
  rw [harch]
  exact loadedIn_deliverLanes x.arch free h hg

theorem mem_updArch {x : Warp} {e : Access} (id : Nat) (f : WarpArch → WarpArch) (he : e ∈ x.accs) :
    ∃ e', e' ∈ (x.updArch id f).accs ∧ e'.id = e.id := by
  refine ⟨_, List.mem_map_of_mem he, ?_⟩
  split <;> rfl

/-- An access of which nothing has returned keeps its parts. -/
theorem progress_waits (x : Warp) {c e : Access} (hparts : c.parts ≠ []) (hgot : c.got = []) (he : e ∈ x.accs) (hid : e.id = c.id) :
    c ∈ (x.progress c).accs := by
  have hempty : (c.parts.isEmpty) = false := by simpa using hparts
  simp only [Warp.progress, hempty, Bool.false_eq_true, if_false]
  obtain ⟨e', he', hid'⟩ := mem_updArch c.id _ he
  refine List.mem_map.mpr ⟨e', he', ?_⟩
  rw [if_pos (beq_iff_eq.mpr (hid'.trans hid)), hgot]
  cases c
  cases hgot
  rfl

/-! ### After a completion (R193, R303) -/

/-- Posted writes of warp `w` have left and its block instances have settled; nothing else differs. -/
structure Settles (w : Nat) (s t : State) : Prop where
  state : t = { s with warps := t.warps, blocks := t.blocks, tok := { s.tok with posted := t.tok.posted }, links := t.links }
  others : ∀ v, v ≠ w → t.warp v = s.warp v
  warp : t.warp w = { s.warp w with touched := (t.warp w).touched, accs := (t.warp w).accs, arch := { (s.warp w).arch with
    flags := (t.warp w).arch.flags, insts := (t.warp w).arch.insts } }
  accs : unstaged (t.warp w).accs = unstaged (s.warp w).accs
  scratch : ∀ b, (t.block b).sp = (s.block b).sp ∧ (t.block b).full = (s.block b).full

theorem afterAccess_settles (s : State) (w : Nat) : Settles w s (afterAccess s w) := by
  have hposts := flushPosted_postsLeave s w
  obtain ⟨flags, insts, hwarps⟩ := settleInsts_warp (flushPosted s w) w 0
  have hframe := settleInsts_frame (flushPosted s w) w 0
  have hself := (hwarps w).trans (if_pos rfl)
  unfold afterAccess
  generalize flushPosted s w = t at *
  refine ⟨?state, fun v hv => (hwarps v).trans ((if_neg hv).trans (hposts.others v hv)), ?warp, ?accs, fun b => ?_⟩
  case state => rw [hframe, hposts.state]
  case warp => rw [hself, hposts.warp]
  case accs => rw [hself]; exact hposts.accs
  · rw [hframe]; exact hposts.scratch b

section
variable {w : Nat} {s t : State} (h : Settles w s t)
include h

theorem Settles.mem : t.mem = s.mem := (congrArg State.mem h.state :)
theorem Settles.free : t.free = s.free := (congrArg State.free h.state :)
theorem Settles.sys : t.sys = s.sys := (congrArg State.sys h.state :)
theorem Settles.ev : t.ev = s.ev := (congrArg State.ev h.state :)
theorem Settles.memory (a : Nat) : homeByte t a = homeByte s a := by rw [homeByte, h.mem, homeByte]

theorem Settles.holding (a : BitVec 13) (sec : Nat) : holding t a sec = holding s a sec := by
  rw [h.state]; rfl

/-- What is no longer outstanding stays so. -/
theorem Settles.completed {c : Access} (hdone : ∀ e, e ∈ (s.warp w).accs → e.id ≠ c.id) : ∀ e, e ∈ (t.warp w).accs → e.id ≠ c.id := by
  intro e he hid
  have hmem : unstage e ∈ unstaged (s.warp w).accs := h.accs ▸ List.mem_map_of_mem he
  obtain ⟨e', he', heq⟩ := List.mem_map.mp hmem
  exact hdone e' he' ((congrArg Access.id heq).trans hid)

/-- What is outstanding stays so, but for its stage. -/
theorem Settles.outstanding {e : Access} (he : e ∈ (s.warp w).accs) : ∃ e', e' ∈ (t.warp w).accs ∧ e' = { e with stage := e'.stage } := by
  have hmem : unstage e ∈ unstaged (t.warp w).accs := h.accs ▸ List.mem_map_of_mem he
  obtain ⟨e', he', heq⟩ := List.mem_map.mp hmem
  have hsame : { unstage e' with stage := e'.stage } = { unstage e with stage := e'.stage } := congrArg (fun c : Access => { c with stage := e'.stage }) heq
  exact ⟨e', he', hsame⟩

theorem Settles.loadedIn {d : AccDest} {l : Nat} {bs : List Byte} (hl : LoadedIn (s.warp w).arch s.free d l bs) : Loaded t w d l bs := by
  rw [loaded_iff, h.warp, h.free]
  exact hl

end

/-- The last part of an access returns to warp `w` of a state. -/
def settleProgress (s : State) (w : Nat) (c : Access) : State := afterAccess (s.setWarp w ((s.warp w).progress c)) w

theorem settleProgress_settles (s : State) (w : Nat) (c : Access) :
    Settles w (s.setWarp w ((s.warp w).progress c)) (settleProgress s w c) := afterAccess_settles ..

theorem settleProgress_completed (s : State) (w : Nat) {c : Access} (hparts : c.parts = []) :
    ∀ e, e ∈ ((settleProgress s w c).warp w).accs → e.id ≠ c.id :=
  (settleProgress_settles s w c).completed (by rw [State.setWarp_warp_self]; exact progress_completed _ hparts)

theorem settleProgress_loaded (s : State) (w : Nat) {c : Access} {d : AccDest} (hparts : c.parts = []) (hdest : c.dest = some d)
    (h : Returned d c.got) {g : Nat × Nat × List Byte} (hg : g ∈ c.got) : Loaded (settleProgress s w c) w d g.1 g.2.2 :=
  (settleProgress_settles s w c).loadedIn (by rw [State.setWarp_warp_self]; exact loadedIn_progress _ _ hparts hdest h hg)

theorem settleProgress_homeByte (s : State) (w : Nat) (c : Access) (a : Nat) : homeByte (settleProgress s w c) a = homeByte s a :=
  (settleProgress_settles s w c).memory a

theorem settleProgress_scratch (s : State) (w : Nat) (c : Access) (b : Nat) :
    ((settleProgress s w c).block b).sp = (s.block b).sp ∧ ((settleProgress s w c).block b).full = (s.block b).full :=
  (settleProgress_settles s w c).scratch b

theorem settleProgress_holding (s : State) (w : Nat) (c : Access) (a : BitVec 13) (sec : Nat) :
    holding (settleProgress s w c) a sec = holding s a sec := by
  rw [(settleProgress_settles s w c).holding]; rfl

end Sys2Proof.Machine
end

section
/-! Bytes stored one after another (R116): in a sector and in a block's scratchpad. -/

namespace Sys2Proof.Machine

open Sys2Proof.Claim

/-! ### Steps -/

/-- The writes of parts at addresses modulo `n`. -/
def partSteps (n : Nat) (ps : List AccPart) : List (Nat × List Byte) := ps.map (fun p => (p.addr % n, p.data))

theorem storedByte_eq (n : Nat) (ps : List AccPart) (off : Nat) (old : Byte) :
    storedByte n ps off old = steppedByte (partSteps n ps) off old := by
  rw [storedByte, steppedByte, partSteps, List.foldl_map]

theorem steppedByte_append (xs ys : List (Nat × List Byte)) (off : Nat) (old : Byte) :
    steppedByte (xs ++ ys) off old = steppedByte ys off (steppedByte xs off old) := by
  rw [steppedByte, List.foldl_append]; rfl

/-- Writes within one block of `n` bytes, seen from its start. -/
theorem steppedByte_mod {n : Nat} {steps : List (Nat × List Byte)} {a : Nat} (h : ∀ e, e ∈ steps → e.1 / n = a / n) (old : Byte) :
    steppedByte (steps.map (fun e => (e.1 % n, e.2))) (a % n) old = steppedByte steps a old := by
  induction steps generalizing old with
  | nil => rfl
  | cons e es ih =>
    have hq := h e List.mem_cons_self
    have he := Nat.div_add_mod e.1 n
    have ha := Nat.div_add_mod a n
    rw [hq] at he
    have hsub : a % n - e.1 % n = a - e.1 := by omega
    have hiff : (e.1 % n ≤ a % n ∧ a % n < e.1 % n + e.2.length) ↔ (e.1 ≤ a ∧ a < e.1 + e.2.length) := by omega
    have hhead : (if e.1 % n ≤ a % n ∧ a % n < e.1 % n + e.2.length then (e.2[a % n - e.1 % n]?).getD old else old)
        = if e.1 ≤ a ∧ a < e.1 + e.2.length then (e.2[a - e.1]?).getD old else old := by
      rw [hsub]; exact if_congr hiff rfl rfl
    have htail := ih (fun e he => h e (List.mem_cons_of_mem _ he)) (if e.1 ≤ a ∧ a < e.1 + e.2.length then (e.2[a - e.1]?).getD old else old)
    simp only [steppedByte, List.map_cons, List.foldl_cons] at htail ⊢
    rw [hhead, htail]

/-! ### Bytes of a sector (R267) -/

/-- Byte `k` of a sector. -/
def sectorByte (d : SectorData) (k : Nat) : Byte := d.extractLsb' (8 * k) 8

theorem testBit_leValue {bs : List Byte} {m : Nat} {b : Byte} (hb : bs[m]? = some b) {i : Nat} (hi : i < 8) :
    (leValue bs).testBit (8 * m + i) = b.getLsbD i := by
  obtain ⟨hm, rfl⟩ := List.getElem?_eq_some_iff.mp hb
  rw [Nat.add_comm, ← Nat.testBit_div_two_pow, ← leValue_drop, List.drop_eq_getElem_cons hm, leValue, Nat.add_comm,
    show 256 * leValue (bs.drop (m + 1)) = 2 ^ 8 * leValue (bs.drop (m + 1)) from rfl, Nat.testBit_two_pow_mul_add _ bs[m].isLt, if_pos hi]
  rfl

theorem sectorByte_sectorPut (d : SectorData) {off k : Nat} {bs : List Byte} (hk : k < 64) :
    sectorByte (sectorPut d off bs) k = if off ≤ k ∧ k < off + bs.length then (bs[k - off]?).getD (sectorByte d k) else sectorByte d k := by
  refine BitVec.eq_of_getLsbD_eq fun i hi => ?_
  have hbit : (sectorByte (sectorPut d off bs) k).getLsbD i
      = if 8 * off ≤ 8 * k + i ∧ 8 * k + i < 8 * off + 8 * bs.length then (leValue bs).testBit (8 * k + i - 8 * off)
        else d.toNat.testBit (8 * k + i) := by
    rw [sectorByte, BitVec.getLsbD_extractLsb', sectorPut, BitVec.getLsbD_ofNat, testBit_setBits, decide_eq_true hi,
      decide_eq_true (by omega), Bool.true_and, Bool.true_and]
  have hold : (sectorByte d k).getLsbD i = d.toNat.testBit (8 * k + i) := by
    rw [sectorByte, BitVec.getLsbD_extractLsb', decide_eq_true hi, Bool.true_and]; rfl
  rw [hbit]
  by_cases hin : off ≤ k ∧ k < off + bs.length
  · have hget : bs[k - off]? = some bs[k - off] := List.getElem?_eq_getElem (by omega)
    rw [if_pos hin, if_pos (by omega), hget, Option.getD_some, show 8 * k + i - 8 * off = 8 * (k - off) + i by omega,
      testBit_leValue hget hi]
  · rw [if_neg hin, if_neg (by omega), hold]

theorem sectorByte_putSteps {steps : List (Nat × List Byte)} (d : SectorData) {k : Nat} (hk : k < 64) : sectorByte (putSteps d steps) k = steppedByte steps k (sectorByte d k) := by
  induction steps generalizing d with
  | nil => rfl
  | cons e es ih =>
    rw [putSteps, List.foldl_cons, ← putSteps, ih, sectorByte_sectorPut d hk]
    rfl

/-- The bytes read of a sector. -/
theorem sectorBytes_eq (d : SectorData) (off n : Nat) : sectorBytes d off n = bytesAt (sectorByte d) off n := by
  rw [sectorBytes, leSplit_eq_map, bytesAt]
  refine List.map_congr_left fun k _ => ?_
  rw [Nat.div_div_eq_div_mul, ← pow_add, ← Nat.mul_add, ofNat_div_eq_extractLsb']
  rfl

/-! ### Bytes of a scratchpad (R112, R116, R119) -/

theorem getRun_eq_bytesAt (d : Byte) (m : Sparse Byte) (a n : Nat) : Sparse.getRun d m a n = bytesAt (Sparse.get d m) a n := by
  induction n generalizing a with
  | zero => rfl
  | succ n ih =>
    rw [Sparse.getRun, ih, bytesAt, bytesAt, List.range_succ_eq_map, List.map_cons, List.map_map, Nat.add_zero]
    refine congrArg _ (List.map_congr_left fun k _ => ?_)
    rw [Function.comp_apply, Nat.succ_eq_add_one, Nat.add_assoc, Nat.add_comm 1 k]

theorem spRead_eq (s : State) (b off n : Nat) : spRead s b off n = bytesAt (spByte s b) off n := getRun_eq_bytesAt ..

theorem logWord_frame (b : Block) (word : Nat) : logWord b word = { b with logged := (logWord b word).logged, undo := (logWord b word).undo } := by
  unfold logWord
  split <;> rfl

theorem foldl_logWord_frame (ks : List Nat) (b : Block) :
    ks.foldl logWord b = { b with logged := (ks.foldl logWord b).logged, undo := (ks.foldl logWord b).undo } := by
  induction ks generalizing b with
  | nil => rfl
  | cons k ks ih => rw [List.foldl_cons, ih, logWord_frame]

theorem get_foldl_set {α : Type} [DecidableEq α] (d v : α) (ks : List Nat) (m : Sparse α) (j : Nat) :
    Sparse.get d (ks.foldl (fun m k => Sparse.set d m k v) m) j = if j ∈ ks then v else Sparse.get d m j := by
  induction ks generalizing m with
  | nil => rfl
  | cons k ks ih =>
    rw [List.foldl_cons, ih, Sparse.get_set]
    by_cases hj : j = k <;> simp [hj]

theorem mem_wordsOf {off n k : Nat} (hn : 0 < n) : k ∈ wordsOf off n ↔ ∃ j, j < n ∧ (off + j) / 4 = k := by
  rw [wordsOf, List.mem_map]
  constructor
  · rintro ⟨i, hi, rfl⟩
    have hi := List.mem_range.mp hi
    exact ⟨4 * (off / 4 + i) - off, by omega, by omega⟩
  · rintro ⟨j, hj, rfl⟩
    exact ⟨(off + j) / 4 - off / 4, List.mem_range.mpr (by omega), by omega⟩

/-- A write changes blocks, and the donations that waited on it, alone. -/
theorem spWrite_frame (s : State) (blk : Nat) (foreign : Bool) (off : Nat) (bs : List Byte) (fe : BitVec 2) :
    spWrite s blk foreign off bs fe
      = { s with blocks := (spWrite s blk foreign off bs fe).blocks, donations := (spWrite s blk foreign off bs fe).donations } := by
  unfold spWrite setScratch
  split
  · rw [endEligible_state]; rfl
  · rfl

/-- The written block: its bytes and full/empty bits. -/
theorem spWrite_block (s : State) (blk : Nat) (foreign : Bool) (off : Nat) (bs : List Byte) (fe : BitVec 2) :
    ((spWrite s blk foreign off bs fe).block blk).sp = Sparse.setRun 0 (s.block blk).sp off bs
      ∧ ((spWrite s blk foreign off bs fe).block blk).full = (if fe = 0 then (s.block blk).full
          else (wordsOf off bs.length).foldl (fun m k => Sparse.set false m k (fe == 2)) (s.block blk).full) := by
  have hkept : ((if foreign then endEligible s blk else s).block blk).sp = (s.block blk).sp
      ∧ ((if foreign then endEligible s blk else s).block blk).full = (s.block blk).full := by
    split
    · exact ⟨(endEligible_kept s blk).sp blk, (endEligible_kept s blk).full blk⟩
    · exact ⟨rfl, rfl⟩
  unfold spWrite
  extract_lets s1 b full
  have hb : b.sp = (s1.block blk).sp ∧ b.full = (s1.block blk).full := by
    simp only [b]; rw [foldl_logWord_frame]; exact ⟨rfl, rfl⟩
  have hself : ∀ x, (setScratch s1 blk x).block blk = x := fun x => State.setBlock_block_self ..
  rw [hself]
  simp only [full, hb.1, hb.2, s1, hkept.1, hkept.2, and_self]

theorem spWrite_others (s : State) {blk k : Nat} (foreign : Bool) (off : Nat) (bs : List Byte) (fe : BitVec 2) (hk : k ≠ blk) :
    ((spWrite s blk foreign off bs fe).block k).sp = (s.block k).sp ∧ ((spWrite s blk foreign off bs fe).block k).full = (s.block k).full
      ∧ ((spWrite s blk foreign off bs fe).block k).eligible = (s.block k).eligible := by
  have hstep : ∀ t b, (setScratch t blk b).block k = t.block k := fun t b => (State.setBlock_block ..).trans (if_neg hk)
  unfold spWrite
  rw [hstep]
  split
  · rw [endEligible_other s hk]; exact ⟨rfl, rfl, rfl⟩
  · exact ⟨rfl, rfl, rfl⟩
where
  endEligible_other (s : State) {blk k : Nat} (hk : k ≠ blk) : (endEligible s blk).block k = s.block k := by
    unfold endEligible
    split
    · split
      · exact (State.setBlock_block ..).trans (if_neg hk)
      · rfl
    · rfl

theorem spByte_spWrite (s : State) (blk : Nat) (foreign : Bool) (off : Nat) (bs : List Byte) (fe : BitVec 2) (k : Nat) :
    spByte (spWrite s blk foreign off bs fe) blk k
      = if off ≤ k ∧ k < off + bs.length then (bs[k - off]?).getD (spByte s blk k) else spByte s blk k := by
  rw [spByte, (spWrite_block ..).1, Sparse.get_setRun]
  refine if_ctx_congr Iff.rfl (fun h => ?_) (fun _ => rfl)
  rw [List.getD_eq_getElem?_getD, List.getElem?_eq_getElem (by omega)]
  rfl

theorem get_full_spWrite (s : State) (blk : Nat) (foreign : Bool) (off : Nat) (bs : List Byte) (fe : BitVec 2) (k : Nat) :
    Sparse.get false ((spWrite s blk foreign off bs fe).block blk).full k
      = if fe = 0 ∨ k ∉ wordsOf off bs.length then Sparse.get false (s.block blk).full k else (fe == 2) := by
  rw [(spWrite_block ..).2]
  by_cases hfe : fe = 0
  · rw [if_pos hfe, if_pos (.inl hfe)]
  · rw [if_neg hfe, get_foldl_set]
    by_cases hk : k ∈ wordsOf off bs.length
    · rw [if_pos hk, if_neg (fun h => h.elim hfe fun h => h hk)]
    · rw [if_neg hk, if_pos (.inr hk)]

theorem spFull_word (s : State) (b k : Nat) : spFull s b (4 * k) = Sparse.get false (s.block b).full k := by
  rw [spFull, Nat.mul_div_cancel_left k (by decide)]

/-! ### Writes to a scratchpad in order (R116) -/

/-- Runs of bytes written one after another at addresses modulo the bank's size. -/
def putScratch (s : State) (blk : Nat) (foreign : Bool) (fe : BitVec 2) (steps : List (Nat × List Byte)) : State :=
  steps.foldl (fun t e => spWrite t blk foreign (e.1 % 2 ^ 21) e.2 fe) s

theorem putScratch_frame (s : State) (blk : Nat) (foreign : Bool) (fe : BitVec 2) (steps : List (Nat × List Byte)) :
    putScratch s blk foreign fe steps = { s with blocks := (putScratch s blk foreign fe steps).blocks,
                                                 donations := (putScratch s blk foreign fe steps).donations } := by
  induction steps generalizing s with
  | nil => rfl
  | cons e es ih => rw [putScratch, List.foldl_cons, ← putScratch, ih, spWrite_frame]

theorem putScratch_others (s : State) {blk k : Nat} (foreign : Bool) (fe : BitVec 2) (steps : List (Nat × List Byte)) (hk : k ≠ blk) :
    ((putScratch s blk foreign fe steps).block k).sp = (s.block k).sp ∧ ((putScratch s blk foreign fe steps).block k).full = (s.block k).full
      ∧ ((putScratch s blk foreign fe steps).block k).eligible = (s.block k).eligible := by
  induction steps generalizing s with
  | nil => exact ⟨rfl, rfl, rfl⟩
  | cons e es ih =>
    obtain ⟨h1, h2, h3⟩ := spWrite_others s foreign (e.1 % 2 ^ 21) e.2 fe hk
    obtain ⟨i1, i2, i3⟩ := ih (spWrite s blk foreign (e.1 % 2 ^ 21) e.2 fe)
    exact ⟨i1.trans h1, i2.trans h2, i3.trans h3⟩

theorem spByte_putScratch (s : State) (blk : Nat) (foreign : Bool) (fe : BitVec 2) (steps : List (Nat × List Byte)) (off : Nat) :
    spByte (putScratch s blk foreign fe steps) blk off
      = steppedByte (steps.map (fun e => (e.1 % 2 ^ 21, e.2))) off (spByte s blk off) := by
  induction steps generalizing s with
  | nil => rfl
  | cons e es ih =>
    rw [putScratch, List.foldl_cons, ← putScratch, ih, spByte_spWrite]
    rfl

theorem get_full_putScratch (s : State) (blk : Nat) (foreign : Bool) (fe : BitVec 2) (steps : List (Nat × List Byte)) (k : Nat) :
    Sparse.get false ((putScratch s blk foreign fe steps).block blk).full k
      = if fe = 0 ∨ ∀ e, e ∈ steps → k ∉ wordsOf (e.1 % 2 ^ 21) e.2.length then Sparse.get false (s.block blk).full k else (fe == 2) := by
  induction steps generalizing s with
  | nil => rw [if_pos (.inr fun _ he => (List.not_mem_nil he).elim)]; rfl
  | cons e es ih =>
    rw [putScratch, List.foldl_cons, ← putScratch, ih, get_full_spWrite]
    by_cases hfe : fe = 0
    · simp only [hfe, true_or, if_true]
    · by_cases hrest : ∀ e, e ∈ es → k ∉ wordsOf (e.1 % 2 ^ 21) e.2.length
      · rw [if_pos (.inr hrest)]
        exact if_congr (or_congr_right ⟨fun h => List.forall_mem_cons.mpr ⟨h, hrest⟩, fun h => (List.forall_mem_cons.mp h).1⟩) rfl rfl
      · rw [if_neg (fun h => h.elim hfe hrest), if_neg (fun h => h.elim hfe fun h => hrest (List.forall_mem_cons.mp h).2)]

end Sys2Proof.Machine
end

section
/-! Loads and stores that perform (R113, R116 to R119, R132, R195): at a bank of a scratchpad and at the core's L2. -/

namespace Sys2Proof.Machine

open Sys2Proof.Claim

/-! ### The access of an event -/

theorem eventAccess_eq {s : State} {x : Warp} {c : Access} (h : eventAccess s = some (x, c)) : x = s.warp s.ev.w ∧ c ∈ x.accs := by
  unfold eventAccess at h
  obtain ⟨c', hfind, heq⟩ := Option.map_eq_some_iff.mp h
  injection heq with hx hc
  subst hx hc
  exact ⟨rfl, List.mem_of_find?_eq_some hfind⟩

theorem without_parts (c : Access) : c.without c.parts = { c with parts := [] } := by
  unfold Access.without
  congr 1
  refine List.filter_eq_nil_iff.mpr fun p hp => ?_
  rw [Bool.not_eq_true', Bool.not_eq_false, List.contains_iff_mem]
  exact hp

theorem mem_setAccess {x : Warp} {c e : Access} (he : e ∈ x.accs) (hid : e.id = c.id) : c ∈ (x.setAccess c).accs :=
  List.mem_map.mpr ⟨e, he, if_pos (beq_iff_eq.mpr hid)⟩

section
variable {s : State} {x : Warp} {c : Access} (h : Performable s x c)
include h

theorem performable_warp : s.warp s.ev.w = x := by
  obtain ⟨hev, -⟩ := h
  exact (eventAccess_eq hev).1.symm

theorem performable_mem : c ∈ x.accs := by
  obtain ⟨hev, -⟩ := h
  exact (eventAccess_eq hev).2

theorem performable_stage : c.stage = .waiting := by
  obtain ⟨-, hstage, -⟩ := h
  exact hstage

/-- All parts of an access to the warp's own scratchpad perform together. -/
theorem performable_ownBankAccess_eq : ownBankAccess s s.ev.w x c s.ev.sector
    = settleProgress (bankPerform s x c c.parts).1 s.ev.w { c with parts := [], got := (bankPerform s x c c.parts).2 } := by
  obtain ⟨-, -, hat, hne, hgot, hmay⟩ := h
  unfold ownBankAccess
  rw [hat]
  dsimp only
  have hne : c.parts.isEmpty = false := by simpa using hne
  rw [hne, hmay, if_neg (by decide), without_parts, hgot]
  rfl

/-- The parts at another block's bank perform; the reply is still to come. -/
theorem performable_remoteBankAccess_eq (hremote : isRemote x c = true) (harrive : isArrival c.kind = false) (hload : c.kind ≠ .loadFe)
    (hstore : c.kind ≠ .storeFe) : exec .remoteBankAccess s = .next ((bankPerform s x c c.parts).1.setWarp s.ev.w
      (((bankPerform s x c c.parts).1.warp s.ev.w).setAccess
        { c with parts := [], got := (bankPerform s x c c.parts).2, stage := .replied })) := by
  obtain ⟨hev, hstage, hat, hne, hgot, hmay⟩ := h
  have hne : c.parts.isEmpty = false := by simpa using hne
  refine congrArg Host.Outcome.next ?_
  simp only [hev, hat, hremote, hstage, hne, hmay, harrive, Bool.not_true, bne_self_eq_false, Bool.or_self, Bool.false_eq_true, if_false,
    without_parts, hgot, List.nil_append, List.isEmpty_nil, if_true]

/-- What replies from another block's bank is outstanding still, for that reply alone. -/
theorem performable_replied {t : State} (ht : t.warp s.ev.w = x) (got : List (Nat × Nat × List Byte)) :
    { c with parts := [], got := got, stage := .replied } ∈ ((t.setWarp s.ev.w ((t.warp s.ev.w).setAccess
      { c with parts := [], got := got, stage := .replied })).warp s.ev.w).accs := by
  rw [State.setWarp_warp_self, ht]
  exact mem_setAccess (performable_mem h) rfl

end

theorem isRemote_own {x : Warp} {c : Access} (h : c.bank = some x.blk) : isRemote x c = false := by
  rw [isRemote, h]; exact bne_self_eq_false x.blk

theorem isRemote_other {x : Warp} {c : Access} {b : Nat} (h : c.bank = some b) (hb : b ≠ x.blk) : isRemote x c = true := by
  rw [isRemote, h]; exact bne_iff_ne.mpr hb

theorem isRemote_global {x : Warp} {c : Access} (h : c.bank = none) : isRemote x c = false := by rw [isRemote, h]

/-! ### Stores to a scratchpad -/

/-- A state with the scratchpads and memory of another may take its place before a store. -/
theorem scratchStored_of_kept {s s1 t : State} {b : Nat} {ps : List AccPart} {fe : BitVec 2} (hk : MemoryKept s s1)
    (h : ScratchStored s1 t b ps fe) : ScratchStored s t b ps fe := by
  obtain ⟨hsp, hfull0, hfull, hothers, hmem⟩ := h
  obtain ⟨kmem, kblk⟩ := hk
  have hbyte : ∀ off, spByte s1 b off = spByte s b off := fun off => by rw [spByte, (kblk b).1, spByte]
  have hbit : ∀ k, spFull s1 b k = spFull s b k := fun k => by rw [spFull, (kblk b).2, spFull]
  exact ⟨fun off => by rw [hsp, hbyte], fun k hk => (hfull0 k hk).trans (hbit _), hfull,
    fun e he => ⟨(hothers e he).1.trans (kblk e).1, (hothers e he).2.trans (kblk e).2⟩, fun a => (hmem a).trans (kmem a)⟩

/-- So it may after a store. -/
theorem scratchStored_kept {s t u : State} {b : Nat} {ps : List AccPart} {fe : BitVec 2} (h : ScratchStored s t b ps fe)
    (hk : MemoryKept t u) : ScratchStored s u b ps fe := by
  obtain ⟨hsp, hfull0, hfull, hothers, hmem⟩ := h
  obtain ⟨kmem, kblk⟩ := hk
  have hbyte : ∀ off, spByte u b off = spByte t b off := fun off => by rw [spByte, (kblk b).1, spByte]
  have hbit : ∀ k, spFull u b k = spFull t b k := fun k => by rw [spFull, (kblk b).2, spFull]
  exact ⟨fun off => by rw [hbyte, hsp], fun k hk => (hbit _).trans (hfull0 k hk), fun k h1 h2 => (hbit _).trans (hfull k h1 h2),
    fun e he => ⟨(kblk e).1.trans (hothers e he).1, (kblk e).2.trans (hothers e he).2⟩, fun a => (kmem a).trans (hmem a)⟩

/-- The runs of bytes that parts write. -/
def partRuns (ps : List AccPart) : List (Nat × List Byte) := ps.map (fun p => (p.addr, p.data))

theorem touchesWord_iff {ps : List AccPart} (hdata : ∀ p, p ∈ ps → p.data ≠ []) (k : Nat) :
    touchesWord ps k ↔ ¬ ∀ e, e ∈ partRuns ps → k ∉ wordsOf (e.1 % 2 ^ 21) e.2.length := by
  rw [partRuns, List.forall_mem_map]
  simp only [not_forall, not_not, touchesWord, exists_prop]
  refine exists_congr fun p => and_congr_right fun hp => ?_
  rw [mem_wordsOf (List.length_pos_iff.mpr (hdata p hp))]

theorem scratchStored_putScratch (s : State) (b : Nat) (foreign : Bool) (fe : BitVec 2) {ps : List AccPart}
    (hdata : ∀ p, p ∈ ps → p.data ≠ []) : ScratchStored s (putScratch s b foreign fe (partRuns ps)) b ps fe := by
  have htouch := touchesWord_iff hdata
  refine ⟨fun off => ?bytes, fun k hk => ?kept, fun k hfe hk => ?set, fun e he => ?others, fun a => ?memory⟩
  case bytes =>
    rw [spByte_putScratch, storedByte_eq, partRuns, List.map_map]; rfl
  case kept =>
    rw [spFull_word, spFull_word, get_full_putScratch, if_pos]
    exact hk.imp_right fun h => by_contra fun hno => h ((htouch k).mpr hno)
  case set =>
    rw [spFull_word, get_full_putScratch, if_neg (fun h => h.elim hfe ((htouch k).mp hk))]
    rfl
  case others =>
    obtain ⟨h1, h2, -⟩ := putScratch_others s foreign fe (partRuns ps) he
    exact ⟨h1, h2⟩
  case memory => rw [homeByte, putScratch_frame]; rfl

theorem endEligible_memoryKept (s : State) (b : Nat) : MemoryKept s (endEligible s b) := (endEligible_kept s b).memoryKept

theorem bankPerform_store {s : State} {x : Warp} {c : Access} {b : Nat} {fe : BitVec 2} (hkind : c.kind = .store fe) (hbank : c.bank = some b)
    (ps : List AccPart) : bankPerform s x c ps
      = (putScratch (if b != x.blk then endEligible s x.blk else s) b (b != x.blk) fe (partRuns ps), []) := by
  simp only [bankPerform, hkind, hbank, Option.getD_some, putScratch, partRuns, List.foldl_map]

theorem settleProgress_memoryKept (s : State) (w : Nat) (c : Access) : MemoryKept s (settleProgress s w c) :=
  ⟨settleProgress_homeByte s w c, settleProgress_scratch s w c⟩

/-! ### The core's L2 (R118, R195, R274) -/

theorem homeIndex_le (sys : SysState) (da : Nat) : homeIndex sys da ≤ 8 := by
  unfold homeIndex
  split
  · split
    · next h => unfold dramEnd at h; omega
    · exact Nat.le_refl 8
  · next a h =>
    unfold physPlace at h
    split at h
    · cases h
    · split at h
      · dsimp only at h
        split at h <;> cases h
      · split at h
        · next hc =>
          obtain ⟨-, hlt, -⟩ := hc
          cases h
          unfold carveBase carveStride at *
          omega
        · split at h <;> cases h
  · unfold nameAshlar
    dsimp only
    split
    · next h =>
      obtain ⟨-, hlt, -⟩ := h
      unfold carveBase carveStride at *
      rw [Option.getD_some]
      omega
    · exact Nat.le_refl 8

/-- A core's L2 is no home (R268). -/
theorem isHomeOf_coreAgent (s : State) (core sec : Nat) : isHomeOf s (coreAgent s core) sec = false := by
  have hle := homeIndex_le s.sys (sectorBase sec)
  have hmod := s.sys.modid.isLt
  have hne : coreAgent s core ≠ homeAgent s.sys (sectorBase sec) := by
    intro h
    have := congrArg BitVec.toNat h
    rw [coreAgent, ownAgent, homeAgent, BitVec.toNat_ofNat, BitVec.toNat_ofNat] at this
    omega
  rw [isHomeOf, beq_false_of_ne hne, Bool.false_and]

/-- What a core's store leaves in its L2. -/
def storedHolding (h : Holding) (steps : List (Nat × List Byte)) : Holding :=
  { h with data := putSteps h.data steps, dirty := true, valid := true, poison := h.poison && !coversSector steps }

/-- A core's store changes its holding, its caches, the marks of changed code, and monitors. -/
theorem coreWrite_eq (s : State) (core sec : Nat) (steps : List (Nat × List Byte)) :
    ∃ dirty cores warps, coreWrite s core sec steps = { s with
      tok := s.tok.setHeld (holdKey (coreAgent s core) sec) (storedHolding (holding s (coreAgent s core) sec) steps),
      codeDirty := dirty, cores := cores, warps := warps } := by
  have hset : setHolding s (coreAgent s core) sec (storedHolding (holding s (coreAgent s core) sec) steps)
      = { s with tok := s.tok.setHeld (holdKey (coreAgent s core) sec) (storedHolding (holding s (coreAgent s core) sec) steps) } := by
    rw [setHolding, isHomeOf_coreAgent]; rfl
  rw [storedHolding] at hset
  unfold coreWrite writeHeld dirtyCode
  dsimp only
  rw [hset]
  exact ⟨_, _, _, rfl⟩

section
variable (s : State) (core sec : Nat) (steps : List (Nat × List Byte))

theorem coreWrite_memoryKept : MemoryKept s (coreWrite s core sec steps) := by
  obtain ⟨dirty, cores, warps, heq⟩ := coreWrite_eq s core sec steps
  rw [heq]
  exact ⟨fun _ => rfl, fun _ => ⟨rfl, rfl⟩⟩

/-- The L2's holding after the store. -/
theorem coreWrite_holding (h : (holding s (coreAgent s core) sec).tokens ≠ 0) :
    holding (coreWrite s core sec steps) (coreAgent s core) sec = storedHolding (holding s (coreAgent s core) sec) steps := by
  obtain ⟨dirty, cores, warps, heq⟩ := coreWrite_eq s core sec steps
  have hhome := isHomeOf_coreAgent s core sec
  rw [heq, holding]
  refine (if_neg (fun hh => by rw [show isHomeOf s (coreAgent s core) sec = true from hh] at hhome; cases hhome)).trans ?_
  show Sparse.get {} (Sparse.set {} s.tok.held _ (if (holding s (coreAgent s core) sec).tokens = 0 then {} else _)) _ = _
  rw [if_neg h, Sparse.get_set, if_pos rfl]

end

theorem satisfied_write {s : State} {agent : BitVec 13} {sec : Nat} (h : satisfied s agent sec true = true) :
    (holding s agent sec).tokens = 2048 := by
  have h := (Bool.and_eq_true_iff.mp h).1
  exact eq_of_beq h

theorem endEligible_holding (s : State) (b : Nat) (agent : BitVec 13) (sec : Nat) : holding (endEligible s b) agent sec = holding s agent sec := by
  rw [endEligible_state]; rfl

theorem endEligible_coreAgent (s : State) (b core : Nat) : coreAgent (endEligible s b) core = coreAgent s core := by
  rw [endEligible_state]; rfl

/-- A cached store whose sector's tokens the L2 holds performs there. -/
theorem performable_globalStore_eq {s : State} {x : Warp} {c : Access} (h : Performable s x c)
    (hsat : satisfied s (coreAgent s x.core) s.ev.sector true = true) : globalStore s s.ev.w x c s.ev.sector
      = settleProgress (coreWrite (endEligible s x.blk) x.core s.ev.sector (partSteps 64 c.parts)) s.ev.w { c with parts := [] } := by
  obtain ⟨-, -, hat, hne, -, hmay⟩ := h
  have hne : c.parts.isEmpty = false := by simpa using hne
  unfold globalStore
  rw [hat]
  dsimp only
  rw [hne, hmay, if_neg (by decide), hsat, if_neg (by decide), without_parts]
  rfl

theorem exec_storePerformed {s : State} {x : Warp} {c : Access} {fe : BitVec 2} (h : Performable s x c) (hkind : c.kind = .store fe)
    (hlocal : isRemote x c = false) : exec .storePerformed s
      = .next (if c.bank.isNone then globalStore s s.ev.w x c s.ev.sector else ownBankAccess s s.ev.w x c s.ev.sector) := by
  obtain ⟨hev, hstage, -⟩ := h
  refine congrArg Host.Outcome.next ?_
  simp only [hev, hlocal, hstage, hkind, bne_self_eq_false, Bool.or_self, Bool.false_eq_true, if_false]

theorem exec_store_own {s : State} {x : Warp} {c : Access} {fe : BitVec 2} (h : Performable s x c) (hkind : c.kind = .store fe)
    (hbank : c.bank = some x.blk) : exec .storePerformed s
      = .next (settleProgress (putScratch s x.blk false fe (partRuns c.parts)) s.ev.w { c with parts := [], got := [] }) := by
  have hown := performable_ownBankAccess_eq h
  rw [bankPerform_store hkind hbank, bne_self_eq_false] at hown
  exact (exec_storePerformed h hkind (isRemote_own hbank)).trans
    (congrArg Host.Outcome.next ((if_neg (by rw [hbank]; exact Bool.false_ne_true)).trans hown))

theorem exec_store_other {s : State} {x : Warp} {c : Access} {fe : BitVec 2} {b : Nat} (h : Performable s x c) (hkind : c.kind = .store fe)
    (hbank : c.bank = some b) (hb : b ≠ x.blk) : ∃ t, t = putScratch (endEligible s x.blk) b true fe (partRuns c.parts)
      ∧ exec .remoteBankAccess s = .next (t.setWarp s.ev.w ((t.warp s.ev.w).setAccess { c with parts := [], got := [], stage := .replied })) := by
  have hother := performable_remoteBankAccess_eq h (isRemote_other hbank hb) (by rw [hkind]; rfl) (by rw [hkind]; exact nofun)
    (by rw [hkind]; exact nofun)
  rw [bankPerform_store hkind hbank, bne_iff_ne.mpr hb] at hother
  exact ⟨_, rfl, hother⟩

theorem exec_store_l2 {s : State} {x : Warp} {c : Access} {fe : BitVec 2} (h : Performable s x c) (hkind : c.kind = .store fe)
    (hbank : c.bank = none) (hsat : satisfied s (coreAgent s x.core) s.ev.sector true = true) : exec .storePerformed s
      = .next (settleProgress (coreWrite (endEligible s x.blk) x.core s.ev.sector (partSteps 64 c.parts)) s.ev.w { c with parts := [] }) := by
  exact (exec_storePerformed h hkind (isRemote_global hbank)).trans
    (congrArg Host.Outcome.next ((if_pos (by rw [hbank]; rfl)).trans (performable_globalStore_eq h hsat)))

/-- An access that progresses without parts left has completed. -/
theorem completed_settleProgress (s u : State) {c c' : Access} (hid : c'.id = c.id) (hparts : c'.parts = []) :
    Completed s (settleProgress u s.ev.w c') c := fun e he => hid ▸ settleProgress_completed u s.ev.w hparts e he

/-- The L2's holding of the sector once a store of the core has performed. -/
theorem holding_after_store {s u : State} {x : Warp} {sec : Nat} {steps : List (Nat × List Byte)} (hhold : ∀ a k, holding u a k = holding s a k)
    (hsys : u.sys = s.sys) (htokens : (holding s (coreAgent s x.core) sec).tokens = 2048) (w : Nat) (c : Access) :
    holding (settleProgress (coreWrite u x.core sec steps) w c) (coreAgent s x.core) sec
      = storedHolding (holding s (coreAgent s x.core) sec) steps := by
  have hagent : coreAgent u x.core = coreAgent s x.core := by rw [coreAgent, hsys, coreAgent]
  have hwrite := coreWrite_holding u x.core sec steps (by rw [hagent, hhold, htokens]; decide)
  rw [hagent, hhold] at hwrite
  rw [settleProgress_holding, hwrite]

/-- Settles O16: the runs of bytes of the parts, in order, at the bank or in the L2's sector. -/
theorem storesPerform : Obligations.StoresPerform := by
  unfold Obligations.StoresPerform
  intro s x c fe h hkind hdata
  refine ⟨fun hbank => ?own, fun b hbank hb => ?other, fun hbank hsat _ => ?l2⟩
  case own =>
    exact ⟨_, exec_store_own h hkind hbank, scratchStored_kept (scratchStored_putScratch s x.blk false fe hdata)
      (settleProgress_memoryKept ..), completed_settleProgress s _ rfl rfl⟩
  case other =>
    obtain ⟨t, ht, hexec⟩ := exec_store_other h hkind hbank hb
    have hstored : ScratchStored s t b c.parts fe :=
      ht ▸ scratchStored_of_kept (endEligible_memoryKept s x.blk) (scratchStored_putScratch _ b true fe hdata)
    have hwarp : t.warp s.ev.w = x := by
      rw [ht, State.warp, putScratch_frame]
      exact ((endEligible_kept s x.blk).warp s.ev.w).trans (performable_warp h)
    exact ⟨_, hexec, scratchStored_kept hstored (memoryKept_setWarp ..), _, performable_replied h hwarp [], rfl, rfl⟩
  case l2 =>
    have hhold := holding_after_store (x := x) (sec := s.ev.sector) (steps := partSteps 64 c.parts)
      (endEligible_holding s x.blk) (by rw [endEligible_state]) (satisfied_write hsat) s.ev.w { c with parts := [] }
    have hkept := memoryKept_trans (endEligible_memoryKept s x.blk)
      (memoryKept_trans (coreWrite_memoryKept (endEligible s x.blk) x.core s.ev.sector (partSteps 64 c.parts))
        (settleProgress_memoryKept _ s.ev.w { c with parts := [] }))
    refine ⟨_, exec_store_l2 h hkind hbank hsat, completed_settleProgress s _ rfl rfl, fun off hoff => ?_, ?_, ?_, hkept.1, hkept.2⟩
    · rw [hhold, storedByte_eq]
      exact sectorByte_putSteps _ hoff
    · rw [hhold]; exact satisfied_write hsat
    · rw [hhold]; rfl

end Sys2Proof.Machine
end

section
/-! Loads that return (R113, R117, R118, R132): from a bank of a scratchpad, from the core's L2, and with a bank's reply. -/

namespace Sys2Proof.Machine

open Sys2Proof.Claim

/-! ### What returns -/

/-- Without earlier stores of its warp, a load is forwarded nothing (R197). -/
theorem withForward_none {x : Warp} (h : ∀ e, e ∈ x.accs → isPureStore e.kind = false) (c : Access) (p : AccPart) (bs : List Byte) :
    withForward x c p bs = bs := by
  have hnone : x.accs.filter (fun e => decide (e.id < c.id) && e.stage == .waiting && (e.lanes &&& c.lanes) != 0 && isPureStore e.kind
      && e.bank == c.bank) = [] :=
    List.filter_eq_nil_iff.mpr fun e he => by rw [h e he, Bool.and_false, Bool.false_and]; exact Bool.false_ne_true
  unfold withForward forwarded
  rw [hnone]
  refine List.ext_getElem? fun k => ?_
  by_cases hk : k < bs.length
  · rw [List.getElem?_map, List.getElem?_range hk, Option.map_some, List.getElem?_eq_getElem hk]; rfl
  · rw [List.getElem?_eq_none (by simpa using hk), List.getElem?_eq_none (by simpa using hk)]

/-- Bytes for each part of a load are what its destination receives. -/
theorem returned_of_shape {c : Access} {d : AccDest} (h : LoadShape c d) {bs : AccPart → List Byte}
    (hlen : ∀ p, p ∈ c.parts → (bs p).length = p.size) : Returned d (c.parts.map (fun p => (p.lane, p.off, bs p))) := by
  obtain ⟨-, hnodup, hscalar, heach⟩ := h
  refine ⟨?_, fun hd => by rw [List.length_map]; exact hscalar hd, fun g hg => ?_⟩
  · rw [List.map_map]; exact hnodup
  · obtain ⟨p, hp, rfl⟩ := List.mem_map.mp hg
    obtain ⟨-, hsize, -, hlane⟩ := heach p hp
    exact ⟨(hlen p hp).trans hsize, hlane⟩

@[simp] theorem length_bytesAt (m : Nat → Byte) (a n : Nat) : (bytesAt m a n).length = n := by rw [bytesAt, List.length_map, List.length_range]

/-- The parts' data reaches the destination when the last part has returned. -/
theorem loaded_settleProgress {u : State} {w : Nat} {c c' : Access} {d : AccDest} (h : LoadShape c d) {bs : AccPart → List Byte}
    (hlen : ∀ p, p ∈ c.parts → (bs p).length = p.size) (hparts : c'.parts = []) (hdest : c'.dest = c.dest)
    (hgot : c'.got = c.parts.map (fun p => (p.lane, p.off, bs p))) {p : AccPart} (hp : p ∈ c.parts) :
    Loaded (settleProgress u w c') w d p.lane (bs p) := by
  have hret := returned_of_shape h hlen
  rw [← hgot] at hret
  exact settleProgress_loaded u w hparts (hdest.trans h.1) hret (g := (p.lane, p.off, bs p)) (hgot ▸ List.mem_map_of_mem hp)

/-! ### From a scratchpad -/

/-- A load, an atomic or a compare-and-swap. -/
def returns (k : AccKind) : Bool :=
  match k with
  | .load | .atomic _ _ | .cas => true
  | _ => false

theorem exec_loadDataReturn {s : State} {x : Warp} {c : Access} (h : Performable s x c) (hkind : returns c.kind = true)
    (hlocal : isRemote x c = false) : exec .loadDataReturn s = .next (if c.bank.isNone then
      globalReturn s s.ev.w x c s.ev.sector s.ev.flag else ownBankAccess s s.ev.w x c s.ev.sector) := by
  obtain ⟨hev, hstage, -⟩ := h
  refine congrArg Host.Outcome.next ?_
  simp only [hev, hlocal, hstage, bne_self_eq_false, Bool.or_self, Bool.false_eq_true, if_false]
  cases hk : c.kind
  case load | atomic | cas => rfl
  all_goals rw [hk] at hkind; cases hkind

theorem bankPerform_load {s : State} {x : Warp} {c : Access} {b : Nat} (hkind : c.kind = .load) (hbank : c.bank = some b)
    (hno : ∀ e, e ∈ x.accs → isPureStore e.kind = false) (ps : List AccPart) : bankPerform s x c ps
      = (s, ps.map (fun p => (p.lane, p.off, bytesAt (spByte s b) (p.addr % 2 ^ 21) p.size))) := by
  simp only [bankPerform, hkind, hbank, Option.getD_some, withForward_none hno, spRead_eq]

/-- A load of the own scratchpad: its bytes return together. -/
theorem exec_load_own {s : State} {x : Warp} {c : Access} (h : Performable s x c) (hkind : c.kind = .load) (hbank : c.bank = some x.blk)
    (hno : ∀ e, e ∈ x.accs → isPureStore e.kind = false) :
    ∃ c', exec .loadDataReturn s = .next (settleProgress s s.ev.w c') ∧ c'.id = c.id ∧ c'.parts = [] ∧ c'.dest = c.dest
      ∧ c'.got = c.parts.map (fun p => (p.lane, p.off, bytesAt (spByte s x.blk) (p.addr % 2 ^ 21) p.size)) := by
  have hown := performable_ownBankAccess_eq h
  rw [bankPerform_load hkind hbank hno] at hown
  exact ⟨_, (exec_loadDataReturn h (by rw [hkind]; rfl) (isRemote_own hbank)).trans
    (congrArg Host.Outcome.next ((if_neg (by rw [hbank]; exact Bool.false_ne_true)).trans hown)), rfl, rfl, rfl, rfl⟩

/-! ### From the core's L2 (R122, R207) -/

/-- A sector that the L2 holds and level 1 does not offer. -/
theorem sectorFor_held {s : State} {x : Warp} {c : Access} {sec : Nat} (hmiss : c.useL1 = false ∨ l1Get (s.core x.core) sec = none)
    (hsat : satisfied s (coreAgent s x.core) sec (isEffect c.kind) = true) (hpoison : (holding s (coreAgent s x.core) sec).poison = false) :
    ∃ t, sectorFor s x c sec false = (some ((holding s (coreAgent s x.core) sec).data, false), t) ∧ TokensMove s t
      ∧ (isEffect c.kind = true → t = s) := by
  have hnone : (if c.useL1 then l1Get (s.core x.core) sec else none) = none := by
    rcases hmiss with h | h <;> rw [h]
    · rfl
    · exact ite_self none
  unfold sectorFor
  dsimp only
  rw [hnone]
  dsimp only
  rw [if_neg Bool.false_ne_true, if_pos hsat, hpoison, Bool.false_or]
  cases heff : isEffect c.kind with
  | true => exact ⟨s, rfl, .refl s, fun _ => rfl⟩
  | false =>
    refine ⟨_, rfl, ?_, fun h => by cases h⟩
    rw [if_neg Bool.false_ne_true]
    cases c.useL1
    · exact .refl _
    · exact .refl _

theorem noteRead_access (s : State) (x : Warp) (c : Access) (sec : Nat) (viaL2 : Bool) :
    ∃ v, (noteRead s x c sec viaL2).2 = { c with viaL2 := v } := by
  unfold noteRead
  dsimp only
  split
  · exact ⟨_, rfl⟩
  · exact ⟨c.viaL2, rfl⟩

/-- A global load whose sector the L2 holds: its bytes return together. -/
theorem exec_load_l2 {s : State} {x : Warp} {c : Access} (h : Performable s x c) (hkind : c.kind = .load) (hbank : c.bank = none)
    (hflag : s.ev.flag = false) (hros : ∀ p, p ∈ c.parts → p.ros = false) (hno : ∀ e, e ∈ x.accs → isPureStore e.kind = false)
    (hmiss : c.useL1 = false ∨ l1Get (s.core x.core) s.ev.sector = none)
    (hsat : satisfied s (coreAgent s x.core) s.ev.sector false = true) (hpoison : (holding s (coreAgent s x.core) s.ev.sector).poison = false) :
    ∃ u c', exec .loadDataReturn s = .next (settleProgress u s.ev.w c') ∧ TokensMove s u ∧ c'.id = c.id ∧ c'.parts = [] ∧ c'.dest = c.dest
      ∧ c'.got = c.parts.map (fun p => (p.lane, p.off, sectorBytes (holding s (coreAgent s x.core) s.ev.sector).data (p.addr % 64) p.size)) := by
  have heff : isEffect c.kind = false := by rw [hkind]; rfl
  obtain ⟨t, hsector, hmove, -⟩ := sectorFor_held hmiss (heff ▸ hsat) hpoison
  have hexec := exec_loadDataReturn h (by rw [hkind]; rfl) (isRemote_global hbank)
  obtain ⟨-, -, hat, hne, hgot, hmay⟩ := h
  have hne : c.parts.isEmpty = false := by simpa using hne
  have hps : (partsAt c s.ev.sector).filter (fun p => p.ros == false) = c.parts := by
    rw [hat]; exact List.filter_eq_self.mpr fun p hp => by rw [hros p hp]; rfl
  have hcons : consumed t c s.ev.sector false = [] := by
    rw [consumed, heff]; rfl
  have hret : globalReturn s s.ev.w x c s.ev.sector s.ev.flag = settleProgress
      (noteRead t x c s.ev.sector (!false && !(c.useL1 && (l1Get (s.core x.core) s.ev.sector).isSome))).1 s.ev.w
      { (noteRead t x c s.ev.sector (!false && !(c.useL1 && (l1Get (s.core x.core) s.ev.sector).isSome))).2.without c.parts with
        got := c.parts.map (fun p => (p.lane, p.off, sectorBytes (holding s (coreAgent s x.core) s.ev.sector).data (p.addr % 64) p.size)) } := by
    simp only [globalReturn, hflag, hps, hne, hmay, Bool.not_true, Bool.or_self, Bool.false_eq_true, if_false, hsector, hcons, heff,
      withForward_none hno, hgot, List.nil_append]
    rfl
  obtain ⟨v, hv⟩ := noteRead_access t x c s.ev.sector (!false && !(c.useL1 && (l1Get (s.core x.core) s.ev.sector).isSome))
  refine ⟨_, _, hexec.trans (congrArg Host.Outcome.next ((if_pos (by rw [hbank]; rfl)).trans hret)),
    hmove.trans (noteRead_tokensMove ..), ?_, ?_, ?_, rfl⟩
  · rw [hv]; rfl
  · rw [hv]; exact congrArg Access.parts (without_parts c)
  · rw [hv]; rfl

/-! ### A bank's reply (R132) -/

theorem exec_scratchpadRemoteReply {s : State} {x : Warp} {c : Access} (h : eventAccess s = some (x, c)) (hstage : c.stage = .replied) :
    exec .scratchpadRemoteReply s = .next (settleProgress s s.ev.w c) := by
  obtain ⟨rfl, -⟩ := eventAccess_eq h
  refine congrArg Host.Outcome.next ?_
  simp only [h, hstage, beq_self_eq_true, Bool.true_or, if_true]
  rfl

/-- Settles O17: the bytes of each part, delivered when the last part has returned. -/
theorem loadsReturn : Obligations.LoadsReturn := by
  unfold Obligations.LoadsReturn
  refine fun s x c d => ⟨fun h hkind hshape hno => ⟨fun hbank => ?own, fun hbank hflag hros hmiss hsat hpoison => ?l2, fun b hbank hb => ?other⟩,
    fun hev hstage hparts hdest hnodup hgot hpos hscalar => ?reply⟩
  case own =>
    obtain ⟨c', hexec, hid, hparts, hdest, hgot⟩ := exec_load_own h hkind hbank hno
    have hkept := settleProgress_memoryKept s s.ev.w c'
    exact ⟨_, hexec, completed_settleProgress s s hid hparts, fun p hp => loaded_settleProgress hshape
      (bs := fun p => bytesAt (spByte s x.blk) (p.addr % 2 ^ 21) p.size) (fun p _ => length_bytesAt ..) hparts hdest hgot hp, hkept.2, hkept.1⟩
  case l2 =>
    obtain ⟨u, c', hexec, hmove, hid, hparts, hdest, hgot⟩ := exec_load_l2 h hkind hbank hflag hros hno hmiss hsat hpoison
    have hkept := memoryKept_trans hmove.storageKept.memoryKept (settleProgress_memoryKept u s.ev.w c')
    exact ⟨_, hexec, completed_settleProgress s u hid hparts,
      fun p hp => loaded_settleProgress hshape
        (bs := fun p => sectorBytes (holding s (coreAgent s x.core) s.ev.sector).data (p.addr % 64) p.size)
        (fun p _ => length_leSplit ..) hparts hdest hgot hp, hkept.2, hkept.1⟩
  case other =>
    have hother := performable_remoteBankAccess_eq h (isRemote_other hbank hb) (by rw [hkind]; rfl) (by rw [hkind]; exact nofun)
      (by rw [hkind]; exact nofun)
    rw [bankPerform_load hkind hbank hno] at hother
    refine ⟨_, _, hother, performable_replied h (performable_warp h) _, rfl, rfl, rfl, List.map_congr_left fun p hp => ?_⟩
    obtain ⟨hoff, -⟩ := hshape.2.2.2 p hp
    rw [hoff]
  case reply =>
    have hret : Returned d c.got := ⟨hnodup, fun hd => absurd (hscalar.symm.trans hd) Bool.false_ne_true, fun g hg => ⟨(hgot g hg).2, .inr (hgot g hg).1⟩⟩
    exact ⟨_, exec_scratchpadRemoteReply hev hstage, completed_settleProgress s s rfl hparts,
      fun g hg => settleProgress_loaded s s.ev.w hparts hdest hret hg⟩

end Sys2Proof.Machine
end

section
/-! Atomics (R116, R126, R127): their lanes one after another, at a bank of a scratchpad and at the core's L2. -/

namespace Sys2Proof.Machine

open Sys2Proof.Claim

/-! ### One step -/

/-- The kind of an atomic or a compare-and-swap. -/
def IsAtomic (k : AccKind) : Prop := (∃ op u, k = .atomic op u) ∨ k = .cas

/-- The new value of an atomic, on words of its width. -/
theorem atomicNew_eq (op : Nat) (u : Bool) (n : Nat) {a b : Nat} (ha : a < 2 ^ (8 * n)) (hb : b < 2 ^ (8 * n)) :
    atomicNew op u n a b = (atomicWord op u (8 * n) (BitVec.ofNat _ a) (BitVec.ofNat _ b)).toNat := by
  have hna : (BitVec.ofNat (8 * n) a).toNat = a := by rw [BitVec.toNat_ofNat, Nat.mod_eq_of_lt ha]
  have hnb : (BitVec.ofNat (8 * n) b).toNat = b := by rw [BitVec.toNat_ofNat, Nat.mod_eq_of_lt hb]
  unfold atomicNew atomicWord
  match op with
  | 0 => simp only [BitVec.toNat_add, hna, hnb]
  | 1 | 2 => simp only [signed_eq_toInt, apply_ite BitVec.toNat, hna, hnb]
  | 3 => simp only [BitVec.toNat_and, hna, hnb]; rfl
  | 4 => simp only [BitVec.toNat_or, hna, hnb]; rfl
  | 5 => simp only [BitVec.toNat_xor, hna, hnb]; rfl
  | n + 6 => exact hnb.symm

theorem atomicBytes_eq {k : AccKind} (hk : IsAtomic k) {p : AccPart} {old : List Byte} (hp : p.data.length = p.size)
    (ho : old.length = p.size) : atomicBytes k p old = stepBytes k p old := by
  rcases hk with ⟨op, u, rfl⟩ | rfl
  · rw [atomicBytes, stepBytes, atomicNew_eq op u p.size (ho ▸ leValue_lt old) (hp ▸ leValue_lt p.data)]
  · rfl

theorem length_stepBytes {k : AccKind} (hk : IsAtomic k) {p : AccPart} {old : List Byte} (hp : p.data.length = p.size)
    (ho : old.length = p.size) : (stepBytes k p old).length = p.size := by
  rcases hk with ⟨op, u, rfl⟩ | rfl
  · exact length_leSplit ..
  · exact (apply_ite List.length ..).trans (by rw [hp, ho, ite_self])

/-! ### The lanes in order (R116) -/

theorem putAt_steppedByte (steps : List (Nat × List Byte)) (m : Nat → Byte) (a : Nat) (bs : List Byte) :
    Claim.putAt (fun k => steppedByte steps k (m k)) a bs = fun k => steppedByte (steps ++ [(a, bs)]) k (m k) := by
  funext k
  rw [steppedByte_append]
  rfl

/-- What an atomic's run reads under the steps before it. -/
theorem bytes_under_steps {steps : List (Nat × List Byte)} {m : Nat → Byte} {a n : Nat} {under : List Byte} (hu : under = bytesAt m a n) :
    (List.range n).map (fun k => steps.foldl (fun b e => if e.1 ≤ a + k ∧ a + k < e.1 + e.2.length then (e.2[a + k - e.1]?).getD b else b)
      ((under[k]?).getD 0)) = bytesAt (fun k => steppedByte steps k (m k)) a n := by
  refine List.map_congr_left fun k hk => ?_
  rw [hu, bytesAt, List.getElem?_map, List.getElem?_range (List.mem_range.mp hk)]
  rfl

/-- What the parts of an atomic are for its run: at offset 0, with data of their size, over the bytes of a map. -/
def RunParts (ps : List AccPart) (read : Nat → Nat → List Byte) (m : Nat → Byte) : Prop :=
  ∀ p, p ∈ ps → p.off = 0 ∧ p.data.length = p.size ∧ read p.addr p.size = bytesAt m p.addr p.size

/-- The model's run of an atomic is the rule's sequence. -/
theorem atomicRun_eq {c : Access} (hk : IsAtomic c.kind) {read : Nat → Nat → List Byte} {m : Nat → Byte} {ps : List AccPart}
    (hps : RunParts ps read m) (steps : List (Nat × List Byte)) :
    (atomicRun c read ps steps).1 = (atomicSeq c.kind ps (fun a => steppedByte steps a (m a))).1.map (fun g => (g.1, 0, g.2))
      ∧ (fun a => steppedByte (atomicRun c read ps steps).2 a (m a)) = (atomicSeq c.kind ps (fun a => steppedByte steps a (m a))).2
      ∧ ∀ e, e ∈ (atomicRun c read ps steps).2 → e ∈ steps ∨ ∃ p, p ∈ ps ∧ e.1 = p.addr := by
  induction ps generalizing steps with
  | nil => exact ⟨rfl, rfl, fun e he => .inl he⟩
  | cons p ps ih =>
    obtain ⟨hoff, hdata, hread⟩ := hps p List.mem_cons_self
    have hold := bytes_under_steps (steps := steps) hread
    have hbytes := atomicBytes_eq hk hdata (length_bytesAt (fun k => steppedByte steps k (m k)) p.addr p.size)
    obtain ⟨h1, h2, h3⟩ := ih (fun q hq => hps q (List.mem_cons_of_mem _ hq))
      (steps ++ [(p.addr, stepBytes c.kind p (bytesAt (fun k => steppedByte steps k (m k)) p.addr p.size))])
    simp only [atomicRun, atomicSeq, hold, hbytes, putAt_steppedByte, List.map_cons, hoff]
    refine ⟨by rw [h1], h2, fun e he => ?_⟩
    rcases h3 e he with he | ⟨q, hq, hqe⟩
    · rcases List.mem_append.mp he with he | he
      · exact .inl he
      · rw [List.mem_singleton.mp he]
        exact .inr ⟨p, List.mem_cons_self, rfl⟩
    · exact .inr ⟨q, List.mem_cons_of_mem _ hq, hqe⟩

theorem atomicSeq_lanes (k : AccKind) (ps : List AccPart) (m : Nat → Byte) : (atomicSeq k ps m).1.map (·.1) = ps.map (·.lane) := by
  induction ps generalizing m with
  | nil => rfl
  | cons p ps ih => simp only [atomicSeq, List.map_cons, ih]

theorem mem_atomicSeq {k : AccKind} {ps : List AccPart} {m : Nat → Byte} {e : Nat × List Byte} (h : e ∈ (atomicSeq k ps m).1) :
    ∃ p, p ∈ ps ∧ e.1 = p.lane ∧ e.2.length = p.size := by
  induction ps generalizing m with
  | nil => cases h
  | cons p ps ih =>
    rcases List.mem_cons.mp h with rfl | h
    · exact ⟨p, List.mem_cons_self, rfl, length_bytesAt ..⟩
    · obtain ⟨q, hq, hrest⟩ := ih h
      exact ⟨q, List.mem_cons_of_mem _ hq, hrest⟩

/-- What the lanes of an atomic receive is what its destination takes. -/
theorem returned_atomicSeq {c : Access} {d : AccDest} (h : LoadShape c d) (hd : d.scalar = false) (m : Nat → Byte) :
    Returned d ((atomicSeq c.kind c.parts m).1.map (fun g => (g.1, 0, g.2))) := by
  obtain ⟨-, hnodup, -, heach⟩ := h
  refine ⟨?_, fun hs => absurd (hd.symm.trans hs) Bool.false_ne_true, fun g hg => ?_⟩
  · rw [List.map_map]
    exact (atomicSeq_lanes c.kind c.parts m).symm ▸ hnodup
  · obtain ⟨e, he, rfl⟩ := List.mem_map.mp hg
    obtain ⟨p, hp, hlane, hlen⟩ := mem_atomicSeq he
    obtain ⟨-, hsize, -, h64⟩ := heach p hp
    exact ⟨hlen.trans hsize, hlane ▸ h64⟩

/-- The old values of an atomic reach its destination with the last part. -/
theorem loaded_atomicSeq {u : State} {w : Nat} {c c' : Access} {d : AccDest} (h : LoadShape c d) (hd : d.scalar = false) {m : Nat → Byte}
    (hparts : c'.parts = []) (hdest : c'.dest = c.dest) (hgot : c'.got = (atomicSeq c.kind c.parts m).1.map (fun g => (g.1, 0, g.2)))
    {e : Nat × List Byte} (he : e ∈ (atomicSeq c.kind c.parts m).1) : Loaded (settleProgress u w c') w d e.1 e.2 := by
  have hret := returned_atomicSeq h hd m
  rw [← hgot] at hret
  exact settleProgress_loaded u w hparts (hdest.trans h.1) hret (g := (e.1, 0, e.2)) (hgot ▸ List.mem_map_of_mem he)

/-- Bytes within one block of `n` bytes, read from its start. -/
theorem bytesAt_mod {n a k : Nat} (f : Nat → Byte) (h : a % n + k ≤ n) : bytesAt f (a % n) k = bytesAt (fun a => f (a % n)) a k := by
  refine List.map_congr_left fun j hj => ?_
  have hj := List.mem_range.mp hj
  dsimp only
  rw [Nat.add_mod, Nat.mod_eq_of_lt (show j < n by omega), Nat.mod_eq_of_lt (show a % n + j < n by omega)]

/-! ### At a bank -/

theorem returns_of_atomic {k : AccKind} (hk : IsAtomic k) : returns k = true := by
  rcases hk with ⟨op, u, rfl⟩ | rfl <;> rfl

theorem isEffect_of_atomic {k : AccKind} (hk : IsAtomic k) : isEffect k = true := by
  rcases hk with ⟨op, u, rfl⟩ | rfl <;> rfl

/-- An atomic at a bank, before its data is delivered. -/
structure BankAtomic (s u : State) (x : Warp) (c : Access) (b : Nat) : Prop where
  warps : u.warps = s.warps
  memory : ∀ a, homeByte u a = homeByte s a
  bytes : ∀ off, off < 2 ^ 21 → spByte u b off = (atomicSeq c.kind c.parts (fun a => spByte s b (a % 2 ^ 21))).2 (b * 2 ^ 21 + off)
  full : ∀ k, spFull u b (4 * k) = spFull s b (4 * k)
  others : ∀ k, k ≠ b → (u.block k).sp = (s.block k).sp ∧ (u.block k).full = (s.block k).full
  eligible : b ≠ x.blk → (u.block x.blk).eligible = false

theorem bankPerform_atomic {s : State} {x : Warp} {c : Access} {b : Nat} (hk : IsAtomic c.kind) (hbank : c.bank = some b) (ps : List AccPart) :
    bankPerform s x c ps = (putScratch (if b != x.blk || decide (1 < c.scope.toNat) then endEligible s x.blk else s) b (b != x.blk) 0
      (atomicRun c (fun a n => spRead s b (a % 2 ^ 21) n) ps []).2, (atomicRun c (fun a n => spRead s b (a % 2 ^ 21) n) ps []).1) := by
  rcases hk with ⟨op, u, hk⟩ | hk <;> simp only [bankPerform, hk, hbank, Option.getD_some, putScratch]

/-- The parts of an atomic at a bank perform in lane order. -/
theorem bankPerform_bankAtomic {s : State} {x : Warp} {c : Access} {b : Nat} {d : AccDest} (hshape : LoadShape c d) (hk : AtomicShape c)
    (hbank : c.bank = some b) (hat : ∀ p, p ∈ c.parts → p.addr / 2 ^ 21 = b ∧ p.addr % 2 ^ 21 + p.size ≤ 2 ^ 21) :
    ∃ u, bankPerform s x c c.parts
        = (u, (atomicSeq c.kind c.parts (fun a => spByte s b (a % 2 ^ 21))).1.map (fun g => (g.1, 0, g.2))) ∧ BankAtomic s u x c b := by
  obtain ⟨hkind, hdata⟩ := hk
  obtain ⟨-, -, -, heach⟩ := hshape
  have hps : RunParts c.parts (fun a n => spRead s b (a % 2 ^ 21) n) (fun a => spByte s b (a % 2 ^ 21)) := fun p hp =>
    ⟨(heach p hp).1, hdata p hp, (spRead_eq ..).trans (bytesAt_mod (spByte s b) (hat p hp).2)⟩
  obtain ⟨hgot, hbytes, hsteps⟩ := atomicRun_eq hkind hps []
  have hperform := bankPerform_atomic (s := s) (x := x) hkind hbank c.parts
  rw [hgot] at hperform
  refine ⟨_, hperform, ?_⟩
  clear hperform
  generalize (atomicRun c (fun a n => spRead s b (a % 2 ^ 21) n) c.parts []).2 = steps at hbytes hsteps
  have hkept : StorageKept s (if b != x.blk || decide (1 < c.scope.toNat) then endEligible s x.blk else s) := by
    split
    · exact endEligible_kept s x.blk
    · exact .refl s
  have helig : b ≠ x.blk → ((if b != x.blk || decide (1 < c.scope.toNat) then endEligible s x.blk else s).block x.blk).eligible = false := by
    intro hb
    rw [bne_iff_ne.mpr hb, Bool.true_or, if_pos rfl]
    exact endEligible_eligible s x.blk
  generalize (if b != x.blk || decide (1 < c.scope.toNat) then endEligible s x.blk else s) = s1 at hkept helig
  refine ⟨?_, fun a => ?_, fun off hoff => ?bytes, fun k => ?full, fun k hne => ?_, fun hb => ?_⟩
  · rw [putScratch_frame]; exact hkept.warps
  · rw [homeByte, putScratch_frame]; exact hkept.memoryKept.1 a
  case bytes =>
    have hbase : (b * 2 ^ 21 + off) % 2 ^ 21 = off := by omega
    have hmod := steppedByte_mod (n := 2 ^ 21) (steps := steps) (a := b * 2 ^ 21 + off) (fun e he => by
      rcases hsteps e he with he | ⟨p, hp, heq⟩
      · cases he
      · rw [heq, (hat p hp).1]; omega) (spByte s b off)
    have hval := congrFun hbytes (b * 2 ^ 21 + off)
    rw [hbase] at hmod hval
    rw [spByte_putScratch, show spByte s1 b off = spByte s b off by rw [spByte, hkept.sp, spByte], hmod, hval]
    rfl
  case full =>
    rw [spFull_word, spFull_word, get_full_putScratch, if_pos (.inl rfl), hkept.full]
  · obtain ⟨h1, h2, -⟩ := putScratch_others s1 (b != x.blk) 0 steps hne
    exact ⟨h1.trans (hkept.sp k), h2.trans (hkept.full k)⟩
  · exact (putScratch_others s1 (b != x.blk) 0 steps (Ne.symm hb)).2.2.trans (helig hb)

/-- An atomic at the own scratchpad performs and its data is delivered. -/
theorem exec_atomic_own {s : State} {x : Warp} {c : Access} {d : AccDest} (h : Performable s x c) (hshape : LoadShape c d)
    (hk : AtomicShape c) (hbank : c.bank = some x.blk)
    (hat : ∀ p, p ∈ c.parts → p.addr / 2 ^ 21 = x.blk ∧ p.addr % 2 ^ 21 + p.size ≤ 2 ^ 21) :
    ∃ u c', exec .loadDataReturn s = .next (settleProgress u s.ev.w c') ∧ BankAtomic s u x c x.blk ∧ c'.id = c.id ∧ c'.parts = []
      ∧ c'.dest = c.dest
      ∧ c'.got = (atomicSeq c.kind c.parts (fun a => spByte s x.blk (a % 2 ^ 21))).1.map (fun g => (g.1, 0, g.2)) := by
  obtain ⟨u, hperform, hu⟩ := bankPerform_bankAtomic (s := s) (x := x) hshape hk hbank hat
  have hown := performable_ownBankAccess_eq h
  rw [hperform] at hown
  exact ⟨u, _, (exec_loadDataReturn h (returns_of_atomic hk.1) (isRemote_own hbank)).trans
    (congrArg Host.Outcome.next ((if_neg (by rw [hbank]; exact Bool.false_ne_true)).trans hown)), hu, rfl, rfl, rfl, rfl⟩

/-! ### At the core's L2 -/

/-- Where its sector is not poisoned, an atomic consumes no error. -/
theorem consumed_none {s : State} {c : Access} {sec : Nat} (h : ∀ p, p ∈ c.parts → p.addr / 64 = sec) : consumed s c sec false = [] := by
  have hnone : poisonedParts s c sec false = [] :=
    List.filter_eq_nil_iff.mpr fun p hp => by rw [if_pos (h p hp), Bool.and_false]; exact Bool.false_ne_true
  rw [consumed, hnone]
  split
  · split <;> rfl
  · rfl

/-- The sector's byte map that an atomic at the L2 reads. -/
def l2Byte (d : SectorData) (a : Nat) : Byte := sectorByte d (a % 64)

/-- A global atomic whose sector the L2 holds wholly performs there. -/
theorem exec_atomic_l2 {s : State} {x : Warp} {c : Access} {d : AccDest} (h : Performable s x c) (hshape : LoadShape c d) (hk : AtomicShape c)
    (hbank : c.bank = none) (hflag : s.ev.flag = false)
    (hat : ∀ p, p ∈ c.parts → p.ros = false ∧ p.addr / 64 = s.ev.sector ∧ p.addr % 64 + p.size ≤ 64) (hl1 : c.useL1 = false)
    (hsat : satisfied s (coreAgent s x.core) s.ev.sector true = true) (hpoison : (holding s (coreAgent s x.core) s.ev.sector).poison = false) :
    ∃ u steps c', exec .loadDataReturn s = .next (settleProgress (coreWrite u x.core s.ev.sector (steps.map (fun e => (e.1 % 64, e.2)))) s.ev.w c')
      ∧ (u = s ∨ u = endEligible s x.blk) ∧ c'.id = c.id ∧ c'.parts = [] ∧ c'.dest = c.dest
      ∧ c'.got = (atomicSeq c.kind c.parts (l2Byte (holding s (coreAgent s x.core) s.ev.sector).data)).1.map (fun g => (g.1, 0, g.2))
      ∧ (∀ a, steppedByte steps a (l2Byte (holding s (coreAgent s x.core) s.ev.sector).data a)
          = (atomicSeq c.kind c.parts (l2Byte (holding s (coreAgent s x.core) s.ev.sector).data)).2 a)
      ∧ ∀ e, e ∈ steps → e.1 / 64 = s.ev.sector := by
  obtain ⟨hkind, hdata⟩ := hk
  obtain ⟨-, -, -, heach⟩ := hshape
  have heff := isEffect_of_atomic hkind
  obtain ⟨t, hsector, -, ht⟩ := sectorFor_held (.inl hl1) (heff.symm ▸ hsat) hpoison
  obtain rfl : t = s := ht heff
  have hexec := exec_loadDataReturn h (returns_of_atomic hkind) (isRemote_global hbank)
  obtain ⟨-, -, hpartsAt, hne, hgot, hmay⟩ := h
  have hne : c.parts.isEmpty = false := by simpa using hne
  have hps : (partsAt c t.ev.sector).filter (fun p => p.ros == false) = c.parts := by
    rw [hpartsAt]; exact List.filter_eq_self.mpr fun p hp => by rw [(hat p hp).1]; rfl
  have hcons := consumed_none (s := t) fun p hp => (hat p hp).2.1
  have hrun : RunParts c.parts (fun a n => sectorBytes (holding t (coreAgent t x.core) t.ev.sector).data (a % 64) n)
      (l2Byte (holding t (coreAgent t x.core) t.ev.sector).data) := fun p hp =>
    ⟨(heach p hp).1, hdata p hp, (sectorBytes_eq ..).trans (bytesAt_mod (sectorByte _) (hat p hp).2.2)⟩
  obtain ⟨hret, hbytes, hsteps⟩ := atomicRun_eq hkind hrun []
  generalize hr : atomicRun c (fun a n => sectorBytes (holding t (coreAgent t x.core) t.ev.sector).data (a % 64) n) c.parts [] = run at *
  have hreturn : globalReturn t t.ev.w x c t.ev.sector t.ev.flag = settleProgress
      (coreWrite (if 1 < c.scope.toNat then endEligible t x.blk else t) x.core t.ev.sector (run.2.map (fun e => (e.1 % 64, e.2)))) t.ev.w
      { { c with checked := true }.without c.parts with got := run.1 } := by
    simp only [globalReturn, hflag, hps, hne, hmay, Bool.not_true, Bool.or_self, Bool.false_eq_true, if_false, hsector, hcons, heff, if_true,
      hr, hgot, List.nil_append]
    rfl
  refine ⟨_, run.2, _, hexec.trans (congrArg Host.Outcome.next ((if_pos (by rw [hbank]; rfl)).trans hreturn)), ?_, rfl,
    congrArg Access.parts (without_parts c), rfl, hret, fun a => congrFun hbytes a, fun e he => ?_⟩
  · split
    · exact .inr rfl
    · exact .inl rfl
  · rcases hsteps e he with he | ⟨p, hp, heq⟩
    · cases he
    · rw [heq, (hat p hp).2.1]

/-- Settles O18: the model's run of the lanes is the rule's sequence, at the bank's bytes or the sector's. -/
theorem atomicsPerform : Obligations.AtomicsPerform := by
  unfold Obligations.AtomicsPerform
  intro s x c d h hshape hd hk
  refine ⟨fun hbank hat => ?own, fun b hbank hb hat => ?other, fun hbank hflag hat hl1 hsat hpoison _ => ?l2⟩
  case own =>
    obtain ⟨u, c', hexec, hu, hid, hparts, hdest, hgot⟩ := exec_atomic_own h hshape hk hbank hat
    obtain ⟨hsp, hfull⟩ := settleProgress_scratch u s.ev.w c' x.blk
    refine ⟨_, hexec, completed_settleProgress s u hid hparts, fun e he => loaded_atomicSeq hshape hd hparts hdest hgot he, fun off hoff => ?_,
      fun k => ?_, fun a => (settleProgress_homeByte ..).trans (hu.memory a)⟩
    · rw [spByte, hsp]; exact hu.bytes off hoff
    · rw [spFull, hfull]; exact hu.full k
  case other =>
    obtain ⟨u, hperform, hbank'⟩ := bankPerform_bankAtomic (s := s) (x := x) hshape hk hbank hat
    have hnot : isArrival c.kind = false ∧ c.kind ≠ .loadFe ∧ c.kind ≠ .storeFe := by
      rcases hk.1 with ⟨op, un, hk⟩ | hk <;> rw [hk] <;> exact ⟨rfl, nofun, nofun⟩
    have hother := performable_remoteBankAccess_eq h (isRemote_other hbank hb) hnot.1 hnot.2.1 hnot.2.2
    rw [hperform] at hother
    have hwarp : ∀ v, u.warp v = s.warp v := fun v => by rw [State.warp, hbank'.warps, State.warp]
    refine ⟨_, _, hother, performable_replied h ((hwarp _).trans (performable_warp h)) _, rfl, rfl, rfl, hshape.1, rfl, hbank'.bytes, hbank'.full,
      hbank'.others, hbank'.eligible hb, hbank'.memory, fun v => ?_⟩
    rw [State.setWarp_warp]
    split
    · next hv => rw [hv, ← hwarp]; rfl
    · rw [hwarp]
  case l2 =>
    obtain ⟨u, steps, c', hexec, hu, hid, hparts, hdest, hgot, hbytes, hsteps⟩ := exec_atomic_l2 h hshape hk hbank hflag hat hl1 hsat hpoison
    have hhold : ∀ a k, holding u a k = holding s a k := by
      rcases hu with rfl | rfl
      · exact fun _ _ => rfl
      · exact endEligible_holding s x.blk
    have hsys : u.sys = s.sys := by
      rcases hu with rfl | rfl
      · rfl
      · rw [endEligible_state]
    have hmem : MemoryKept s u := by
      rcases hu with rfl | rfl
      · exact (StorageKept.refl u).memoryKept
      · exact endEligible_memoryKept s x.blk
    refine ⟨_, hexec, completed_settleProgress s _ hid hparts, fun e he => loaded_atomicSeq hshape hd hparts hdest hgot he, fun a ha => ?_,
      fun a => (settleProgress_homeByte ..).trans (((coreWrite_memoryKept u x.core s.ev.sector _).1 a).trans (hmem.1 a))⟩
    dsimp only
    rw [holding_after_store hhold hsys (satisfied_write hsat)]
    refine (sectorByte_putSteps _ (Nat.mod_lt _ (by decide))).trans ?_
    rw [steppedByte_mod (n := 64) fun e he => (hsteps e he).trans ha.symm]
    exact hbytes a

end Sys2Proof.Machine
end

section
/-! LDF and STE at a bank (R119, R128): a word taken or filled in one act, or still awaited. -/

namespace Sys2Proof.Machine

open Sys2Proof.Claim

/-- The kind of LDF or STE. -/
def feKind (load : Bool) : AccKind := if load then .loadFe else .storeFe

/-- The word taken and emptied, or stored and filled (R128). -/
def feWrite (s : State) (x : Warp) (b : Nat) (p : AccPart) (load : Bool) : State :=
  endEligible (if load then spWrite s b (b != x.blk) (p.addr % 2 ^ 21) (bytesAt (spByte s b) (p.addr % 2 ^ 21) 4) 1
    else spWrite s b (b != x.blk) (p.addr % 2 ^ 21) p.data 2) x.blk

theorem fePerform_single {s : State} {x : Warp} {c : Access} {p : AccPart} {load : Bool} {b : Nat} (hkind : c.kind = feKind load)
    (hbank : c.bank = some b) : fePerform s x c [p] []
      = if spFull s b (p.addr % 2 ^ 21) = load then
          (feWrite s x b p load, [p], [(p.lane, p.off, bytesAt (spByte s b) (p.addr % 2 ^ 21) 4)])
        else (s, [], []) := by
  have hwant : (c.kind == .loadFe) = load := by rw [hkind]; cases load <;> rfl
  simp only [fePerform, hbank, Option.getD_some, hwant, List.contains_nil, Bool.false_or, bne_iff_ne, ne_eq, spRead_eq, feWrite]
  by_cases h : spFull s b (p.addr % 2 ^ 21) = load
  · rw [if_pos h, if_neg (not_not.mpr h)]
  · rw [if_neg h, if_pos h]

/-- An access with parts done and their bytes returned. -/
def feLeft (c : Access) (done : List AccPart) (got : List (Nat × Nat × List Byte)) : Access := { c.without done with got := got }

theorem feLeft_all (c : Access) (got : List (Nat × Nat × List Byte)) : feLeft c c.parts got = { c with parts := [], got := got } := by
  rw [feLeft, without_parts]

theorem feLeft_none {c : Access} (hgot : c.got = []) : feLeft c [] [] = c := by
  have hall : c.parts.filter (fun p => !([] : List AccPart).contains p) = c.parts := List.filter_eq_self.mpr fun _ _ => rfl
  rw [feLeft, Access.without, hall, ← hgot]

section
variable {s : State} {x : Warp} {c : Access} {p : AccPart} {load : Bool} {b : Nat} (h : Performable s x c) (hparts : c.parts = [p])
  (hkind : c.kind = feKind load)
include h hparts hkind

theorem exec_feWaitComplete : exec .feWaitComplete s = .next (
    let r := fePerform s x c [p] []
    if isRemote x c then r.1.setWarp s.ev.w ((r.1.warp s.ev.w).setAccess
      (if (feLeft c r.2.1 r.2.2).parts.isEmpty then { feLeft c r.2.1 r.2.2 with stage := .replied } else feLeft c r.2.1 r.2.2))
    else settleProgress r.1 s.ev.w (feLeft c r.2.1 r.2.2)) := by
  obtain ⟨hev, hstage, hat, -, hgot, hmay⟩ := h
  have hfe : (c.kind != .loadFe && c.kind != .storeFe) = false := by rw [hkind]; cases load <;> rfl
  rw [hparts] at hat hmay
  refine congrArg Host.Outcome.next ?_
  simp only [hev, hat, hfe, hstage, hmay, bne_self_eq_false, Bool.not_true, Bool.or_self, Bool.false_eq_true, if_false, hgot, List.nil_append]
  rfl

variable (hbank : c.bank = some b)
include hbank

/-- The word is in the awaited state, in the own scratchpad. -/
theorem exec_fe_own (hb : b = x.blk) (hfull : spFull s b (p.addr % 2 ^ 21) = load) :
    ∃ c', exec .feWaitComplete s = .next (settleProgress (feWrite s x b p load) s.ev.w c') ∧ c'.id = c.id ∧ c'.parts = [] ∧ c'.dest = c.dest
      ∧ c'.got = [(p.lane, p.off, bytesAt (spByte s b) (p.addr % 2 ^ 21) 4)] := by
  have hexec := exec_feWaitComplete h hparts hkind
  rw [fePerform_single hkind hbank, if_pos hfull] at hexec
  dsimp only at hexec
  rw [isRemote_own (hb ▸ hbank), if_neg Bool.false_ne_true, ← hparts, feLeft_all] at hexec
  exact ⟨_, hexec, rfl, rfl, rfl, rfl⟩

/-- The word is in the awaited state, in another block's scratchpad. -/
theorem exec_fe_other (hb : b ≠ x.blk) (hfull : spFull s b (p.addr % 2 ^ 21) = load) :
    exec .feWaitComplete s = .next ((feWrite s x b p load).setWarp s.ev.w (((feWrite s x b p load).warp s.ev.w).setAccess
      { c with parts := [], got := [(p.lane, p.off, bytesAt (spByte s b) (p.addr % 2 ^ 21) 4)], stage := .replied })) := by
  have hexec := exec_feWaitComplete h hparts hkind
  rw [fePerform_single hkind hbank, if_pos hfull] at hexec
  dsimp only at hexec
  rw [isRemote_other hbank hb, if_pos rfl, ← hparts, feLeft_all] at hexec
  exact hexec

/-- The word is not in the awaited state: nothing is done. -/
theorem exec_fe_waits (hfull : ¬ spFull s b (p.addr % 2 ^ 21) = load) :
    exec .feWaitComplete s = .next (if isRemote x c then s.setWarp s.ev.w ((s.warp s.ev.w).setAccess c) else settleProgress s s.ev.w c) := by
  have hexec := exec_feWaitComplete h hparts hkind
  obtain ⟨-, -, -, -, hgot, -⟩ := h
  have hne : c.parts.isEmpty = false := by rw [hparts]; rfl
  rw [fePerform_single hkind hbank, if_neg hfull] at hexec
  dsimp only at hexec
  rw [feLeft_none hgot, hne, if_neg Bool.false_ne_true] at hexec
  exact hexec

end

/-! ### The word written -/

section
variable (s : State) (x : Warp) (b : Nat) (p : AccPart) (load : Bool)

theorem feWrite_warps : (feWrite s x b p load).warps = s.warps := by
  unfold feWrite
  rw [(endEligible_kept _ _).warps]
  cases load
  · exact (congrArg State.warps (spWrite_frame ..) :)
  · exact (congrArg State.warps (spWrite_frame ..) :)

theorem feWrite_homeByte (a : Nat) : homeByte (feWrite s x b p load) a = homeByte s a := by
  unfold feWrite
  rw [(endEligible_memoryKept _ _).1]
  cases load
  · exact congrArg (readByte · a) (congrArg State.mem (spWrite_frame ..) :)
  · exact congrArg (readByte · a) (congrArg State.mem (spWrite_frame ..) :)

theorem feWrite_others {k : Nat} (hk : k ≠ b) : ((feWrite s x b p load).block k).sp = (s.block k).sp
    ∧ ((feWrite s x b p load).block k).full = (s.block k).full := by
  unfold feWrite
  rw [(endEligible_kept _ _).sp, (endEligible_kept _ _).full]
  cases load
  · obtain ⟨hsp, hfull, -⟩ := spWrite_others s (b != x.blk) (p.addr % 2 ^ 21) p.data 2 hk
    exact ⟨hsp, hfull⟩
  · obtain ⟨hsp, hfull, -⟩ := spWrite_others s (b != x.blk) (p.addr % 2 ^ 21) (bytesAt (spByte s b) (p.addr % 2 ^ 21) 4) 1 hk
    exact ⟨hsp, hfull⟩

/-- A word taken keeps its bytes; one filled holds those stored. -/
theorem feWrite_bytes (off : Nat) : spByte (feWrite s x b p load) b off
    = if load then spByte s b off else storedByte (2 ^ 21) [p] off (spByte s b off) := by
  have helig : ∀ t : State, spByte (endEligible t x.blk) b off = spByte t b off := fun t => by
    rw [spByte, (endEligible_kept t x.blk).sp, spByte]
  unfold feWrite
  rw [helig]
  cases load
  · exact spByte_spWrite ..
  · refine (spByte_spWrite ..).trans ?_
    by_cases hin : p.addr % 2 ^ 21 ≤ off ∧ off < p.addr % 2 ^ 21 + 4
    · rw [length_bytesAt, if_pos hin, bytesAt, List.getElem?_map, List.getElem?_range (by omega), Option.map_some, Option.getD_some,
        Nat.add_sub_cancel' hin.1, if_pos rfl]
    · rw [length_bytesAt, if_neg hin, if_pos rfl]

/-- A word taken is empty; one filled is full. -/
theorem feWrite_full (hdata : p.data.length = 4) : spFull (feWrite s x b p load) b (p.addr % 2 ^ 21) = !load := by
  have helig : ∀ t : State, spFull (endEligible t x.blk) b (p.addr % 2 ^ 21) = spFull t b (p.addr % 2 ^ 21) := fun t => by
    rw [spFull, (endEligible_kept t x.blk).full, spFull]
  have hword : ¬ p.addr % 2 ^ 21 / 4 ∉ wordsOf (p.addr % 2 ^ 21) 4 := fun h => h ((mem_wordsOf (by decide)).mpr ⟨0, by decide, rfl⟩)
  unfold feWrite
  rw [helig]
  cases load
  · exact (get_full_spWrite ..).trans (if_neg fun h => h.elim (by decide) (by rw [hdata]; exact hword))
  · exact (get_full_spWrite ..).trans (if_neg fun h => h.elim (by decide) (by rw [length_bytesAt]; exact hword))

theorem feWrite_eligible : ((feWrite s x b p load).block x.blk).eligible = false := endEligible_eligible ..

end

/-- The word of a lane is what its destination takes. -/
theorem returned_word {d : AccDest} {l off : Nat} {bs : List Byte} (hd : d.scalar = false) (hbytes : bs.length = d.bytes) (hl : l < 64) :
    Returned d [(l, off, bs)] :=
  ⟨List.nodup_singleton _, fun hs => absurd (hd.symm.trans hs) Bool.false_ne_true, fun g hg => by
    rcases List.mem_singleton.mp hg with rfl; exact ⟨hbytes, .inr hl⟩⟩

/-- Settles O19: the one lane takes or fills its word, or nothing changes but the stage of its access. -/
theorem fullEmptyWaits : Obligations.FullEmptyWaits := by
  unfold Obligations.FullEmptyWaits
  intro s x c p load b h hparts hkind hbank _ hoff _ hlane hdata
  refine ⟨fun hb hfull => ?own, fun hb hfull => ?other, fun hfull => ?waits⟩
  case own =>
    subst hb
    obtain ⟨c', hexec, hid, hempty, hdest, hgot⟩ := exec_fe_own h hparts hkind hbank rfl hfull
    obtain ⟨hsp, hbits⟩ := settleProgress_scratch (feWrite s x x.blk p load) s.ev.w c' x.blk
    have hbytes : ∀ off, spByte (settleProgress (feWrite s x x.blk p load) s.ev.w c') x.blk off
        = if load then spByte s x.blk off else storedByte (2 ^ 21) [p] off (spByte s x.blk off) := fun off => by
      rw [spByte, hsp]; exact feWrite_bytes s x x.blk p load off
    refine ⟨_, hexec, completed_settleProgress s _ hid hempty, ?_, fun hload => ⟨fun off => ?_, fun d hd hscalar h4 => ?_⟩, fun hload off => ?_⟩
    · rw [spFull, hbits]; exact feWrite_full s x x.blk p load hdata
    · rw [hbytes, if_pos hload]
    · have hret := returned_word (off := p.off) hscalar
        ((length_bytesAt (spByte s x.blk) (p.addr % 2 ^ 21) 4).trans h4.symm) hlane
      rw [← hgot] at hret
      exact settleProgress_loaded _ s.ev.w hempty (hdest.trans hd) hret
        (g := (p.lane, p.off, bytesAt (spByte s x.blk) (p.addr % 2 ^ 21) 4)) (hgot ▸ List.mem_cons_self)
    · rw [hbytes, hload, if_neg Bool.false_ne_true]
  case other =>
    have hwarp : ∀ v, (feWrite s x b p load).warp v = s.warp v := fun v => by rw [State.warp, feWrite_warps, State.warp]
    refine ⟨_, _, exec_fe_other h hparts hkind hbank hb hfull, performable_replied h ((hwarp _).trans (performable_warp h)) _, rfl, rfl, rfl, rfl,
      by rw [hoff], feWrite_full s x b p load hdata, feWrite_bytes s x b p load, fun k hk => feWrite_others s x b p load hk,
      feWrite_eligible s x b p load, feWrite_homeByte s x b p load, fun v => ?_⟩
    rw [State.setWarp_warp]
    split
    · next hv => rw [hv, ← hwarp]; rfl
    · rw [hwarp]
  case waits =>
    have hexec := exec_fe_waits h hparts hkind hbank (by rw [hfull]; cases load <;> decide)
    cases hremote : isRemote x c with
    | true =>
      rw [hremote, if_pos rfl] at hexec
      refine ⟨_, c, hexec, ?_, rfl, hparts, fun _ => ⟨rfl, rfl⟩⟩
      rw [State.setWarp_warp_self, performable_warp h]
      exact mem_setAccess (performable_mem h) rfl
    | false =>
      rw [hremote, if_neg Bool.false_ne_true] at hexec
      have hmem : c ∈ ((s.setWarp s.ev.w ((s.warp s.ev.w).progress c)).warp s.ev.w).accs := by
        obtain ⟨-, -, -, hne, hgot, -⟩ := id h
        rw [State.setWarp_warp_self, performable_warp h]
        exact progress_waits x hne hgot (performable_mem h) rfl
      obtain ⟨e, he, heq⟩ := (settleProgress_settles s s.ev.w c).outstanding hmem
      exact ⟨_, e, hexec, he, by rw [heq], by rw [heq]; exact hparts, settleProgress_scratch s s.ev.w c⟩

end Sys2Proof.Machine
end

section
/-! Posted writes and REDs at their home (R124, R125, R214, R274, R327), and their acknowledgements. -/

namespace Sys2Proof.Machine

open Sys2Proof.Claim

/-! ### What a home does with tokens (R272, R274, R278) -/

/-- Tokens move, and the posted writes, their acknowledgements and the counted arrivals stay. -/
structure HomeQuiet (s t : State) : Prop where
  tokens : TokensMove s t
  posted : t.tok.posted = s.tok.posted
  acks : t.tok.acks = s.tok.acks
  arrivals : t.tok.arrivals = s.tok.arrivals

theorem HomeQuiet.refl (s : State) : HomeQuiet s s := ⟨.refl s, rfl, rfl, rfl⟩

theorem HomeQuiet.trans {s t u : State} (h : HomeQuiet s t) (k : HomeQuiet t u) : HomeQuiet s u :=
  ⟨h.tokens.trans k.tokens, k.posted.trans h.posted, k.acks.trans h.acks, k.arrivals.trans h.arrivals⟩

theorem HomeQuiet.foldl {α : Type} {f : State → α → State} (hf : ∀ t e, HomeQuiet t (f t e)) (es : List α) (s : State) :
    HomeQuiet s (es.foldl f s) := by
  induction es generalizing s with
  | nil => exact .refl s
  | cons e es ih => exact (hf s e).trans (ih (f s e))

theorem linkSend_homeQuiet (s : State) (l : Nat) (x : LinkItem) : HomeQuiet s (linkSend s l x) := ⟨rfl, rfl, rfl, rfl⟩

theorem sendTo_homeQuiet (s : State) (m : Msg) (poison : Bool) (dests : List (BitVec 13)) : HomeQuiet s (sendTo s m poison dests) := by
  unfold sendTo
  extract_lets own far tok s1
  refine HomeQuiet.trans (t := s1) ?_ (.foldl (fun t e => linkSend_homeQuiet ..) far s1)
  simp only [s1]
  split
  · exact .refl s
  · exact ⟨rfl, rfl, rfl, rfl⟩

theorem setHolding_homeQuiet {s : State} {a : BitVec 13} {sec : Nat} {h : Holding} (hd : isHomeOf s a sec = true → h.dirty = false) :
    HomeQuiet s (setHolding s a sec h) := by
  refine ⟨setHolding_tokensMove hd, ?_, ?_, ?_⟩ <;>
  · unfold setHolding
    split
    · next hh => rw [hd hh, Bool.and_false]; rfl
    · rfl

theorem sendTokens_homeQuiet (s : State) (src dst : BitVec 13) (sec : Nat) (type : BitVec 8) (n : Nat) (withOwner withData : Bool)
    (reqid : BitVec 16) (tc : BitVec 2) : HomeQuiet s (sendTokens s src dst sec type n withOwner withData reqid tc) :=
  (setHolding_homeQuiet fun hh => by rw [holding_dirty_home hh, Bool.false_and]).trans (sendTo_homeQuiet ..)

theorem sendRequest_homeQuiet (s : State) (r : TokenReq) : HomeQuiet s (sendRequest s r) := by
  unfold sendRequest
  extract_lets home m s1
  split
  · exact sendTo_homeQuiet ..
  · split
    · exact sendTo_homeQuiet ..
    · exact (sendTo_homeQuiet ..).trans (.foldl (fun t k => linkSend_homeQuiet ..) _ s1)

theorem startRequest_homeQuiet (s : State) (a : BitVec 13) (sec : Nat) (write : Bool) (tc : BitVec 2) :
    HomeQuiet s (startRequest s a sec write tc) := by
  unfold startRequest
  split
  · exact .refl s
  · split
    · exact .refl s
    · refine HomeQuiet.trans ?_ (sendRequest_homeQuiet ..)
      exact ⟨rfl, rfl, rfl, rfl⟩

theorem broadcast_homeQuiet (s : State) (home : BitVec 13) (m : Msg) : HomeQuiet s (broadcast s home m) := by
  refine HomeQuiet.trans ?_ (.foldl (fun t k => linkSend_homeQuiet ..) _ _)
  exact ⟨rfl, rfl, rfl, rfl⟩

theorem setAct_homeQuiet (s : State) (a : BitVec 13) (sec : Nat) (x : ActState) : HomeQuiet s (setAct s a sec x) := ⟨rfl, rfl, rfl, rfl⟩

theorem setStage_homeQuiet (s : State) (a : BitVec 13) (sec : Nat) (reqid : BitVec 16) (stage : PersistStage) :
    HomeQuiet s (setStage s a sec reqid stage) := ⟨rfl, rfl, rfl, rfl⟩

/-- A home's local agent number (R268). -/
theorem agentLocal_homeAgent (sys : SysState) (da : Nat) : 512 ≤ agentLocal (homeAgent sys da) := by
  have hle := homeIndex_le sys da
  rw [agentLocal, homeAgent, BitVec.toNat_ofNat]
  omega

/-- Nothing waits on the tokens of a home. -/
theorem loseTokens_home (s : State) {a : BitVec 13} (h : 512 ≤ agentLocal a) (sec : Nat) : loseTokens s a sec = some s := by
  unfold loseTokens
  dsimp only
  rw [if_neg (by omega), if_neg (by omega), if_neg (by omega), if_neg (by omega)]

theorem applyWinner_homeQuiet (s : State) {a : BitVec 13} (h : 512 ≤ agentLocal a) (sec : Nat) :
    HomeQuiet s ((applyWinner s a sec).getD s) := by
  unfold applyWinner
  dsimp only
  split
  · split
    · exact .refl s
    · unfold giveAll
      dsimp only
      split
      · exact .refl s
      · rw [loseTokens_home s h]
        exact sendTokens_homeQuiet ..
  · exact .refl s

/-- The home's own record of an activation or its end, and the message to every agent. -/
theorem announce_homeQuiet {s t : State} (h : HomeQuiet s t) (home : BitVec 13) (sec : Nat) (x : ActState) (m : Msg) :
    HomeQuiet s (broadcast (setAct t home sec x) home m) :=
  (h.trans (setAct_homeQuiet ..)).trans (broadcast_homeQuiet ..)

theorem activate_homeQuiet (s : State) (sec : Nat) (p : PersistReq) (queue : List PersistReq) : HomeQuiet s (activate s sec p queue) := by
  unfold activate
  dsimp only
  split
  · exact (announce_homeQuiet (by exact ⟨rfl, rfl, rfl, rfl⟩) ..).trans (setStage_homeQuiet ..)
  · exact (announce_homeQuiet (by exact ⟨rfl, rfl, rfl, rfl⟩) ..).trans (applyWinner_homeQuiet _ (agentLocal_homeAgent ..) sec)

theorem endActive_homeQuiet (s : State) (sec : Nat) : HomeQuiet s (endActive s sec) := by
  unfold endActive
  dsimp only
  split
  · exact .refl s
  · split
    · exact announce_homeQuiet (by exact ⟨rfl, rfl, rfl, rfl⟩) ..
    · exact (announce_homeQuiet (by exact ⟨rfl, rfl, rfl, rfl⟩) ..).trans (activate_homeQuiet ..)

/-- A home has no level 1 to fill. -/
theorem fillWanted_home (s : State) {a : BitVec 13} (ha : 512 ≤ agentLocal a) (sec : Nat) : fillWanted s a sec = s := by
  unfold fillWanted
  exact if_pos (by rw [decide_eq_true (show 96 ≤ agentLocal a by omega)]; rfl)

/-- A home whose requests are over: they leave, and what waited for them is taken up next. -/
theorem settleRequests_home (s : State) (sec : Nat) {a : BitVec 13} (ha : 512 ≤ agentLocal a) :
    ∃ reqs agenda free, HomeQuiet { s with tok := { s.tok with reqs := reqs }, agenda := agenda, free := free } (settleRequests s a sec) := by
  unfold settleRequests
  dsimp only
  rw [fillWanted_home _ ha]
  refine ⟨_, _, _, .foldl (fun t r => ?_) _ _⟩
  split
  · exact endActive_homeQuiet t sec
  · exact sendTo_homeQuiet ..

/-! ### The bytes written (R124) -/

theorem sectorByte_sectorOfBytes {bs : List Byte} {k : Nat} (hlen : bs.length = 64) {b : Byte} (hb : bs[k]? = some b) :
    sectorByte (sectorOfBytes bs) k = b := by
  obtain ⟨hk, -⟩ := List.getElem?_eq_some_iff.mp hb
  refine BitVec.eq_of_getLsbD_eq fun i hi => ?_
  rw [sectorByte, BitVec.getLsbD_extractLsb', sectorOfBytes, BitVec.getLsbD_ofNat, decide_eq_true hi, decide_eq_true (by omega),
    Bool.true_and, Bool.true_and, testBit_leValue hb hi]

/-- The data of a sector at its home is memory's. -/
theorem sectorByte_homeData {s : State} {sec pa k : Nat} (hpa : localAddr s.sys (sectorBase sec) = some pa) (hk : k < 64) :
    sectorByte (homeData s sec) k = homeByte s (pa + k) := by
  simp only [homeData, hpa]
  refine sectorByte_sectorOfBytes ?_ ?_
  · rw [readBytes, getRun_eq_bytesAt, length_bytesAt']
  · rw [readBytes, getRun_eq_bytesAt, bytesAt, List.getElem?_map, List.getElem?_range hk]; rfl
where
  length_bytesAt' {m : Nat → Byte} {a n : Nat} : (bytesAt m a n).length = n := length_bytesAt m a n

/-- Only the low bits of a number are written. -/
theorem leSplit_mod (n v : Nat) : leSplit n (v % 2 ^ (8 * n)) = leSplit n v := by
  refine List.ext_getElem? fun k => ?_
  by_cases hk : k < n
  · rw [getElem?_leSplit _ hk, getElem?_leSplit _ hk]
    refine congrArg some (BitVec.eq_of_getLsbD_eq fun i hi => ?_)
    rw [BitVec.getLsbD_ofNat, BitVec.getLsbD_ofNat, Nat.testBit_div_two_pow, Nat.testBit_div_two_pow, Nat.testBit_mod_two_pow,
      decide_eq_true (by omega : i + 8 * k < 8 * n), Bool.true_and]
  · rw [List.getElem?_eq_none (by simpa using hk), List.getElem?_eq_none (by simpa using hk)]

/-- The step of a RED, on words of its width. -/
theorem leSplit_redNew (op : BitVec 2) {n a b : Nat} (ha : a < 2 ^ (8 * n)) (hb : b < 2 ^ (8 * n)) :
    leSplit n (redNew op n a b) = leSplit n (redWord op (8 * n) (BitVec.ofNat _ a) (BitVec.ofNat _ b)).toNat := by
  have hna : (BitVec.ofNat (8 * n) a).toNat = a := by rw [BitVec.toNat_ofNat, Nat.mod_eq_of_lt ha]
  have hnb : (BitVec.ofNat (8 * n) b).toNat = b := by rw [BitVec.toNat_ofNat, Nat.mod_eq_of_lt hb]
  by_cases h3 : op = 3
  · rw [redWord, if_pos h3, BitVec.toNat_ofNat, leSplit_mod, hna, hnb, h3]
    rfl
  · have hop : redNew op n a b = atomicNew op.toNat false n a b := by
      have : ∀ o : BitVec 2, o ≠ 3 → o = 0 ∨ o = 1 ∨ o = 2 := by decide
      rcases this op h3 with rfl | rfl | rfl <;> rfl
    rw [redWord, if_neg h3, hop, atomicNew_eq op.toNat false n ha hb]

/-- The model's steps of a RED leave the rule's bytes. -/
theorem sectorByte_redSteps (op : BitVec 2) {steps : List (Nat × List Byte)} (hfit : ∀ e, e ∈ steps → e.1 + e.2.length ≤ 64)
    {d : SectorData} {m : Nat → Byte} (hm : ∀ k, k < 64 → sectorByte d k = m k) :
    ∀ k, k < 64 → sectorByte (redSteps op d steps) k = Claim.redBytes op steps m k := by
  induction steps generalizing d m with
  | nil => exact hm
  | cons e es ih =>
    obtain ⟨off, bs⟩ := e
    have hin : off + bs.length ≤ 64 := hfit _ List.mem_cons_self
    have hold : sectorBytes d off bs.length = bytesAt m off bs.length := by
      rw [sectorBytes_eq]
      exact List.map_congr_left fun k hk => hm _ (by have := List.mem_range.mp hk; omega)
    have hnew := leSplit_redNew op (a := leValue (bytesAt m off bs.length)) (b := leValue bs) (n := bs.length)
      (by have := leValue_lt (bytesAt m off bs.length); rwa [length_bytesAt] at this) (leValue_lt bs)
    refine ih (fun e he => hfit e (List.mem_cons_of_mem _ he)) fun k hk => ?_
    rw [sectorByte_sectorPut d hk, hm k hk, hold, hnew]
    rfl

/-- A byte outside every step is kept. -/
theorem steppedByte_outside {steps : List (Nat × List Byte)} {k : Nat} (h : ∀ e, e ∈ steps → ¬ (e.1 ≤ k ∧ k < e.1 + e.2.length)) (old : Byte) :
    steppedByte steps k old = old := by
  induction steps with
  | nil => rfl
  | cons e es ih =>
    rw [steppedByte, List.foldl_cons, if_neg (h e List.mem_cons_self)]
    exact ih fun e he => h e (List.mem_cons_of_mem _ he)

/-- Steps that all write the bytes of one map leave them where some step writes. -/
theorem steppedByte_ofMap {steps : List (Nat × List Byte)} {k : Nat} (f : Nat → Byte) {old : Byte}
    (h : (∃ e, e ∈ steps ∧ e.1 ≤ k ∧ k < e.1 + e.2.length) ∨ old = f k) :
    steppedByte (steps.map (fun e => (e.1, bytesAt f e.1 e.2.length))) k old = f k := by
  induction steps generalizing old with
  | nil => exact h.resolve_left fun ⟨e, he, _⟩ => List.not_mem_nil he
  | cons e es ih =>
    rw [List.map_cons, steppedByte, List.foldl_cons, ← steppedByte]
    refine ih ?_
    dsimp only
    rw [length_bytesAt]
    by_cases hin : e.1 ≤ k ∧ k < e.1 + e.2.length
    · rw [if_pos hin, bytesAt, List.getElem?_map, List.getElem?_range (by omega), Option.map_some, Option.getD_some, Nat.add_sub_cancel' hin.1]
      exact .inr rfl
    · rw [if_neg hin]
      refine h.imp_left fun ⟨x, hx, hrange⟩ => ?_
      rcases List.mem_cons.mp hx with rfl | hx
      · exact absurd hrange hin
      · exact ⟨x, hx, hrange⟩

theorem redBytes_outside (op : BitVec 2) {steps : List (Nat × List Byte)} {m : Nat → Byte} {k : Nat}
    (h : ∀ e, e ∈ steps → ¬ (e.1 ≤ k ∧ k < e.1 + e.2.length)) : Claim.redBytes op steps m k = m k := by
  induction steps generalizing m with
  | nil => rfl
  | cons e es ih =>
    obtain ⟨off, bs⟩ := e
    rw [Claim.redBytes, ih fun e he => h e (List.mem_cons_of_mem _ he), Claim.putAt, length_leSplit]
    exact if_neg (h _ List.mem_cons_self)

/-- The steps by which a home performs a posted write. -/
def postedSteps (d : SectorData) (w : PostedWrite) : List (Nat × List Byte) :=
  match w.red with
  | none => w.steps
  | some op => w.steps.map (fun e => (e.1, sectorBytes (redSteps op d w.steps) e.1 e.2.length))

theorem performPosted_eq (s : State) (home : BitVec 13) (w : PostedWrite) :
    performPosted s home w = writeHeld s home w.sector (postedSteps (holding s home w.sector).data w) := by
  unfold performPosted postedSteps
  cases w.red <;> rfl

/-- The sector's bytes after a posted write. -/
theorem sectorByte_posted {d : SectorData} {w : PostedWrite} (hfit : ∀ e, e ∈ w.steps → e.1 + e.2.length ≤ 64) {m : Nat → Byte}
    (hm : ∀ k, k < 64 → sectorByte d k = m k) {k : Nat} (hk : k < 64) :
    sectorByte (putSteps d (postedSteps d w)) k = postedBytes w m k := by
  rw [sectorByte_putSteps d hk, postedBytes, postedSteps]
  cases w.red with
  | none => rw [hm k hk]; rfl
  | some op =>
    have hred := sectorByte_redSteps op hfit hm k hk
    simp only [sectorBytes_eq, Option.elim_some]
    rw [← hred]
    refine steppedByte_ofMap _ ?_
    by_cases hin : ∃ e, e ∈ w.steps ∧ e.1 ≤ k ∧ k < e.1 + e.2.length
    · exact .inl hin
    · refine .inr ?_
      rw [hred, redBytes_outside op fun e he hr => hin ⟨e, he, hr⟩, hm k hk]

/-! ### The write at the home (R274) -/

/-- A home that holds every token holds the owner. -/
theorem owner_of_home_full {s : State} {home : BitVec 13} {sec : Nat} (hh : isHomeOf s home sec = true)
    (h : (holding s home sec).tokens = 2048) : (holding s home sec).owner = true := by
  rw [holding, if_pos hh] at h ⊢
  dsimp only at h ⊢
  have := (Sparse.get ({} : HomeMeta) s.tok.homes sec).count.isLt
  by_contra hno
  rw [Bool.not_eq_true] at hno
  rw [hno, boolNat, if_neg Bool.false_ne_true] at h
  omega

/-- A posted write at its home changes the sector in memory, the home's own record and the marks of changed code. -/
theorem performPosted_frame {s : State} {home : BitVec 13} {w : PostedWrite} {pa : Nat} (hh : isHomeOf s home w.sector = true)
    (hpa : localAddr s.sys (sectorBase w.sector) = some pa) (hfull : (holding s home w.sector).tokens = 2048) :
    ∃ poison homes dirty, performPosted s home w = { s with
      mem := writeBytes s.mem pa (sectorBytes (putSteps (homeData s w.sector) (postedSteps (homeData s w.sector) w)) 0 64),
      tok := { s.tok with poison := poison, homes := homes }, codeDirty := dirty } := by
  have howner := owner_of_home_full hh hfull
  have hdata : (holding s home w.sector).data = homeData s w.sector := by rw [holding, if_pos hh]
  rw [performPosted_eq, writeHeld, hdata, dirtyCode]
  dsimp only
  rw [setHolding, if_pos hh]
  dsimp only
  rw [howner, Bool.true_and, if_pos rfl, setHomeData, hpa]
  exact ⟨_, _, _, rfl⟩

/-- The sector in memory after a posted write, and the rest as before. -/
theorem readByte_posted {s : State} {w : PostedWrite} {pa : Nat} (hpa : localAddr s.sys (sectorBase w.sector) = some pa)
    (hfit : ∀ e, e ∈ w.steps → e.1 + e.2.length ≤ 64) (a : Nat) :
    readByte (writeBytes s.mem pa (sectorBytes (putSteps (homeData s w.sector) (postedSteps (homeData s w.sector) w)) 0 64)) a
      = if pa ≤ a ∧ a < pa + 64 then postedBytes w (fun k => homeByte s (pa + k)) (a - pa) else homeByte s a := by
  rw [readByte_writeBytes, sectorBytes_eq, length_bytesAt]
  refine if_ctx_congr Iff.rfl (fun hin => ?_) (fun _ => rfl)
  have hk : a - pa < 64 := by omega
  rw [List.getD_eq_getElem?_getD, bytesAt, List.getElem?_map, List.getElem?_range hk, Option.map_some, Option.getD_some, Nat.zero_add]
  exact sectorByte_posted hfit (fun k hk => sectorByte_homeData hpa hk) hk

/-! ### Arrivals (R214, R327) -/

theorem find?_map_count {p : Arrival → Bool} {as : List Arrival} (hp : ∀ a : Arrival, p { a with count := a.count + 1 } = p a) :
    (as.map (fun a => if p a then { a with count := a.count + 1 } else a)).find? p
      = (as.find? p).map (fun a => { a with count := a.count + 1 }) := by
  induction as with
  | nil => rfl
  | cons a as ih =>
    cases h : p a with
    | true => rw [List.map_cons, if_pos h, List.find?_cons_of_pos ((hp a).trans h), List.find?_cons_of_pos h]; rfl
    | false =>
      rw [List.map_cons, if_neg (by rw [h]; exact Bool.false_ne_true), List.find?_cons_of_neg (by rw [h]; exact Bool.false_ne_true), ih,
        List.find?_cons_of_neg (by rw [h]; exact Bool.false_ne_true)]

/-- One more arrival of the write's source and round is counted. -/
theorem arrived_countArrival {s t : State} {home : Nat} {w : PostedWrite} (h : t.tok.arrivals = countArrival s.tok.arrivals home w) :
    arrived t home w.srcId w.round = arrived s home w.srcId w.round + 1 := by
  unfold arrived
  rw [h, countArrival]
  dsimp only
  split
  · next hany =>
    obtain ⟨a, ha, hsame⟩ := List.any_eq_true.mp hany
    rw [find?_map_count fun _ => rfl]
    cases hfind : s.tok.arrivals.find? (fun a => a.home == home && a.srcId == w.srcId && a.round == w.round) with
    | none => exact absurd hsame (List.find?_eq_none.mp hfind a ha)
    | some b => rfl
  · next hany =>
    have hnone : s.tok.arrivals.find? (fun a => a.home == home && a.srcId == w.srcId && a.round == w.round) = none :=
      List.find?_eq_none.mpr fun a ha hs => hany (List.any_eq_true.mpr ⟨a, ha, hs⟩)
    rw [List.find?_append, hnone]
    simp

/-! ### The events -/

theorem censusHolds_iff (s : State) (sec : Nat) : censusHolds s sec = true ↔ CensusRuns s sec := by
  simp only [censusHolds, CensusRuns, List.any_eq_true, Bool.and_eq_true, beq_iff_eq, bne_iff_ne]

/-- The state of a home that has performed a write, with the write acknowledged or counted. -/
def writeDone (s : State) (p : HomeWrite) : State :=
  let s1 := performPosted s (ownAgent s.sys (512 + p.home)) p.write
  { s1 with tok := match p.ack with
    | some a => { s1.tok with posted := dropAt s1.tok.posted s.ev.k, acks := s1.tok.acks ++ [a] }
    | none => { s1.tok with posted := dropAt s1.tok.posted s.ev.k, arrivals := countArrival s1.tok.arrivals p.home p.write } }

section
variable {s : State} {p : HomeWrite} (hp : s.tok.posted[s.ev.k]? = some p)
include hp

theorem exec_homePostedWrite_census (h : CensusRuns s p.write.sector) : exec .homePostedWrite s = .next s := by
  refine congrArg Host.Outcome.next ?_
  simp only [hp, (censusHolds_iff ..).mpr h, if_true]

theorem exec_homePostedWrite_short (hc : ¬ CensusRuns s p.write.sector)
    (hsat : satisfied s (ownAgent s.sys (512 + p.home)) p.write.sector true = false) :
    exec .homePostedWrite s = .next (startRequest s (ownAgent s.sys (512 + p.home)) p.write.sector true p.write.tc) := by
  have hcensus : censusHolds s p.write.sector = false := Bool.not_eq_true _ ▸ fun h => hc ((censusHolds_iff ..).mp h)
  refine congrArg Host.Outcome.next ?_
  simp only [hp, hcensus, hsat, Bool.false_eq_true, if_false, Bool.not_false, if_true]

theorem exec_homePostedWrite_performs (hc : ¬ CensusRuns s p.write.sector)
    (hsat : satisfied s (ownAgent s.sys (512 + p.home)) p.write.sector true = true) :
    exec .homePostedWrite s = .next (settleRequests (writeDone s p) (ownAgent s.sys (512 + p.home)) p.write.sector) := by
  have hcensus : censusHolds s p.write.sector = false := Bool.not_eq_true _ ▸ fun h => hc ((censusHolds_iff ..).mp h)
  refine congrArg Host.Outcome.next ?_
  simp only [hp, hcensus, hsat, Bool.false_eq_true, if_false, Bool.not_true]
  cases hack : p.ack <;> simp only [writeDone, hack]

end

/-- What a home's performed write leaves, with its acknowledgement or count. -/
theorem writeDone_frame {s : State} {p : HomeWrite} {pa : Nat} (hh : isHomeOf s (ownAgent s.sys (512 + p.home)) p.write.sector = true)
    (hpa : localAddr s.sys (sectorBase p.write.sector) = some pa)
    (hsat : satisfied s (ownAgent s.sys (512 + p.home)) p.write.sector true = true) :
    ∃ tok dirty, writeDone s p = { s with
        mem := writeBytes s.mem pa (sectorBytes (putSteps (homeData s p.write.sector) (postedSteps (homeData s p.write.sector) p.write)) 0 64),
        tok := tok, codeDirty := dirty }
      ∧ tok.posted = dropAt s.tok.posted s.ev.k ∧ (∀ a, p.ack = some a → tok.acks = s.tok.acks ++ [a] ∧ tok.arrivals = s.tok.arrivals)
      ∧ (p.ack = none → tok.acks = s.tok.acks ∧ tok.arrivals = countArrival s.tok.arrivals p.home p.write) := by
  obtain ⟨poison, homes, dirty, heq⟩ := performPosted_frame hh hpa (satisfied_write hsat)
  refine ⟨_, dirty, by rw [writeDone, heq], ?_⟩
  cases p.ack with
  | none => exact ⟨rfl, by rintro a ⟨⟩, fun _ => ⟨rfl, rfl⟩⟩
  | some b => exact ⟨rfl, by rintro a ⟨⟩; exact ⟨rfl, rfl⟩, by rintro ⟨⟩⟩

/-! ### Acknowledgements (R125) -/

/-- A warp whose access has one acknowledgement less to wait for. -/
def ackedWarp (x : Warp) (id : Nat) : Warp :=
  { x with acks := x.acks - 1, accs := x.accs.map (fun (c : Access) => if c.id == id then { c with acks := c.acks - 1 } else c) }

theorem exec_postedWriteAck {s : State} {w id : Nat} (h : s.tok.acks[s.ev.k]? = some (w, id)) : exec .postedWriteAck s
    = .next (afterAccess ({ s with tok := { s.tok with acks := dropAt s.tok.acks s.ev.k } }.setWarp w
        (if (ackedWarp (s.warp w) id).accs.any (fun c => c.id == id && c.acks == 0) then (ackedWarp (s.warp w) id).finishAccess id
          else ackedWarp (s.warp w) id)) w) := by
  refine congrArg Host.Outcome.next ?_
  simp only [h]
  rfl

/-- An access acknowledged once. -/
theorem mem_ackedWarp {x : Warp} {c : Access} (hc : c ∈ x.accs) : { c with acks := c.acks - 1 } ∈ (ackedWarp x c.id).accs :=
  List.mem_map.mpr ⟨c, hc, if_pos (beq_self_eq_true _)⟩

/-- The last acknowledgement is the one that leaves none to wait for. -/
theorem any_acked_iff {x : Warp} {c : Access} {n : Nat} (hc : c ∈ x.accs) (huniq : ∀ e, e ∈ x.accs → e.id = c.id → e = c)
    (hacks : c.acks = n + 1) : (ackedWarp x c.id).accs.any (fun e => e.id == c.id && e.acks == 0) = decide (n = 0) := by
  rw [Bool.eq_iff_iff, List.any_eq_true, decide_eq_true_iff]
  constructor
  · rintro ⟨e, he, hcond⟩
    obtain ⟨e', he', rfl⟩ := List.mem_map.mp he
    obtain ⟨hid, hzero⟩ := Bool.and_eq_true_iff.mp hcond
    by_cases hsame : e'.id == c.id
    · rw [huniq e' he' (eq_of_beq hsame), if_pos (beq_self_eq_true _)] at hzero
      have := eq_of_beq hzero
      dsimp only at this
      omega
    · rw [if_neg hsame] at hid
      exact absurd hid hsame
  · intro hn
    exact ⟨_, mem_ackedWarp hc, by rw [hacks, hn]; simp⟩

/-- Settles O20: the home's write puts the sector's new bytes in memory; an acknowledgement lowers the counters. -/
theorem postedWrites : Obligations.PostedWrites := by
  unfold Obligations.PostedWrites
  refine ⟨fun s p pa => ?write, fun s w id n c hack hc hid huniq hacks => ?ack⟩
  case write =>
    intro home sec hp hh hpa hfit
    refine ⟨fun hcensus => exec_homePostedWrite_census hp hcensus, fun hcensus hsat => ?performs, fun hcensus hsat => ?short⟩
    case performs =>
      obtain ⟨tok, dirty, hdone, hposted, hsome, hnone⟩ := writeDone_frame hh hpa hsat
      have hlocal : 512 ≤ agentLocal home := by
        rw [eq_of_beq (Bool.and_eq_true_iff.mp hh).1]
        exact agentLocal_homeAgent ..
      obtain ⟨reqs, agenda, free, hquiet⟩ := settleRequests_home (writeDone s p) sec hlocal
      refine ⟨_, exec_homePostedWrite_performs hp hcensus hsat, ?_⟩
      generalize settleRequests (writeDone s p) (ownAgent s.sys (512 + p.home)) p.write.sector = t at hquiet ⊢
      rw [hdone] at hquiet
      have hbyte : ∀ a, homeByte t a = if pa ≤ a ∧ a < pa + 64 then postedBytes p.write (fun k => homeByte s (pa + k)) (a - pa)
          else homeByte s a := fun a => by
        rw [homeByte, hquiet.tokens.mem]; exact readByte_posted hpa hfit a
      refine ⟨fun off hoff => ?_, fun a ha => (hbyte a).trans (if_neg ha), hquiet.posted.trans hposted, fun a ha => ?_, fun ha => ?_,
        hquiet.tokens.warps, hquiet.tokens.blocks, hquiet.tokens.harts, hquiet.tokens.names, hquiet.tokens.sys⟩
      · rw [hbyte, if_pos (by omega), Nat.add_sub_cancel_left]
      · exact ⟨hquiet.acks.trans (hsome a ha).1, hquiet.arrivals.trans (hsome a ha).2⟩
      · exact ⟨hquiet.acks.trans (hnone ha).1, arrived_countArrival (hquiet.arrivals.trans (hnone ha).2)⟩
    case short =>
      have hquiet := startRequest_homeQuiet s home sec true p.write.tc
      exact ⟨_, exec_homePostedWrite_short hp hcensus hsat, hquiet.posted, hquiet.tokens.mem, hquiet.tokens.warps, hquiet.tokens.blocks,
        hquiet.tokens.harts, hquiet.tokens.sys⟩
  case ack =>
    subst hid
    have hexec := exec_postedWriteAck hack
    rw [any_acked_iff hc huniq hacks] at hexec
    have hset := afterAccess_settles ({ s with tok := { s.tok with acks := dropAt s.tok.acks s.ev.k } }.setWarp w
      (if decide (n = 0) then (ackedWarp (s.warp w) c.id).finishAccess c.id else ackedWarp (s.warp w) c.id)) w
    refine ⟨_, hexec, ?_⟩
    generalize afterAccess _ w = t at hset ⊢
    have hself := State.setWarp_warp_self { s with tok := { s.tok with acks := dropAt s.tok.acks s.ev.k } } w
      (if decide (n = 0) then (ackedWarp (s.warp w) c.id).finishAccess c.id else ackedWarp (s.warp w) c.id)
    have hregs : registersOf (t.warp w) = registersOf (s.warp w) := by
      rw [hset.warp, hself]; split <;> rfl
    have hother : ∀ v, v ≠ w → t.warp v = s.warp v := fun v hv => (hset.others v hv).trans ((State.setWarp_warp ..).trans (if_neg hv))
    refine ⟨by rw [hset.state]; rfl, ?_, fun hn => hset.completed ?_, fun hn => ?_, ⟨⟨hset.memory, hset.scratch⟩, by rw [hset.state]; rfl,
      fun v => ?_⟩, hother⟩
    · rw [hset.warp, hself]; split <;> rfl
    · rw [hself, if_pos (decide_eq_true hn)]
      intro e he
      exact bne_iff_ne.mp (List.mem_filter.mp he).2
    · obtain ⟨e, he, heq⟩ := hset.outstanding (e := { c with acks := c.acks - 1 })
        (by rw [hself, if_neg (by simpa using hn)]; exact mem_ackedWarp hc)
      exact ⟨e, he, by rw [heq], by rw [heq]; dsimp only; omega⟩
    · by_cases hv : v = w
      · rw [hv]; exact hregs
      · rw [hother v hv]

end Sys2Proof.Machine
end

section
/-! O25: MONARM, MONWAIT and its time-out (R134, R135). -/

namespace Sys2Proof.Machine

open Sys2Proof.Claim

theorem openLoads_nil {x : Warp} (h : NoLoads x) : openLoads x = [] := by
  refine List.filter_eq_nil_iff.mpr fun c hc => ?_
  obtain ⟨hload, hcas, hatomic⟩ := h c hc
  cases hk : c.kind with
  | load => exact absurd hk hload
  | cas => exact absurd hk hcas
  | atomic op u => exact absurd hk (hatomic op u)
  | loadFe | storeFe | store fe | posted | red op | arrive bar scope => exact Bool.false_ne_true

/-- A slot that waits changes no data. -/
theorem State.hold_dataKept (s : State) (h : Hold) : DataKept s (s.hold h) := by
  rw [State.hold_eq]
  exact dataKept_setWarp s rfl

/-! ### MONARM -/

/-- A line whose two sectors the core's L2 holds a token of is armed at once. -/
theorem armMonitor_held {s : State} {va da : Nat} {ros : Bool}
    (h : ros = false → ∀ k, k < 2 → satisfied s (coreAgent s s.cw.core) (2 * (da / 128) + k) false = true) :
    ∃ core, armMonitor s va da ros
      = (s.setCw { s.cw with mon := some ⟨va / 128 * 128, da / 128, ros, false⟩ }).setCore s.cw.core core := by
  have hneed : (if ros then [] else (lineSectors (da / 128)).filter (fun sec => !satisfied s (coreAgent s s.cw.core) sec false)) = [] := by
    cases hr : ros with
    | true => rfl
    | false =>
      have h0 := h hr 0 (by decide)
      have h1 := h hr 1 (by decide)
      rw [Nat.add_zero] at h0
      simp [lineSectors, h0, h1]
  exact ⟨_, by rw [armMonitor]; simp only [hneed]; rfl⟩

theorem exec_smonarm {s : State} {a : BitVec 6} {da : Nat} {ros : Bool} (hon : s.scalarOn = true) (hloads : NoLoads s.cw)
    (hplaced : (placeGlobal s .load 1 [⟨64, (s.sreg a.toNat).toNat, 0, 1, false⟩]).1
      = [(⟨64, (s.sreg a.toNat).toNat, 0, 1, false⟩, .ok da ros)]) :
    exec (.smonarm a) s = .next (armMonitor (placeGlobal s .load 1 [⟨64, (s.sreg a.toNat).toNat, 0, 1, false⟩]).2
      (s.sreg a.toNat).toNat da ros) := by
  refine congrArg Host.Outcome.next ((if_pos hon).trans ?_)
  simp only [openLoads_nil hloads, List.isEmpty_nil, Bool.not_true, Bool.false_eq_true, if_false, scalarPiece, hplaced]
  exact onVerdict_pass _ rfl

/-! ### MONWAIT -/

theorem exec_smonwait_woken {s : State} {d a : BitVec 6} {r : BitVec 2} (hon : s.scalarOn = true) (hw : s.unit.wake = some r) :
    exec (.smonwait d a) s = .next (s.setSreg d.toNat (r.setWidth 64)) :=
  congrArg Host.Outcome.next ((if_pos hon).trans (by simp only [hw]))

theorem exec_smonwait_unarmed {s : State} {d a : BitVec 6} (hon : s.scalarOn = true) (hw : s.unit.wake = none)
    (hmon : s.cw.mon = none ∨ ∃ m, s.cw.mon = some m ∧ m.ros = true) : exec (.smonwait d a) s = .next (s.setSreg d.toNat 2) := by
  refine congrArg Host.Outcome.next ((if_pos hon).trans ?_)
  rcases hmon with hmon | ⟨m, hmon, hros⟩
  · simp only [hw, hmon]
  · simp only [hw, hmon, hros, if_true]

/-- An armed monitor on a line that can change decides once the warp's loads have returned. -/
theorem exec_smonwait_armed {s : State} {d a : BitVec 6} {m : Monitor} (hon : s.scalarOn = true) (hw : s.unit.wake = none)
    (hmon : s.cw.mon = some m) (hros : m.ros = false) (hloads : NoLoads s.cw) :
    exec (.smonwait d a) s = .next (if m.triggered then (s.setCw { s.cw with mon := none }).setSreg d.toNat 0
      else s.hold (.monwait (if (s.sreg a.toNat).toNat = 0 then none else some (s.now + (s.sreg a.toNat).toNat)))) := by
  refine congrArg Host.Outcome.next ((if_pos hon).trans ?_)
  simp only [hw, hmon, hros, openLoads_nil hloads, List.isEmpty_nil, Bool.not_true, Bool.false_eq_true, if_false]

theorem setSreg_onlySreg (s : State) (d : Nat) (v : W64) : OnlySregAndState s (s.setSreg d v) d := by
  have harch : (s.setSreg d v).arch = s.arch.setS d v := s.setArch_arch _
  refine ⟨memoryKept_setWarp .., fun r hr => ?_, ?_, ?_, ?_, ?_, fun w hw => ?_⟩
  · rw [State.setSreg_sreg, if_neg hr]
  case refine_6 =>
    have : (s.setSreg d v).warp w = s.warp w := (State.setWarp_warp ..).trans (if_neg hw)
    rw [this]
  all_goals rw [harch]; rfl

theorem setSreg_mon (s : State) (d : Nat) (v : W64) : (s.setSreg d v).cw.mon = s.cw.mon := by
  have : (s.setSreg d v).cw = { s.cw with arch := s.arch.setS d v } := State.setArch_cw ..
  rw [this]

/-- Disarming the monitor is not seen among registers and memory. -/
theorem setSreg_disarmed_onlySreg (s : State) (d : Nat) (v : W64) :
    OnlySregAndState s ((s.setCw { s.cw with mon := none }).setSreg d v) d := by
  have harch : (s.setCw { s.cw with mon := none }).arch = s.arch := by rw [State.arch, State.setCw_cw]; rfl
  obtain ⟨hmem, hsreg, hv, hp, hn, hacc, hregs⟩ := setSreg_onlySreg (s.setCw { s.cw with mon := none }) d v
  rw [harch] at hv hp hn hacc
  refine ⟨hmem, fun r hr => (hsreg r hr).trans ?_, hv, hp, hn, hacc, fun w hw => (hregs w hw).trans ?_⟩
  · rw [State.sreg, harch, State.sreg]
  · exact congrArg registersOf ((State.setWarp_warp ..).trans (if_neg hw))

/-! ### The time-out -/

theorem awaitsMonitor_iff (v : IUnit) : v.awaitsMonitor = true ↔ v.wake = none ∧ ∃ e, v.hold = .monwait e := by
  rw [IUnit.awaitsMonitor, Bool.and_eq_true, Option.isNone_iff_eq_none, and_comm]
  refine and_congr_right fun _ => ?_
  split
  · next e he => exact ⟨fun _ => ⟨e, he⟩, fun _ => rfl⟩
  · next hne => exact ⟨(by cases ·), fun ⟨e, he⟩ => absurd he (hne e)⟩

theorem not_awaitsMonitor_iff (v : IUnit) : ¬ v.awaitsMonitor = true ↔ (v.wake = none → ∀ e, v.hold ≠ .monwait e) := by
  rw [awaitsMonitor_iff]
  exact ⟨fun h hw e he => h ⟨hw, e, he⟩, fun h ⟨hw, e, he⟩ => h hw e he⟩

theorem mem_units_iff {x : Warp} {v : IUnit} : v ∈ x.arch.units ↔ ∃ k, k < x.arch.units.length ∧ x.unit k = v := by
  rw [List.mem_iff_getElem]
  exact ⟨fun ⟨k, hk, he⟩ => ⟨k, hk, unit_of_getElem? (List.getElem?_eq_some_iff.mpr ⟨hk, he⟩)⟩,
    fun ⟨k, hk, he⟩ => ⟨k, hk, (unit_of_getElem? (List.getElem?_eq_getElem hk)).symm.trans he⟩⟩

/-- The warp after unit `u` woke with reason 1. -/
def timedOut (x : Warp) (u : Nat) : Warp := x.setUnit u (fun v => { v with wake := some 1 })

/-- No unit but the woken one waits for the monitor any longer. -/
theorem timedOut_last_iff {x : Warp} {u : Nat} (hu : u < x.arch.units.length) :
    ¬ ((timedOut x u).arch.units ++ (timedOut x u).arch.stack).any IUnit.awaitsMonitor = true
      ↔ (∀ k, k < x.arch.units.length → k ≠ u → (x.unit k).wake = none → ∀ e, (x.unit k).hold ≠ .monwait e)
        ∧ ∀ v, v ∈ x.arch.stack → v.wake = none → ∀ e, v.hold ≠ .monwait e := by
  have hlen : (timedOut x u).arch.units.length = x.arch.units.length := Warp.length_setUnit ..
  have hself : ¬ ((timedOut x u).unit u).awaitsMonitor = true := by
    rw [timedOut, Warp.setUnit_unit _ hu, awaitsMonitor_iff]
    exact fun ⟨h, _⟩ => by cases h
  simp only [List.any_eq_true, List.mem_append, not_exists, not_and, or_imp, forall_and, ← not_awaitsMonitor_iff]
  refine and_congr ⟨fun h k hk hne => ?_, fun h v hv => ?_⟩ Iff.rfl
  · rw [← Warp.setUnit_unit_other x (fun v => { v with wake := some 1 }) hne]
    exact h _ (mem_units_iff.mpr ⟨k, hlen.symm ▸ hk, rfl⟩)
  · obtain ⟨k, hk, rfl⟩ := mem_units_iff.mp hv
    by_cases hne : k = u
    · rw [hne]; exact hself
    · rw [timedOut, Warp.setUnit_unit_other x _ hne]
      exact h k (hlen ▸ hk) hne

theorem isPlaced_iff (s : State) (blk : Nat) :
    isPlaced s blk = true ↔ (s.block blk).status = .resident ∨ (s.block blk).status = .stopping := by
  rw [isPlaced]
  split
  · next h => simp [h]
  · next h => simp [h]
  · next h1 h2 => exact ⟨(by cases ·), fun h => (h.elim h1 h2).elim⟩

/-- Settles O25: each instruction by its branches; the time-out by which units still wait. -/
theorem monitors : Obligations.Monitors := by
  unfold Obligations.Monitors
  refine fun s => ⟨fun a da ros hon hloads => ?arm, fun d a hon => ?wait, fun d hhold hwake hd hu => ?timeout⟩
  case arm =>
    intro va p hp hsat
    have hmove : TokensMove s p.2 := placeGlobal_tokensMove ..
    obtain ⟨core, harm⟩ := armMonitor_held (va := va) hsat
    refine ⟨_, (exec_smonarm hon hloads hp).trans (congrArg Host.Outcome.next harm), ?_⟩
    have hwarp : ∀ v, ((p.2.setCw { p.2.cw with mon := some ⟨va / 128 * 128, da / 128, ros, false⟩ }).setCore p.2.cw.core core).warp v
        = if v = s.cur.w then { s.cw with mon := some ⟨va / 128 * 128, da / 128, ros, false⟩ } else s.warp v := fun v => by
      rw [← hmove.warp v, ← hmove.cw, ← hmove.cur]
      exact State.setWarp_warp ..
    refine ⟨?_, hmove.cur, ?_, fun v hv => (hwarp v).trans (if_neg hv)⟩
    · have hcur : (p.2.setCw { p.2.cw with mon := some ⟨va / 128 * 128, da / 128, ros, false⟩ }).cur = s.cur := hmove.cur
      rw [State.cw, State.setCore_cur, hcur, hwarp, if_pos rfl]
    · refine dataKept_trans hmove.storageKept.dataKept (dataKept_trans (dataKept_setWarp p.2 ?_)
        (tokensMove_setCore _ _ _).storageKept.dataKept)
      rfl
  case wait =>
    intro gives
    have hwrites : ∀ v : W64, exec (.smonwait d a) s = .next (s.setSreg d.toNat v) → gives v.toNat := fun v hexec =>
      ⟨_, hexec, by rw [State.setSreg_sreg, if_pos rfl], setSreg_onlySreg .., .inl (setSreg_mon ..)⟩
    refine ⟨fun r hr => ?_, fun hw hmon => hwrites 2 (exec_smonwait_unarmed hon hw hmon), fun m hw hmon hros hloads htrig => ?_,
      fun m hw hmon hros hloads htrig hu => ?_⟩
    · have hval : (r.setWidth 64).toNat = r.toNat := by rw [BitVec.toNat_setWidth]; omega
      rw [← hval]
      exact hwrites _ (exec_smonwait_woken hon hr)
    · have hexec := exec_smonwait_armed (d := d) (a := a) hon hw hmon hros hloads
      rw [if_pos htrig] at hexec
      have hnone : ((s.setCw { s.cw with mon := none }).setSreg d.toNat 0).cw.mon = none := by
        rw [setSreg_mon, State.setCw_cw]
      exact ⟨⟨_, hexec, by rw [State.setSreg_sreg, if_pos rfl]; rfl, setSreg_disarmed_onlySreg .., .inr hnone⟩, _, hexec, hnone⟩
    · have hexec := exec_smonwait_armed (d := d) (a := a) hon hw hmon hros hloads
      rw [if_neg (by rw [htrig]; exact Bool.false_ne_true)] at hexec
      refine ⟨_, hexec, rfl, State.hold_dataKept .., ?_⟩
      rw [State.hold_unit _ hu]
      have hzero : (s.sreg a.toNat).toNat = 0 ↔ s.sreg a.toNat = 0 := ⟨fun h => BitVec.eq_of_toNat_eq h, fun h => by rw [h]; rfl⟩
      simp only [hzero]
      rfl
  case timeout =>
    intro st
    have hexec : exec .monwaitTimeout s = .next (if isPlaced s (s.warp s.ev.w).blk = true then
        s.setWarp s.ev.w (if ((timedOut (s.warp s.ev.w) s.ev.u).arch.units ++ (timedOut (s.warp s.ev.w) s.ev.u).arch.stack).any
          IUnit.awaitsMonitor then timedOut (s.warp s.ev.w) s.ev.u else { timedOut (s.warp s.ev.w) s.ev.u with mon := none }) else s) := by
      show execMonwaitTimeout s = _
      have hnow : ¬ s.now < d := by rw [State.now]; omega
      simp only [execMonwaitTimeout, hhold, hwake, hnow]
      cases isPlaced s (s.warp s.ev.w).blk <;> rfl
    refine ⟨fun h1 h2 => ?_, fun h => ?_⟩
    · rw [hexec, if_neg fun h => ((isPlaced_iff ..).mp h).elim h1 h2]
    · rw [if_pos ((isPlaced_iff ..).mpr h)] at hexec
      refine ⟨_, hexec, ?_, dataKept_setWarp s ?_, ?_, fun v hv => (State.setWarp_warp ..).trans (if_neg hv)⟩
      · rw [State.setWarp_warp_self]
        have hw : ((timedOut (s.warp s.ev.w) s.ev.u).unit s.ev.u).wake = some 1 := by rw [timedOut, Warp.setUnit_unit _ hu]
        split
        · exact hw
        · exact hw
      · split <;> rfl
      · rw [State.setWarp_warp_self, ← timedOut_last_iff hu]
        split
        · next hany => exact ⟨.inl, fun h => h.resolve_right fun hn => hn hany⟩
        · next hany => exact ⟨fun _ => .inr hany, fun _ => rfl⟩

end Sys2Proof.Machine
end

section
/-! The end of a warp (R144): what its holds, its last round, the barriers and the JOINs of its block leave of every warp. -/

namespace Sys2Proof.Machine

open Sys2Proof.Claim

/-- A warp keeps its registers, its holds and whether it has ended; a monitor is not armed. -/
structure WarpKept (x y : Warp) : Prop where
  registers : registersOf y = registersOf x
  ended : y.ended = x.ended
  holds : y.holds = x.holds
  unarmed : x.mon = none → y.mon = none

theorem WarpKept.refl (x : Warp) : WarpKept x x := ⟨rfl, rfl, rfl, id⟩

theorem WarpKept.trans {x y z : Warp} (h : WarpKept x y) (k : WarpKept y z) : WarpKept x z :=
  ⟨k.registers.trans h.registers, k.ended.trans h.ended, k.holds.trans h.holds, k.unarmed ∘ h.unarmed⟩

/-- So does every warp. -/
structure WarpsKept (s t : State) : Prop where
  warp : ∀ v, WarpKept (s.warp v) (t.warp v)

theorem WarpsKept.trans {s t u : State} (h : WarpsKept s t) (k : WarpsKept t u) : WarpsKept s u := ⟨fun v => (h.warp v).trans (k.warp v)⟩

theorem warpsKept_of_warps {s t : State} (h : t.warps = s.warps) : WarpsKept s t :=
  ⟨fun v => by rw [State.warp, State.warp, h]; exact .refl _⟩

theorem WarpsKept.refl (s : State) : WarpsKept s s := warpsKept_of_warps rfl

theorem WarpsKept.foldl {α : Type} {f : State → α → State} (hf : ∀ t e, WarpsKept t (f t e)) (es : List α) (s : State) :
    WarpsKept s (es.foldl f s) := by
  induction es generalizing s with
  | nil => exact .refl s
  | cons e es ih => exact (hf s e).trans (ih (f s e))

theorem Sparse.find_map {α : Type} {f : Nat × α → Nat × α} (hf : ∀ e, (f e).1 = e.1) (m : Sparse α) (k : Nat) :
    Sparse.find (List.map f m) k = (Sparse.find m k).map (fun v => (f (k, v)).2) := by
  induction m with
  | nil => rfl
  | cons e es ih =>
    obtain ⟨a, b⟩ := e
    have hab : f (a, b) = (a, (f (a, b)).2) := Prod.ext (hf _) rfl
    rw [List.map_cons, hab, Sparse.find, Sparse.find]
    by_cases h : k = a
    · subst h; simp
    · rw [if_neg h, if_neg h]; exact ih

/-- Warps replaced one by one, each kept. -/
theorem warpsKept_map (s : State) {f : Nat × Warp → Nat × Warp} (hkey : ∀ e, (f e).1 = e.1) (hkept : ∀ e, WarpKept e.2 (f e).2) :
    WarpsKept s { s with warps := s.warps.map f } := by
  refine ⟨fun v => ?_⟩
  show WarpKept (s.warp v) ((Sparse.find (List.map f s.warps) v).getD {})
  rw [Sparse.find_map hkey, State.warp]
  cases Sparse.find s.warps v with
  | none => exact .refl _
  | some x => exact hkept (v, x)

/-! ### Holds released (R263) -/

theorem setHolding_warps (s : State) (a : BitVec 13) (sec : Nat) (h : Holding) : (setHolding s a sec h).warps = s.warps := by
  unfold setHolding
  split
  · dsimp only
    split
    · rw [setHomeData_frame]
    · rfl
  · rfl

theorem triggerWarp_kept (x : Warp) (line : Nat) : WarpKept x (triggerWarp x line) := by
  unfold triggerWarp
  split
  · exact .refl x
  · next m hm =>
    split
    · exact .refl x
    · dsimp only
      split
      · exact ⟨rfl, rfl, rfl, fun _ => rfl⟩
      · exact ⟨rfl, rfl, rfl, fun h => by rw [hm] at h; cases h⟩

theorem triggerMonitors_warpsKept (s : State) (core sec : Nat) : WarpsKept s (triggerMonitors s core sec) := by
  refine warpsKept_map s (fun e => ?_) fun e => ?_
  · split <;> rfl
  · split
    · exact triggerWarp_kept ..
    · exact .refl _

theorem dropResults_tokensMove (s : State) (core sec : Nat) : TokensMove s (dropResults s core sec) := by
  unfold dropResults
  dsimp only
  split <;> rfl

theorem endCount_tokensMove (s : State) (core line : Nat) : TokensMove s (endCount s core line) := by
  unfold endCount
  dsimp only
  split <;> rfl

theorem shootdown_warps {s t : State} {ashlar sec : Nat} (h : shootdown s ashlar sec = some t) : t.warps = s.warps := by
  unfold shootdown at h
  extract_lets l2 hit s1 at h
  have hs1 : s1.warps = s.warps := (dropCopies_tokensMove s ashlar hit).warps
  clear_value s1
  split at h
  · cases h
  · rw [← Option.some.inj h]
    exact hs1

theorem loseReservation_warps (s : State) (h sec : Nat) : (loseReservation s h sec).warps = s.warps := by
  unfold loseReservation
  split <;> rfl

theorem loseTokens_warpsKept {s t : State} {agent : BitVec 13} {sec : Nat} (h : loseTokens s agent sec = some t) : WarpsKept s t := by
  unfold loseTokens at h
  dsimp only at h
  split at h
  · cases h
    refine (triggerMonitors_warpsKept s (agentLocal agent) sec).trans (warpsKept_of_warps ?_)
    exact ((dropResults_tokensMove ..).trans (endCount_tokensMove ..)).warps
  · split at h
    · exact warpsKept_of_warps (shootdown_warps h)
    · split at h
      · cases h; exact warpsKept_of_warps (loseReservation_warps ..)
      · split at h
        · cases h; exact warpsKept_of_warps rfl
        · cases h; exact .refl s

theorem moveTokens_warpsKept {s t : State} {agent sec : Nat} {src : BitVec 13} (h : moveTokens s agent sec src = some t) : WarpsKept s t := by
  unfold moveTokens at h
  dsimp only at h
  split at h
  · cases h; exact .refl s
  · split at h
    · cases h
    · next u hu =>
      cases h
      exact (loseTokens_warpsKept hu).trans (warpsKept_of_warps ((setHolding_warps ..).trans (setHolding_warps ..)))

theorem moveAll_warpsKept {s : State} {agent sec : Nat} {hs : List (BitVec 13)} {o : Option State} (ho : ∀ u, o = some u → WarpsKept s u)
    {u : State} (h : hs.foldl (fun (o : Option State) h => match o with
      | some t => moveTokens t agent sec h
      | none => none) o = some u) : WarpsKept s u := by
  induction hs generalizing o with
  | nil => exact ho u h
  | cons a hs ih =>
    refine ih (fun v hv => ?_) h
    cases o with
    | none => cases hv
    | some x => exact (ho x rfl).trans (moveTokens_warpsKept hv)

theorem collectAll_warpsKept {s t : State} {agent : BitVec 13} {sec : Nat} (h : collectAll s agent sec = some t) : WarpsKept s t := by
  unfold collectAll at h
  extract_lets moved at h
  have hmoved : ∀ u, moved = some u → WarpsKept s u := fun u hu => moveAll_warpsKept (fun v hv => by cases hv; exact .refl s) hu
  clear_value moved
  split at h
  · cases h
  · split at h
    · next u =>
      split at h
      · rw [← Option.some.inj h]; exact hmoved u rfl
      · cases h
    · cases h

theorem writeEntry_warpsKept {s t : State} {key : Nat} {e : NameEntry} (h : writeEntry s key e = some t) : WarpsKept s t := by
  obtain ⟨u, hu, rfl⟩ := Option.map_eq_some_iff.mp h
  exact (collectAll_warpsKept hu).trans (warpsKept_of_warps rfl)

theorem hubWrite_warpsKept {s t : State} {da : Nat} {bs : List Byte} (h : hubWrite s da bs = some t) : WarpsKept s t := by
  obtain ⟨u, hu, rfl⟩ := Option.map_eq_some_iff.mp h
  exact (collectAll_warpsKept hu).trans (warpsKept_of_warps (setHolding_warps ..))

theorem hubOp_warps (s : State) (kind : NameOpKind) (v : W64) : (hubOp s kind v).warps = s.warps := by
  unfold hubOp
  dsimp only
  split <;> rfl

theorem reclaimNow_warpsKept {s t : State} {key da : Nat} (h : reclaimNow s key da = some t) : WarpsKept s t := by
  obtain ⟨u, hu, ht⟩ := Option.bind_eq_some_iff.mp h
  refine (hubWrite_warpsKept hu).trans (WarpsKept.trans ?_ (writeEntry_warpsKept ht))
  exact warpsKept_of_warps rfl

/-- What is done now or later keeps the warps if doing it now does. -/
theorem warpsKept_getD_hubOp {s : State} {o : Option State} {kind : NameOpKind} {v : W64} (h : ∀ t, o = some t → WarpsKept s t) :
    WarpsKept s (o.getD (hubOp s kind v)) := by
  cases o with
  | none => exact warpsKept_of_warps (hubOp_warps ..)
  | some t => exact h t rfl

theorem reclaimEntry_warpsKept (s : State) (key : Nat) : WarpsKept s (reclaimEntry s key) := by
  unfold reclaimEntry
  split
  · split
    · exact .refl s
    · exact warpsKept_getD_hubOp fun t => reclaimNow_warpsKept
  · exact .refl s

theorem releaseHold_warpsKept {s t : State} {v : Nat} (h : releaseHold s v = some t) : WarpsKept s t := by
  unfold releaseHold at h
  split at h
  · cases h; exact .refl s
  · obtain ⟨u, hu, rfl⟩ := Option.map_eq_some_iff.mp h
    exact (writeEntry_warpsKept hu).trans (reclaimEntry_warpsKept ..)

theorem dropHold_warpsKept (s : State) (v : Nat) : WarpsKept s (dropHold s v) := warpsKept_getD_hubOp fun _ => releaseHold_warpsKept

/-! ### Barriers and JOINs of the block (R148, R151) -/

/-- A warp whose units alone differ is kept. -/
theorem warpKept_units (x : Warp) (us : List IUnit) : WarpKept x { x with arch := { x.arch with units := us } } := ⟨rfl, rfl, rfl, id⟩

theorem wakeBarrier_warpsKept (s : State) (blk off : Nat) : WarpsKept s (wakeBarrier s blk off) :=
  warpsKept_map s (fun _ => rfl) fun _ => warpKept_units ..

theorem spWrite_warps (s : State) (blk : Nat) (foreign : Bool) (off : Nat) (bs : List Byte) (fe : BitVec 2) :
    (spWrite s blk foreign off bs fe).warps = s.warps := by
  cases foreign
  · rfl
  · exact (endEligible_kept s blk).warps

theorem setBar_warps (s : State) (blk : Nat) (foreign : Bool) (off phase count : Nat) :
    (setBar s blk foreign off phase count).warps = s.warps := spWrite_warps ..

theorem completePhase_warpsKept (s : State) (blk off : Nat) (foreign rbar : Bool) : WarpsKept s (completePhase s blk off foreign rbar) := by
  unfold completePhase
  extract_lets b plain ckpt s1 b1 s2
  have hs1 : s1.warps = s.warps := setBar_warps ..
  have h : WarpsKept s s2 := warpsKept_of_warps hs1
  split
  · exact h
  · exact h.trans (wakeBarrier_warpsKept ..)

theorem lowerBarriers_warpsKept (s : State) (blk : Nat) : WarpsKept s (lowerBarriers s blk) := by
  refine .foldl (fun t off => ?_) _ s
  dsimp only
  split
  · exact completePhase_warpsKept ..
  · exact .refl t

theorem leaveJoin_warpsKept (s : State) (blk : Nat) : WarpsKept s (leaveJoin s blk) := by
  refine warpsKept_map s (fun e => ?_) fun e => ?_
  · split <;> rfl
  · split
    · exact warpKept_units ..
    · exact .refl _

theorem stopBlock_warpsKept (s : State) (blk : Nat) : WarpsKept s (stopBlock s blk) := by
  refine WarpsKept.trans (t := { s.setBlock blk { s.block blk with status := .stopping, stoppedAt := s.nextId } with nextId := s.nextId + 1 })
    (warpsKept_of_warps rfl) (warpsKept_map _ (fun e => ?_) fun e => ?_)
  · split <;> rfl
  · split
    · exact ⟨rfl, rfl, rfl, id⟩
    · exact .refl _

theorem joinCheck_warpsKept (s : State) (blk : Nat) : WarpsKept s (joinCheck s blk) := by
  unfold joinCheck
  extract_lets b others stands
  split
  · exact .refl s
  · split
    · exact leaveJoin_warpsKept ..
    · split
      · refine WarpsKept.foldl (fun t k => (stopBlock_warpsKept t k).trans ?_) _ s
        exact warpsKept_of_warps rfl
      · exact .refl s

theorem endBlock_warpsKept (s : State) (blk : Nat) : WarpsKept s (endBlock s blk) := by
  unfold endBlock
  extract_lets b s1 s2
  split
  · exact .refl s
  · have h : WarpsKept s s2 := warpsKept_of_warps (by simp only [s2]; split <;> rfl)
    exact h.trans (.foldl joinCheck_warpsKept _ s2)

/-! ### The last round (R213, R236) -/

theorem roundQueries_warps (ts : List Touch) (s : State) (src : W64) (round : BitVec 32) : (roundQueries s src round ts).warps = s.warps :=
  (TokensMove.foldl (fun _ _ => linkSend_tokensMove ..) ts s).warps

/-- The warp is ended in place; what follows keeps every warp. -/
theorem endWarp_warpsKept (s : State) (w : Nat) :
    WarpsKept ((endEligible s (s.warp w).blk).setWarp w { s.warp w with ended := true, mon := none, holds := [], touched := [] })
      (endWarp s w) := by
  have hdrop : ∀ (vs : List W64) (t : State), WarpsKept t (vs.foldl (fun t v => dropHold t v.toNat) t) :=
    .foldl fun _ _ => dropHold_warpsKept ..
  unfold endWarp
  dsimp only
  refine WarpsKept.trans ?_ (endBlock_warpsKept ..)
  refine WarpsKept.trans ?_ (joinCheck_warpsKept ..)
  refine WarpsKept.trans ?_ (lowerBarriers_warpsKept ..)
  split
  · exact hdrop ..
  · split
    · exact hdrop ..
    · refine (hdrop (s.warp w).holds _).trans (warpsKept_of_warps ?_)
      exact roundQueries_warps ..

/-- The ended warp, and the registers of every warp. -/
theorem endWarp_ends (s : State) (w : Nat) :
    ((endWarp s w).warp w).ended = true ∧ ((endWarp s w).warp w).mon = none ∧ ((endWarp s w).warp w).holds = []
      ∧ ∀ v, registersOf ((endWarp s w).warp v) = registersOf (s.warp v) := by
  have hkept := endWarp_warpsKept s w
  obtain ⟨-, hended, hholds, hmon⟩ := hkept.warp w
  rw [State.setWarp_warp_self] at hended hholds hmon
  refine ⟨hended, hmon rfl, hholds, fun v => (hkept.warp v).registers.trans ?_⟩
  rw [State.setWarp_warp]
  split
  · next hv => rw [hv]; rfl
  · rw [(endEligible_kept ..).warp]

end Sys2Proof.Machine
end

section
/-! O24: FENCE and WAITC, and what completes a fence (R130, R131, R133, R144, R213). -/

namespace Sys2Proof.Machine

open Sys2Proof.Claim

/-! ### The slots -/

/-- A FENCE waits unless its fence is complete. -/
theorem fenceSlot_eq (s : State) (h : Hold) :
    fenceSlot s h = .next (if s.scalarOn = true ∧ s.unit.fenced = false then s.hold h else s) := by
  simp only [fenceSlot, scalarDo]
  cases s.scalarOn <;> cases s.unit.fenced <;> rfl

/-- WAITC waits while the path's counter is above the threshold. -/
theorem exec_swaitc (s : State) (path : BitVec 3) (sn : BitVec 6) (z : Bool) :
    exec (.swaitc path sn z) s = .next (if s.scalarOn = true ∧ s.unit.passed = false
        ∧ (if z then 0 else (s.sreg sn.toNat).toNat) < pathCount s.cw path.toNat
      then s.hold (.waitc path.toNat (if z then 0 else (s.sreg sn.toNat).toNat)) else s) := by
  show execSwaitc path sn z s = _
  simp only [execSwaitc, scalarDo]
  by_cases hn : pathCount s.cw path.toNat ≤ (if z then 0 else (s.sreg sn.toNat).toNat)
  · simp [hn, Nat.not_lt.mpr hn]
  · cases s.scalarOn <;> cases s.unit.passed <;> simp [hn, Nat.not_le.mp hn]

theorem fenceAndWaitcSlots : FenceAndWaitcSlots := by
  refine fun s => ⟨fun scope => ⟨fun hoff => ?_, fun hon hf hu => ?_⟩, fun path sn z => ⟨fun hoff => ?_, fun hon hp hn hu => ?_⟩⟩
  · have hnot : ¬ (s.scalarOn = true ∧ s.unit.fenced = false) := fun ⟨h1, h2⟩ => by
      rcases hoff with h | h
      · rw [h1] at h; cases h
      · rw [h2] at h; cases h
    exact ⟨(fenceSlot_eq s (.fenceRel scope)).trans (by rw [if_neg hnot]), (fenceSlot_eq s (.fenceAcq scope)).trans (by rw [if_neg hnot])⟩
  · have hslot : ∀ h, fenceSlot s h = .next (s.hold h) := fun h => (fenceSlot_eq s h).trans (by rw [if_pos ⟨hon, hf⟩])
    exact ⟨_, _, hslot (.fenceRel scope), by rw [State.hold_unit _ hu], rfl, State.hold_dataKept .., hslot (.fenceAcq scope),
      by rw [State.hold_unit _ hu], rfl, State.hold_dataKept ..⟩
  · have hnot : ¬ (s.scalarOn = true ∧ s.unit.passed = false
        ∧ (if z then 0 else (s.sreg sn.toNat).toNat) < pathCount s.cw path.toNat) := fun ⟨h1, h2, h3⟩ => by
      rcases hoff with h | h | h
      · rw [h1] at h; cases h
      · rw [h2] at h; cases h
      · exact absurd h3 (Nat.not_lt.mpr h)
    rw [exec_swaitc, if_neg hnot]
  · refine ⟨_, (exec_swaitc ..).trans (by rw [if_pos ⟨hon, hp, hn⟩]), ?_, rfl, State.hold_dataKept ..⟩
    rw [State.hold_unit _ hu]

/-! ### When a fence may complete -/

theorem all_unitAccesses_iff {x : Warp} {v : IUnit} {b : AccKind → Bool} {p : AccKind → Prop} (h : ∀ k, b k = true ↔ ¬ p k) :
    (unitAccesses x v).all (fun c => b c.kind) = true ↔ NoneLeft x v p := by
  simp only [List.all_eq_true, unitAccesses, List.mem_filter, bne_iff_ne, and_imp, h, NoneLeft]

theorem isPosted_iff (k : AccKind) : isPosted k = true ↔ ¬ ReleaseWaits k := by
  unfold ReleaseWaits
  cases k <;> simp [isPosted]

theorem loads_iff (k : AccKind) : (!loads k) = true ↔ ¬ AcquireWaits k := by
  unfold AcquireWaits
  cases k <;> simp [loads]

theorem releaseReady_iff (x : Warp) (v : IUnit) (scope : BitVec 3) :
    releaseReady x v scope = true ↔ NoneLeft x v ReleaseWaits ∧ (3 ≤ scope.toNat → x.acks = 0) := by
  rw [releaseReady, Bool.and_eq_true, all_unitAccesses_iff isPosted_iff, Bool.or_eq_true, decide_eq_true_eq, beq_iff_eq]
  exact and_congr_right fun _ => ⟨fun h hs => h.resolve_left (by omega), fun h => (Nat.lt_or_ge scope.toNat 3).imp_right h⟩

theorem acquireReady_iff (x : Warp) (v : IUnit) : acquireReady x v = true ↔ NoneLeft x v AcquireWaits :=
  all_unitAccesses_iff (b := fun k => !loads k) loads_iff

/-! ### What a completed fence does -/

theorem wideEnds_kept (s : State) (blk : Nat) (scope : BitVec 3) : StorageKept s (wideEnds s blk scope) := by
  unfold wideEnds
  split
  · exact endEligible_kept ..
  · exact .refl s

theorem wideEnds_eligible {s : State} {blk : Nat} {scope : BitVec 3} (h : 1 < scope.toNat) :
    ((wideEnds s blk scope).block blk).eligible = false := by
  rw [wideEnds, if_pos h]
  exact endEligible_eligible ..

theorem acquireL1_kept (s : State) (core : Nat) (scope : BitVec 3) : StorageKept s (acquireL1 s core scope) := by
  unfold acquireL1
  split
  · exact .setCore ..
  · exact .refl s

theorem acquireL1_block (s : State) (core : Nat) (scope : BitVec 3) (b : Nat) : (acquireL1 s core scope).block b = s.block b := by
  unfold acquireL1
  split <;> rfl

theorem acquireL1_l1 {s : State} {core : Nat} {scope : BitVec 3} (h : 1 < scope.toNat) : ((acquireL1 s core scope).core core).l1 = [] := by
  rw [acquireL1, if_pos h, State.setCore_core, if_pos rfl]

/-- A fence completes after changes that leave the data, the warp's units and the other warps alone. -/
theorem fenceDone_done {s t : State} (hdata : DataKept s t) (harch : (t.warp s.ev.w).arch = (s.warp s.ev.w).arch)
    (hothers : ∀ v, v ≠ s.ev.w → t.warp v = s.warp v) (hu : s.ev.u < (s.warp s.ev.w).arch.units.length) :
    FenceDone s (fenceDone t s.ev.w s.ev.u) := by
  refine ⟨?_, dataKept_trans hdata (dataKept_setWarp t rfl), fun v hv => ((State.setWarp_warp ..).trans (if_neg hv)).trans (hothers v hv)⟩
  have hunit : (t.warp s.ev.w).unit s.ev.u = (s.warp s.ev.w).unit s.ev.u := by rw [Warp.unit, harch, Warp.unit]
  rw [fenceDone, State.setWarp_warp_self, Warp.setUnit_unit _ (by rw [harch]; exact hu), hunit]

theorem fenceDone_of_kept {s t : State} (h : StorageKept s t) (hu : s.ev.u < (s.warp s.ev.w).arch.units.length) :
    FenceDone s (fenceDone t s.ev.w s.ev.u) :=
  fenceDone_done h.dataKept (by rw [h.warp]) (fun v _ => h.warp v) hu

/-! ### The round of a release at `.s` (R213) -/

theorem linkSend_queue (s : State) (l k : Nat) (i : LinkItem) :
    ((linkSend s l i).link k).queue = if k = l then (s.link k).queue ++ [i] else (s.link k).queue := by
  rw [linkSend, State.setLink_link]
  split
  · next h => rw [h]
  · rfl

/-- Items sent one after another all stand in their links' queues, behind what stood there. -/
theorem mem_queue_sends {α : Type} {link : α → Nat} {item : α → LinkItem} (ts : List α) (s : State) {i : LinkItem} {k : Nat}
    (h : i ∈ (s.link k).queue ∨ ∃ e, e ∈ ts ∧ link e = k ∧ item e = i) :
    i ∈ ((ts.foldl (fun t e => linkSend t (link e) (item e)) s).link k).queue := by
  induction ts generalizing s with
  | nil => exact h.resolve_right fun ⟨e, he, _⟩ => absurd he List.not_mem_nil
  | cons a ts ih =>
    refine ih (linkSend s (link a) (item a)) ?_
    rw [linkSend_queue]
    rcases h with h | ⟨e, he, hk, hi⟩
    · left
      split
      · exact List.mem_append_left _ h
      · exact h
    · rcases List.mem_cons.mp he with rfl | he
      · left
        rw [if_pos hk.symm, hi]
        exact List.mem_append_right _ List.mem_cons_self
      · exact .inr ⟨e, he, hk, hi⟩

theorem sendQueries_tokensMove (s : State) (x : Warp) (round : BitVec 32) (ts : List Touch) : TokensMove s (sendQueries s x round ts) :=
  .foldl (fun _ _ => linkSend_tokensMove ..) ts s

theorem mem_sendQueries (s : State) (x : Warp) (round : BitVec 32) {ts : List Touch} {e : Touch} (he : e ∈ ts) :
    .query (sourceId s x) round e ∈ ((sendQueries s x round ts).link (Config.linkTo e.module.toNat % 24)).queue :=
  mem_queue_sends (link := fun e : Touch => Config.linkTo e.module.toNat % 24) (item := fun e => .query (sourceId s x) round e) ts s
    (.inr ⟨e, he, rfl, rfl⟩)

theorem wideEnds_sourceId (s : State) (blk : Nat) (scope : BitVec 3) (x : Warp) : sourceId (wideEnds s blk scope) x = sourceId s x := by
  have hidx : ((wideEnds s blk scope).block x.blk).idx = (s.block x.blk).idx := by
    unfold wideEnds
    split
    · unfold endEligible
      split
      · next k hk =>
        split
        · rw [State.setBlock_block]
          split
          · next h => rw [State.block, h, hk]; rfl
          · rfl
        · rfl
      · rfl
    · rfl
  have hsys : (wideEnds s blk scope).sys = s.sys := by
    unfold wideEnds
    split
    · rw [endEligible_state]
    · rfl
  rw [sourceId, hidx, hsys, sourceId]

/-- The warp after its round closed with homes to ask. -/
def askedWarp (x : Warp) (u : Nat) : Warp :=
  Warp.setUnit { x with round := x.round + 1, touched := [], query := some { round := x.round, waiting := x.touched, resendAt := 0 } } u
    (fun v => { v with hold := .fenceQuery x.round })

/-- A round without homes closes at once. -/
theorem closeRound_none {s : State} {w : Nat} (u : Nat) (h : (s.warp w).touched = []) :
    closeRound s w u = fenceDone (s.setWarp w { s.warp w with round := (s.warp w).round + 1 }) w u := by
  rw [closeRound]
  simp only [h, List.isEmpty_nil, if_true]

theorem closeRound_some {s : State} {w : Nat} (u : Nat) (h : (s.warp w).touched ≠ []) :
    closeRound s w u
      = sendQueries (s.setWarp w (askedWarp (s.warp w) u)) (s.warp w) (s.warp w).round (s.warp w).touched := by
  rw [closeRound]
  simp only [List.isEmpty_iff, h, if_false]
  rfl

/-! ### The fences of a warp with live lanes -/

theorem exec_fenceComplete_live {s : State} {x : Warp} (hx : Sparse.find s.warps s.ev.w = some x) (hlive : x.arch.live ≠ 0) :
    exec .fenceComplete s = .next (tryFence s s.ev.w s.ev.u) := by
  show execFenceComplete s = _
  simp only [execFenceComplete, hx, hlive, if_false]

theorem tryFence_release {s : State} {w u : Nat} {scope : BitVec 3} (h : ((s.warp w).unit u).hold = .fenceRel scope) (hs : scope ≠ 4) :
    tryFence s w u = if releaseReady (s.warp w) ((s.warp w).unit u) scope = true then fenceDone (wideEnds s (s.warp w).blk scope) w u
      else s := by
  simp only [tryFence, h, hs, if_false]
  cases releaseReady (s.warp w) ((s.warp w).unit u) scope <;> rfl

theorem tryFence_close {s : State} {w u : Nat} (h : ((s.warp w).unit u).hold = .fenceRel 4)
    (hready : releaseReady (s.warp w) ((s.warp w).unit u) 4 = true) (hq : (s.warp w).query = none) :
    tryFence s w u = closeRound (wideEnds s (s.warp w).blk 4) w u := by
  simp only [tryFence, h, hready, hq]
  rfl

theorem tryFence_answered {s : State} {w u : Nat} {r : BitVec 32} (h : ((s.warp w).unit u).hold = .fenceQuery r)
    (hq : (s.warp w).query = none) : tryFence s w u = fenceDone s w u := by
  simp only [tryFence, h, hq]
  rfl

theorem tryFence_acquire {s : State} {w u : Nat} {scope : BitVec 3} (h : ((s.warp w).unit u).hold = .fenceAcq scope) :
    tryFence s w u = if acquireReady (s.warp w) ((s.warp w).unit u) = true then
      fenceDone (acquireL1 (wideEnds s (s.warp w).blk scope) (s.warp w).core scope) w u else s := by
  simp only [tryFence, h]
  cases acquireReady (s.warp w) ((s.warp w).unit u) <;> rfl

/-- A release at `.s` closes the round: without homes the fence is done, with homes they are asked. -/
theorem tryFence_closes {s : State} (hu : s.ev.u < (s.warp s.ev.w).arch.units.length)
    (h : ((s.warp s.ev.w).unit s.ev.u).hold = .fenceRel 4) (hleft : NoneLeft (s.warp s.ev.w) ((s.warp s.ev.w).unit s.ev.u) ReleaseWaits)
    (hacks : (s.warp s.ev.w).acks = 0) (hq : (s.warp s.ev.w).query = none) {x : Warp} (hx : s.warp s.ev.w = x) :
    ∃ t, tryFence s s.ev.w s.ev.u = t ∧ (t.warp s.ev.w).round = x.round + 1 ∧ (t.warp s.ev.w).touched = []
      ∧ (x.touched = [] → FenceDone s t)
      ∧ (x.touched ≠ [] → (t.warp s.ev.w).query = some ⟨x.round, x.touched, 0, []⟩
          ∧ ((t.warp s.ev.w).unit s.ev.u).hold = .fenceQuery x.round ∧ DataKept s t
          ∧ ∀ e, e ∈ x.touched → .query (sourceId s x) x.round e ∈ (t.link (Config.linkTo e.module.toNat % 24)).queue) := by
  have hclose := tryFence_close h ((releaseReady_iff ..).mpr ⟨hleft, fun _ => hacks⟩) hq
  have hkept := wideEnds_kept s (s.warp s.ev.w).blk 4
  have hsrc := wideEnds_sourceId s (s.warp s.ev.w).blk 4
  generalize wideEnds s (s.warp s.ev.w).blk 4 = t0 at hclose hkept hsrc
  have ht0 : t0.warp s.ev.w = x := (hkept.warp _).trans hx
  refine ⟨_, rfl, ?_⟩
  rw [hclose]
  by_cases htouched : x.touched = []
  · have hdone := closeRound_none s.ev.u (ht0.symm ▸ htouched)
    rw [ht0] at hdone
    rw [hdone]
    have hself := t0.setWarp_warp_self s.ev.w { x with round := x.round + 1 }
    have hwarp : (fenceDone (t0.setWarp s.ev.w { x with round := x.round + 1 }) s.ev.w s.ev.u).warp s.ev.w
        = Warp.setUnit { x with round := x.round + 1 } s.ev.u (fun v => { v with hold := .none, fenced := true }) := by
      rw [fenceDone, State.setWarp_warp_self, hself]
    refine ⟨by rw [hwarp]; rfl, by rw [hwarp]; exact htouched, fun _ => ?_, fun hne => absurd htouched hne⟩
    refine fenceDone_done (dataKept_trans hkept.dataKept (dataKept_setWarp t0 (by rw [ht0]; rfl))) (by rw [hself, hx])
      (fun v hv => ((State.setWarp_warp ..).trans (if_neg hv)).trans (hkept.warp v)) hu
  · have hasked := closeRound_some s.ev.u (ht0.symm ▸ htouched)
    rw [ht0] at hasked
    rw [hasked]
    have hmove := sendQueries_tokensMove (t0.setWarp s.ev.w (askedWarp x s.ev.u)) x x.round x.touched
    have hwarp := (hmove.warp s.ev.w).trans (State.setWarp_warp_self ..)
    refine ⟨by rw [hwarp]; rfl, by rw [hwarp]; rfl, fun h => absurd h htouched, fun _ => ⟨by rw [hwarp]; rfl, ?_, ?_, fun e he => ?_⟩⟩
    · rw [hwarp, askedWarp, Warp.setUnit_unit _ (hx ▸ hu)]
    · exact dataKept_trans hkept.dataKept (dataKept_trans (dataKept_setWarp t0 (by rw [ht0]; rfl)) hmove.storageKept.dataKept)
    · rw [← hsrc]
      exact mem_sendQueries (t0.setWarp s.ev.w (askedWarp x s.ev.u)) x x.round he

/-! ### The ending fence -/

theorem endingReady_of {s : State} {w : Nat} {x : Warp} (hlive : x.arch.live = 0) (hended : x.ended = false) (haccs : x.accs = [])
    (hacks : x.acks = 0) (hops : ∀ o v id sd, o ∈ s.names.ops → o.asker = .warp v id sd → v ≠ w) : endingReady s w x = true := by
  have hany : s.names.ops.any (fun o => match o.asker with
      | .warp v _ _ => v == w
      | .port _ | .hub => false) = false := by
    refine List.any_eq_false.mpr fun o ho => ?_
    cases hask : o.asker with
    | warp v id sd => exact fun h => hops o v id sd ho hask (eq_of_beq h)
    | port p => exact Bool.false_ne_true
    | hub => exact Bool.false_ne_true
  simp only [endingReady, hlive, hended, haccs, hacks]
  rw [Bool.and_eq_true]
  refine ⟨rfl, ?_⟩
  rw [Bool.not_eq_true']
  exact hany

theorem exec_fenceComplete_ending {s : State} {x : Warp} (hx : Sparse.find s.warps s.ev.w = some x) (hlive : x.arch.live = 0)
    (hready : endingReady s s.ev.w x = true) : exec .fenceComplete s = .next (endWarp s s.ev.w) := by
  show execFenceComplete s = _
  simp only [execFenceComplete, hx, hlive, hready, if_true]

theorem fencesComplete : FencesComplete := by
  intro s x hfind
  have hx : s.warp s.ev.w = x := by rw [State.warp, hfind]; rfl
  refine ⟨fun hlive hu => ?live, fun hlive hended haccs hacks hops => ?ending⟩
  case ending =>
    exact ⟨_, exec_fenceComplete_ending hfind hlive (endingReady_of hlive hended haccs hacks hops), endWarp_ends s s.ev.w⟩
  case live =>
    have hexec := exec_fenceComplete_live hfind hlive
    subst hx
    refine ⟨fun scope hhold hs => ⟨fun hleft hacks => ?_, fun hnot => ?_⟩, fun hhold hleft hacks hq => ?_, fun r hhold hq => ?_,
      fun scope hhold => ⟨fun hleft => ?_, fun hnot => ?_⟩⟩
    · rw [tryFence_release hhold hs, if_pos ((releaseReady_iff ..).mpr ⟨hleft, hacks⟩)] at hexec
      exact ⟨_, hexec, fenceDone_of_kept (wideEnds_kept ..) hu, fun h => wideEnds_eligible h⟩
    · rw [tryFence_release hhold hs, if_neg fun h => ?_] at hexec
      · exact hexec
      · obtain ⟨hleft, hacks⟩ := (releaseReady_iff ..).mp h
        exact hnot.elim (fun h => h hleft) fun ⟨h3, hne⟩ => hne (hacks h3)
    · obtain ⟨t, ht, hclosed⟩ := tryFence_closes hu hhold hleft hacks hq rfl
      exact ⟨t, ht ▸ hexec, hclosed⟩
    · rw [tryFence_answered hhold hq] at hexec
      exact ⟨_, hexec, fenceDone_of_kept (.refl s) hu⟩
    · rw [tryFence_acquire hhold, if_pos ((acquireReady_iff ..).mpr hleft)] at hexec
      refine ⟨_, hexec, fenceDone_of_kept ((wideEnds_kept ..).trans (acquireL1_kept ..)) hu, fun h => ⟨acquireL1_l1 h, ?_⟩⟩
      exact (congrArg Block.eligible (acquireL1_block ..)).trans (wideEnds_eligible h)
    · rw [tryFence_acquire hhold, if_neg fun h => hnot ((acquireReady_iff ..).mp h)] at hexec
      exact hexec

/-- Settles O24: the slots by their branches, each fence by its hold, the ending fence by what every later step keeps. -/
theorem fences : Obligations.Fences := ⟨fenceAndWaitcSlots, fencesComplete⟩

end Sys2Proof.Machine
end
